-- ==== Sys2Proof/Word.lean ====
section
/-! DEFINITION. The word types of the register space and of the line (R3). -/

namespace Sys2Proof

/-- A 64-bit register, mailbox word, descriptor word or parse register. -/
abbrev Word := BitVec 64

/-- One byte, of a frame, of the crust, of a message. -/
abbrev Byte := BitVec 8

end Sys2Proof
end

