-- ==== Sys2Proof/Data.lean ====
section
/-! DEFINITION. The plain data that commands and the state share: requesters, frames, accesses, line items. -/

namespace Sys2Proof

/-- The requester ports of the control fabric (R29): 0 management processor, 1 host, 2 JTAG. -/
inductive Req where
  | mgmt | host | jtag
  deriving DecidableEq, Repr

/-- The two ingress sides of the shared stages (R158, R186). -/
inductive Side where
  | line | client
  deriving DecidableEq, Repr

/-- The two directions of the line (R118). -/
inductive Dir where
  | down | up
  deriving DecidableEq, Repr

/-- KIND of the source word (R161). -/
inductive Kind where
  | line | client | host | firmware | recirc
  deriving DecidableEq, Repr

/-- The class of a frame (R87, R182): BEST_EFFORT, ASSURED, TIMED, CONTROL. -/
inductive Cls where
  | bestEffort | assured | timed | control
  deriving DecidableEq, Repr

/-- The SRAM regions, in the row order of R27 (the instances of 0x0E30 and 0x0E31, R488). -/
inductive EccRegion where
  | buffer | flow | queueState | rules | counters | mgmt | ringState | slice | keyStore | crust
  deriving DecidableEq, Repr

/-- One error the scrubber finds (R27): its region, what it hits, and whether two bits are wrong. `index` and `aux` by
region: buffer: the cell, 163,840 to a quadrant, and which frame of the quadrant holds it, from 1, 0 for a free cell;
flow: the slot, and 1 where the word in error holds the key or FLOW_ID; queue state: the index and the kind code of RESET;
rules: the program word, 0x10000 + comparator or 0x20000 + pattern; counters: the event and its instance, 0x10000 + probe,
or 0x20000 + histogram engine and its bin, 32 for MAX; mgmt: the byte address; ring state: the ring, and 1 for a receive
ring; slice memory: the slice; key store: the slot. -/
structure EccError where
  region : EccRegion
  index : Nat
  aux : Nat
  twoBits : Bool
  deriving DecidableEq, Repr

/-- An interface of R487: sending block, interface number, instance. -/
structure Iface where
  block : Nat
  i : Nat
  inst : Nat
  deriving DecidableEq, Repr

/-- The outcome of an LDPC decode (R69). -/
inductive CwOutcome where
  | clean | corrected | uncorrectable
  deriving DecidableEq, Repr

/-- A stamp taken at a stamping point (R296): ns of module time and its 32-bit fraction. -/
structure StampIn where
  ns : Nat
  frac : Nat
  deriving DecidableEq, Repr

/-- A decoded crust, as its 1,376 bytes in line order (R74). -/
abbrev CrustIn := List Byte

/-- A crust message, as its 48 bytes (R111). -/
abbrev MsgIn := List Byte

/-- A CONTROL item that firmware takes from the control tag, as its content bytes from the control header (R140). -/
abbrev CtrlIn := List Byte

/-- A downstream crumb item (R86, R88): the offset of its header from the start of the packet region in 8-byte units
(R118), the header word, the content and the GCM tag. -/
structure ItemIn where
  offset : Nat
  header : Word
  content : List Byte
  gcmTag : List Byte
  deriving DecidableEq, Repr

/-- Why a port loses a condition of R262. -/
structure LinkCause where
  localFault : Bool
  remoteFault : Bool
  hiSer : Bool
  amLockLost : Bool
  deriving DecidableEq, Repr

/-- What a look-aside job finds in the memory it names (R329): payload, AAD, tag, and whether the reads and the writes
succeed. -/
structure JobMem where
  payload : List Byte
  aad : List Byte
  tag : List Byte
  readOk : Bool
  writeOk : Bool
  deriving DecidableEq, Repr

/-- One descriptor as host DMA reads it (R383, R391): its 32 bytes, whether the read of it succeeded, and the bytes of
the buffer it names (none where that read fails). -/
structure DescRead where
  raw : List Byte
  ok : Bool
  data : Option (List Byte)
  deriving DecidableEq, Repr

/-- A register or doorbell access that does not go through a row of its own (R362, R543). `descs` are the descriptors that
a write of a receive ring's descriptor tail posts, as host DMA reads them (R391). -/
structure Access where
  req : Req
  bar : Nat
  offset : Nat
  size : Nat
  write : Bool
  value : Word
  poisoned : Bool
  descs : List DescRead
  deriving DecidableEq, Repr

/-- What a configuration request asks for (R359): a read, or a write of the fields that act on the block: MSI-X Enable and
Function Mask (R371), the power state (R360), any other register. -/
inductive ConfigOp where
  | read (offset : Nat)
  | msix (enable funcMask : Bool)
  | power (d3hot : Bool)
  | write (offset : Nat)
  deriving DecidableEq, Repr

/-- The holder of a head frame for a host group (R394). -/
inductive HeadSrc where
  | queue (q : Nat)
  | delivery (ring : Nat)
  | circuit (c : Nat)
  deriving DecidableEq, Repr

/-- The blocks of HARDWARE_INITIALISATION_DONE (R474). -/
inductive InitBlock where
  | buffer (quadrant : Nat)
  | scheduler
  | ringState
  | counters
  | slice (s : Nat)
  deriving DecidableEq, Repr

/-- The context words of a flow (R182). -/
structure Ctx where
  c0 : Word
  c1 : Word
  c2 : Word
  deriving DecidableEq, Repr

/-- A lookup key with its SPACE (R179). -/
structure Key where
  space : Nat
  k : List Word
  deriving DecidableEq, Repr

/-- What a host transmit descriptor asks for its frame (R383, R389). -/
structure TxInfo where
  ring : Nat
  descIndex : Nat
  stamp : Bool
  stampTag : Nat
  report : Bool
  acceptReport : Bool
  deadlineValid : Bool
  deadline : Nat
  segmented : Bool
  segIndex : Nat
  segCount : Nat
  deriving DecidableEq, Repr

/-- The meta fields of parse (R168). -/
structure Meta where
  l3off : Nat
  l4off : Nat
  l4kind : Nat
  prio : Nat
  user : Nat
  carry : Word
  deriving DecidableEq, Repr

/-- The attribution conditions of R254 that held since a frame's acceptance. -/
structure Causes where
  localPower : Bool
  lineFault : Bool
  deriving DecidableEq, Repr

/-- How a frame for a host ring was steered (DELIVERY of R395). -/
inductive Delivery where
  | queue | filter | exception | circuit
  deriving DecidableEq, Repr

/-- A frame inside the module: its bytes from the destination address to the last payload byte, without FCS (R156),
and everything the stages hand along with it. -/
structure Packet where
  bytes : List Byte
  kind : Kind
  firstKind : Kind
  /-- INDEX of R161. -/
  index : Nat
  /-- Arrival stamp in ns and its 2^-32 ns fraction (R298). -/
  arrival : Nat
  arrivalFrac : Nat
  /-- Version slot stamped at the first dispatch (R199), none when parse is skipped. -/
  version : Option Nat
  key : List Word
  facts : Meta
  pflags : BitVec 8
  reason : Nat
  csumL3 : Nat
  csumL4 : Nat
  /-- Context found by flow lookup (R182). -/
  ctx : Option Ctx
  /-- Queue it is bound for (R183, R185, R266). -/
  queue : Option Nat
  cls : Cls
  /-- Yellow under R226. -/
  yellow : Bool
  tx : Option TxInfo
  filter : Option Nat
  delivery : Delivery
  circuit : Option Nat
  /-- Buffer quadrant that holds it (R26). -/
  quadrant : Nat
  deadline : Option Nat
  /-- Key and promise of an accepted timed frame (R246). -/
  promise : Option Nat
  lookahead : Bool
  /-- Module time was stepped while the frame was held after acceptance (R240). -/
  stepped : Bool
  /-- Module time was stepped or bridged since arrival (R499). -/
  timeJump : Bool
  causes : Causes
  /-- Outer PCP, 0 for an untagged frame (R274). -/
  pcp : Nat
  /-- The frame's data was corrupted by a two-bit error after it began to leave (R27). -/
  corrupt : Bool
  deriving DecidableEq, Repr

/-- The states of the tin (R337). -/
inductive TinMode where
  | unprovisioned | provisioned | metering | closed | tampered
  deriving DecidableEq, Repr

/-- An object map of the tin (R338): the bound module serial, its effective time and the 64 OBJECT codes of R345. -/
structure TinMap where
  /-- The module serial it binds, R338, R353. -/
  serial : Word
  /-- The tin second from which it is in force, R338. -/
  effective : Nat
  /-- 64 OBJECT codes, R338. -/
  objects : List Nat
  deriving DecidableEq, Repr

/-- Open-bin accumulators of one slot of the tin (R343-R345). -/
structure TinBin where
  octDown : Nat
  octUp : Nat
  kept : Nat
  brokenHe : Nat
  brokenLf : Nat
  brokenLp : Nat
  shortfall : Nat
  pushes : Nat
  availS : Nat
  unavailS : Nat
  noDataS : Nat
  dipCount : Nat
  flags : BitVec 8
  maxUncert : Nat
  /-- Pushes, errored pushes and defects of the second now running (R343). -/
  secPushes : Nat
  secErrored : Nat
  secDefect : Bool
  /-- Now unavailable, and the length and kind of the current run of seconds (R151, R343). -/
  unavailable : Bool
  runLen : Nat
  runSes : Bool
  deriving DecidableEq, Repr

/-- A signed record of the tin: SEQ, its 128 bytes (R345). -/
structure TinRecord where
  /-- RECORD_SEQ or LOG_SEQ, R345, R350. -/
  seq : Nat
  /-- Its bytes, R345, R350. -/
  bytes : List Byte
  deriving DecidableEq, Repr

/-- A closed bin whose records are still to be written (R344). -/
structure TinClosing where
  start : Nat
  bins : List (Nat × TinBin)
  closedFlag : Bool
  /-- OBJECT codes and CONFIG_SEQ of the map in force in the bin. -/
  objects : List Nat
  configSeq : Nat
  deriving DecidableEq, Repr

/-- The tin cartridge with everything it holds (R336-R353). -/
structure TinDevice where
  /-- Serial of the tin, 64 bits, R336. -/
  serial : Word
  /-- K_TT, 32 bytes, R346. -/
  kTT : List Byte
  /-- State, R337. -/
  mode : TinMode
  /-- K_OP, 32 bytes, none before PROVISION, R346. -/
  kOp : List Byte
  /-- KEY_GEN, R346. -/
  keyGen : Nat
  /-- The last counter of an operator message, R349. -/
  lastCounter : Nat
  /-- Object map in force, R338. -/
  map : Option TinMap
  /-- Object map to come, R338. -/
  pendingMap : Option TinMap
  /-- CONFIG_SEQ, R338. -/
  configSeq : Nat
  /-- Tin time in units of 1/32,768 s (R341). -/
  time : Nat
  /-- Time lost, R341, R351. -/
  timeLost : Bool
  /-- Tin time at the last discipline (R342). -/
  disciplined : Nat
  /-- Slew still to take off, in units of 1/32,768 s, and trim in ppm (R341). -/
  slew : Nat
  trimPpm : Int
  /-- RECORD_SEQ of the next record, R345. -/
  nextSeq : Nat
  /-- Record ring, oldest first, at most 258,048, R347. -/
  records : List TinRecord
  /-- CMAC of the last record, R345. -/
  lastCmac : List Byte
  /-- Collected mark, R347. -/
  collected : Nat
  /-- The notice of R347 at 90 % has been sent. -/
  noticed90 : Bool
  /-- LOG_SEQ of the next entry, R350. -/
  nextLog : Nat
  /-- Log ring, oldest first, at most 4,096, R347, R350. -/
  log : List TinRecord
  /-- CMAC of the last log entry, R350. -/
  lastLogCmac : List Byte
  /-- Tin second at which the open bins began, R343. -/
  binStart : Nat
  /-- Open bins by object slot, R343. -/
  bins : List (Nat × TinBin)
  /-- Bins that close and wait for their records, R344. -/
  closing : List TinClosing
  /-- Snapshot of the open bins and of tin time (R351). -/
  snapBins : List (Nat × TinBin)
  snapStart : Nat
  snapTime : Nat
  /-- Bay latch opened while unpowered, R352. -/
  bayLatched : Bool
  /-- Tin second of it, R352. -/
  bayTime : Nat
  /-- A power-fail warning holds, R351. -/
  warnHeld : Bool
  /-- Tin second of the warning, R351. -/
  warnAt : Nat
  /-- The capacitor carries the tin over a supply loss, R351. -/
  capacitorOk : Bool
  /-- The last push reported a module serial other than the bound one (R353). -/
  mismatch : Bool
  /-- The tin is powered by a module and its self-test has passed (R351, R354). -/
  running : Bool
  deriving DecidableEq, Repr

end Sys2Proof
end

