-- ==== Sys2Proof/Syntax.lean ====
section
/-! DEFINITION. The commands of the module: one constructor per row of spec/opcode_table.json, in the table's order,
with the operands that come from outside the module. -/

namespace Sys2Proof

/-- A command of the block. -/
inductive Instr where
  /-- SCRUBBER_PASS (R27): The hardware scrubber reads and corrects each word of every ON SRAM region, at least once every 60 s. -/
  | scrubberPass (errors : List EccError)
  /-- CREDIT_RETURN (R17): A receiving block removes a unit from its input queue and returns one credit to the sender. -/
  | creditReturn (iface : Iface)
  /-- ROOT_LOCK (R22): The root synthesiser declares lock to the recovered clock after its phase error has stayed below 1 ps for 1 ms. -/
  | rootLock
  /-- LOS_DECLARE (R36): Loss of signal is declared after the received power has been below -30 dBm for 2 us. -/
  | losDeclare
  /-- LOS_CLEAR (R36): Loss of signal clears after the received power has been above -28 dBm for 100 us. -/
  | losClear
  /-- LINE_CALIBRATION_DONE (R44): Line receiver calibration completes and keeps the CTLE setting with the best figure of merit. -/
  | lineCalibrationDone (foms : List Nat)
  /-- ADAPT_WINDOW (R45): At the end of each 65,536-symbol window, the figure of merit is compared with the previous window to steer tap adaptation. -/
  | adaptWindow (fom : Nat) (taps : List Int)
  /-- LINE_RX_SET (R46): LINE_RX is set once the figure of merit has been at least 62 in every window for 1 ms. -/
  | lineRxSet
  /-- RX_FOM_LOSS (R46): LINE_RX clears after the figure of merit has been below 56 for 100 us, or when clock recovery loses lock. -/
  | rxFomLoss (cdrLost : Bool)
  /-- LASER_CALIBRATION_DONE (R47): Laser calibration completes, and LINE_TX is judged afresh. -/
  | laserCalibrationDone
  /-- LASER_ENABLE (R48): Laser enable is asserted 512 symbols before a burst's first preamble symbol, and the burst is sent. -/
  | laserEnable
  /-- BURST_SENT (R48): A burst completes with its terminator, and laser enable is released. -/
  | burstSent
  /-- ROGUE_CUT (R49): The rogue monitor cuts the laser and latches a cut after more than 64 symbols of enable outside every grant window. -/
  | rogueCut
  /-- TX_DISABLE_ASSERT (R50): Assertion of TX_DISABLE forces the laser off and ends any burst without its terminator. -/
  | txDisableAssert
  /-- TX_DISABLE_RELEASE (R50): Release of TX_DISABLE lets bursts resume from the first lead point at least 1 us later. -/
  | txDisableRelease
  /-- PRBS_CHECKER_LOCK (R55): A pattern checker locks after 1,024 consecutive matching bits. -/
  | prbsCheckerLock (checker : Nat) (inverted : Bool)
  /-- PRBS_LOCK_LOSS (R55): A pattern checker loses lock after more than 256 errors in a window of 1,024 bits, and seeds again. -/
  | prbsLockLoss (checker : Nat) (bitErrors symbolErrors : Nat)
  /-- BLOCK_LOCK (R42): Proofing-coded block lock is declared after 64 consecutive valid sync headers. -/
  | blockLock
  /-- BLOCK_LOCK_LOSS (R42): Block lock is lost when 16 invalid headers fall within a window of 64. -/
  | blockLockLoss
  /-- EQ_TABLE_READ (R60): The module reads the 64-byte equaliser table from the carrier EEPROM over I2C. -/
  | eqTableRead (reply : Option (List Byte))
  /-- EQ_READ_RETRY (R60): The equaliser read is retried 10 ms after a NACK or a loss of arbitration, up to three attempts in all. -/
  | eqReadRetry
  /-- EQ_READ_DONE (R63): The equaliser read ends, the table is accepted or defaulted, and the lanes may train. -/
  | eqReadDone
  /-- CODEWORD_DECODED (R69): The LDPC decode of one crumb unit completes, with its outcome applied to the unit's blocks. -/
  | codewordDecoded (unit : Nat) (outcome : CwOutcome) (bip : BitVec 32)
  /-- SYNC_PATTERN_MATCH (R71): The hunter finds a sync pattern match at a position that no candidate predicts. -/
  | syncPatternMatch (pos : Nat)
  /-- SYNC_PREDICTED_CHECK (R73): The pattern is checked at a predicted position, for a candidate or while in sync. -/
  | syncPredictedCheck (pos : Nat) (found : Bool) (crust : Option CrustIn)
  /-- SYNC_ACQUIRED (R72): A candidate's crust passes CRC-32 at its third occurrence, and LINE_SYNC is set. -/
  | syncAcquired (pos : Nat) (crust : CrustIn)
  /-- CRUST_TAKEN (R80): A decoded crust is taken in order: header commands, then grant map, then messages. -/
  | crustTaken (crust : Option CrustIn) (stamp : StampIn)
  /-- CHANNEL_TAG_ITEM (R90): A downstream crumb item is delimited, checked and passed on or discarded. -/
  | channelTagItem (item : ItemIn)
  /-- REASSEMBLY_TIMEOUT (R93): A reassembly context left open for 4 line frames without a further fragment is discarded. -/
  | reassemblyTimeout (tag : Nat)
  /-- BURST_BUILD (R99): At the build point, 8 us before the burst, the upstream framer fixes the whole content of the burst. -/
  | burstBuild
  /-- BURST_PROFILE (R113): A crust message delivers a burst profile. -/
  | burstProfile (m : MsgIn)
  /-- DISCOVERY_PARAMS (R113): A crust message sets PRE_EQD and BACKOFF_MAX. -/
  | discoveryParams (m : MsgIn)
  /-- ASSIGN_ID (R104): A crust message carrying the module's serial assigns a terminal ID, and the module enters PF3. -/
  | assignId (m : MsgIn)
  /-- RANGING_TIME (R107): A crust message sets EqD, and the module enters PF4 or keeps PF5. -/
  | rangingTime (m : MsgIn)
  /-- AUTH_CHALLENGE (R116): A crust message carrying N_H leads the module to derive K_AUTH and queue AUTH_RESPONSE. -/
  | authChallenge (m : MsgIn)
  /-- AUTH_CONFIRM (R116): A crust message carrying T_H is compared, and the module enters PF5 or starts rejecting. -/
  | authConfirm (m : MsgIn)
  /-- EPOCH_KEY (R117): A crust message carrying a key epoch loads the first epoch or the standby epoch. -/
  | epochKey (m : MsgIn)
  /-- DEREGISTER (R104): A crust message deregisters the module, which returns to PF1. -/
  | deregister (m : MsgIn)
  /-- EMERGENCY_STOP (R104): A crust message puts the module in PF7 and records the stop. -/
  | emergencyStop (m : MsgIn)
  /-- EMERGENCY_RELEASE (R104): A crust message carrying the module's serial leaves PF7 and clears the record. -/
  | emergencyRelease (m : MsgIn)
  /-- PF2_DISCOVERY (R104): The module moves from PF1 to PF2 once a profile is held, LINE_TX is set, the root is locked and T_HOLDOFF is not running. -/
  | pf2Discovery
  /-- T_RANGE_EXPIRY (R105): T_RANGE expires in PF3, and the module returns to PF2. -/
  | tRangeExpiry
  /-- T_AUTH_EXPIRY (R105): T_AUTH expires in PF4 while not rejecting, and the module returns to PF2. -/
  | tAuthExpiry
  /-- T_REJECT_EXPIRY (R105): T_REJECT expires while rejecting, and the module returns to PF1. -/
  | tRejectExpiry
  /-- T_LOSS_EXPIRY (R105): T_LOSS expires in PF6, and the module returns to PF0. -/
  | tLossExpiry
  /-- T_HOLDOFF_EXPIRY (R105): T_HOLDOFF expires, which allows discovery again. -/
  | tHoldoffExpiry
  /-- LINE_STOP_TIMEOUT (R127): 1 ms after the line-stop command in PF5, the module enters PF0. -/
  | lineStopTimeout
  /-- ROGUE_AUTO_RELEASE (R124): Firmware releases the rogue latch itself once the release conditions hold. -/
  | rogueAutoRelease
  /-- KE_ANNOUNCE (R119): A crust KE_CMD ANNOUNCE arms the module for an epoch switch. -/
  | keAnnounce (frame : Nat) (epoch : Bool)
  /-- KE_COMMIT (R120): A crust KE_CMD COMMIT in frame F-2 records the commit. -/
  | keCommit (inFrame : Nat) (frame : Nat)
  /-- KE_CANCEL (R122): A crust KE_CMD CANCEL disarms every core and erases the standby keys. -/
  | keCancel
  /-- KE_ARMED (R119): The cipher cores finish deriving and validating the standby keys and are armed. -/
  | keArmed
  /-- KE_EVALUATION (R121): At the sync of F-1, the AND of the armed flags of the cores and the commit are evaluated. -/
  | keEvaluation (frame : Nat)
  /-- EPOCH_ACTIVATION (R120): At frame F, upstream encryption changes to the new epoch. -/
  | epochActivation (frame : Nat)
  /-- KE_RETIRE (R122): At F+16 the old epoch is retired and its keys are erased. -/
  | keRetire (frame : Nat)
  /-- PAGE_RUNS (R142): A downstream control message writes runs into the standby page. -/
  | pageRuns (item : CtrlIn)
  /-- PAGE_SEAL (R142): A downstream control message seals the standby pages, and each slice validates its page. -/
  | pageSeal (item : CtrlIn)
  /-- CIRCUIT_REFUSE (R141): A downstream control message in which the head end refuses a circuit request. -/
  | circuitRefuse (item : CtrlIn)
  /-- PS_ANNOUNCE (R143): A crust PS_CMD ANNOUNCE lets the slices arm for a page switch. -/
  | psAnnounce (frame : Nat) (page : Nat)
  /-- PS_COMMIT (R144): A crust PS_CMD COMMIT in F-2 records the commit and freezes the armed set. -/
  | psCommit (inFrame : Nat) (frame : Nat)
  /-- PS_CANCEL (R146): A crust PS_CMD CANCEL disarms the slices. -/
  | psCancel
  /-- PS_ARMED (R143): Every slice taking part becomes armed for the switch. -/
  | psArmed
  /-- PS_EVALUATION (R145): At the sync of F-1, the AND of the slices' armed flags and the commit decide the switch. -/
  | psEvaluation (frame : Nat)
  /-- PAGE_ACTIVATION (R144): At frame F the new page becomes active in both directions. -/
  | pageActivation (frame : Nat)
  /-- CIRCUIT_TAKE_POINT (R138): At T(M), each slice fills upstream frame M's circuit payload from the ingress queue. -/
  | circuitTakePoint (frame : Nat)
  /-- CIRCUIT_RELEASE_POINT (R138): At t_rx(N)+250 us, the frames completed in line frame N are placed in the circuit egress queues. -/
  | circuitReleasePoint (frame : Nat)
  /-- CIRCUIT_FRAME_EXTRACTED (R135): A circuit's content for one line frame is extracted, and its path overhead is checked. -/
  | circuitFrameExtracted (circuit frame : Nat) (content : List Byte)
  /-- GFP_FRAME_RECEIVED (R137): A GFP frame is delineated from a circuit stream and checked. -/
  | gfpFrameReceived (circuit : Nat)
  /-- DS_WINDOW_END (R149): At the end of a DS window, DS is declared or cleared against the thresholds. -/
  | dsWindowEnd (entity : Nat)
  /-- SECOND_BOUNDARY (R151): At each second of module time, hardware latches the block counts and firmware classifies the second. -/
  | secondBoundary
  /-- BIN_CLOSE (R152): A 15-minute or 24-hour performance bin closes and the bins move down. -/
  | binClose (day : Bool)
  /-- BIN_FINAL (R152): A closed bin stops being PROVISIONAL 10 s after its close. -/
  | binFinal
  /-- PARSE_DISPATCH (R156): A packet is dispatched to an idle engine and stamped with the rule version. -/
  | parseDispatch (side : Side) (engine : Nat)
  /-- ADD (R165): The parse instruction gRD := gRA + gRB. -/
  | pAdd (engine : Nat)
  /-- SUB (R165): The parse instruction gRD := gRA - gRB. -/
  | pSub (engine : Nat)
  /-- AND (R165): The parse instruction gRD := gRA AND gRB. -/
  | pAnd (engine : Nat)
  /-- OR (R165): The parse instruction gRD := gRA OR gRB. -/
  | pOr (engine : Nat)
  /-- XOR (R165): The parse instruction gRD := gRA XOR gRB. -/
  | pXor (engine : Nat)
  /-- SHL (R165): The parse instruction that shifts a register left by a register. -/
  | pShl (engine : Nat)
  /-- SHR (R165): The parse instruction that shifts a register right, logical, by a register. -/
  | pShr (engine : Nat)
  /-- MOV (R165): The parse instruction that copies a register. -/
  | pMov (engine : Nat)
  /-- ADDI (R165): The parse instruction that adds an immediate. -/
  | pAddi (engine : Nat)
  /-- ANDI (R165): The parse instruction that ANDs with an immediate. -/
  | pAndi (engine : Nat)
  /-- ORI (R165): The parse instruction that ORs with an immediate. -/
  | pOri (engine : Nat)
  /-- SHLI (R165): The parse instruction that shifts left by an immediate. -/
  | pShli (engine : Nat)
  /-- SHRI (R165): The parse instruction that shifts right by an immediate. -/
  | pShri (engine : Nat)
  /-- LDI (R165): The parse instruction that loads a zero-extended immediate. -/
  | pLdi (engine : Nat)
  /-- LDIH (R165): The parse instruction that shifts a register left by 18 and ORs in an immediate. -/
  | pLdih (engine : Nat)
  /-- EXT (R165): The parse instruction that extracts a bit field. -/
  | pExt (engine : Nat)
  /-- CMP (R165): The parse instruction that compares two registers and sets Z and LT. -/
  | pCmp (engine : Nat)
  /-- CMPI (R165): The parse instruction that compares a register with an immediate. -/
  | pCmpi (engine : Nat)
  /-- B (R165): The parse conditional branch. -/
  | pB (engine : Nat)
  /-- LD (R167): The parse window load from the cursor or from frame byte 0. -/
  | pLd (engine : Nat)
  /-- LDX (R165): The parse indexed load at CUR + gRA. -/
  | pLdx (engine : Nat)
  /-- ADV (R165): The parse instruction that advances the cursor by an immediate. -/
  | pAdv (engine : Nat)
  /-- ADVR (R165): The parse instruction that advances the cursor by a register. -/
  | pAdvr (engine : Nat)
  /-- HDR (R170): The parse instruction that records a header in the header list. -/
  | pHdr (engine : Nat)
  /-- LENCK (R169): The parse length check that may lower END. -/
  | pLenck (engine : Nat)
  /-- RNG (R166): The parse instruction that reads the hit mask of a comparator bank. -/
  | pRng (engine : Nat)
  /-- FFS (R165): The parse instruction that finds the lowest set bit. -/
  | pFfs (engine : Nat)
  /-- MATCH (R166): The parse instruction that reads the first hit of a pattern group, waiting for the results if needed. -/
  | pMatch (engine : Nat)
  /-- MATCH_RESULTS_READY (R166): The pattern matcher completes its scan of the packet, no later than 32 cycles after dispatch. -/
  | matchResultsReady (engine : Nat)
  /-- KEYW (R165): The parse instruction that writes a key word. -/
  | pKeyw (engine : Nat)
  /-- META (R168): The parse instruction that writes a meta field. -/
  | pMeta (engine : Nat)
  /-- DONE (R173): The parse instruction that ends the program with outcome LOOKUP, which the set flags may raise. -/
  | pDone (engine : Nat)
  /-- EXC (R173): The parse instruction that ends the program with outcome EXCEPTION and a reason. -/
  | pExc (engine : Nat)
  /-- DROP (R173): The parse instruction that ends the program with outcome DROP. -/
  | pDrop (engine : Nat)
  /-- PARSE_TRUNC_STEPS (R170): The step budget is spent, and the 97th instruction stops the program. -/
  | parseTruncSteps (engine : Nat)
  /-- FLOW_LOOKUP (R181): Flow lookup probes the table and the CAM for a packet's key and applies the context or the miss action. -/
  | flowLookup (side : Side)
  /-- AUTO_REHASH_START (R192): Firmware starts a rehash by itself when the CAM holds 192 entries or more. -/
  | autoRehashStart
  /-- REHASH_MIGRATE_PAIR (R193): Firmware migrates bucket pair P to the new seed and raises P. -/
  | rehashMigratePair
  /-- REHASH_RETRY (R195): A stalled rehash is retried every 10 ms. -/
  | rehashRetry
  /-- FLOW_TABLE_INIT (R202): After PD40 reaches ON from OFF, the slots, CAM and tag map are cleared, and FLOWTABLE is set. -/
  | flowTableInit
  /-- BATCH_TIMED_COMMIT (R198): A batch commit takes effect at the module time the host named. -/
  | batchTimedCommit
  /-- BUFFER_ENQUEUE (R211): A frame passes the buffer checks in order and is placed in its queue, or is discarded. -/
  | bufferEnqueue (side : Side)
  /-- SCHEDULER_SELECTION (R216): A port node selects the next frame by class precedence, deadline and fair queuing, and charges the shapers. -/
  | schedulerSelection (port : Nat)
  /-- CALENDAR_RELEASE (R222): The nodes of a fine slot are released from the calendar and become active. -/
  | calendarRelease (slot : Nat)
  /-- COARSE_SLOT_START (R222): When a coarse slot begins, its nodes move to the fine wheel. -/
  | coarseSlotStart (slot : Nat)
  /-- COARSE_REVOLUTION (R222): At each coarse revolution, parked nodes with an eligible time in span move into the wheels. -/
  | coarseRevolution
  /-- ADMISSION_DECISION (R241): A timed frame goes through the admission checks and the ledger, and is accepted with a promise or refused. -/
  | admissionDecision (side : Side)
  /-- TIMED_LATE_DROP (R253): A timed frame that has not begun by its promise plus TOLERANCE is discarded and reported EXPIRED. -/
  | timedLateDrop (queue : Nat)
  /-- CLIENT_FRAME_TRANSMITTED (R252): A frame's last FCS bit passes the client transmit point, and its outcome, stamp and sample are taken. -/
  | clientFrameTransmitted (port : Nat) (stamp : StampIn)
  /-- CONTRACT_ACCOUNT (R237): At the end of each upstream frame, the contract deficit of each contracted stream is updated. -/
  | contractAccount (frame : Nat)
  /-- CONTRACT_OFFER (R236): A downstream control message offering a contract, which firmware answers with CONTRACT_ACCEPT. -/
  | contractOffer (item : CtrlIn)
  /-- CONTRACT_END (R236): A downstream control message ending a contract. -/
  | contractEnd (item : CtrlIn)
  /-- CONTRACT_IN_FORCE (R236): At the start of upstream frame F_e, the contract comes into force. -/
  | contractInForce (gs : Nat) (frame : Nat)
  /-- COMBINED_CURVE_END (R234): MAX_AHEAD after a curve change takes effect, admission drops the combined curve. -/
  | combinedCurveEnd (port : Nat)
  /-- GATE_INTERVAL_END (R248): A gate-list entry's interval ends and the next entry's gates apply. -/
  | gateIntervalEnd (port : Nat)
  /-- GATE_LIST_CHANGED (R250): At the first cycle boundary at or after the change time, the standby gate list becomes active. -/
  | gateListChanged (port : Nat)
  /-- LINK_UP (R262): CLIENTn is set once every condition holds and no fault has been seen for 1 ms. -/
  | linkUp (port : Nat)
  /-- LINK_DOWN (R262): CLIENTn clears within 1 us of the loss of any condition. -/
  | linkDown (port : Nat) (cause : LinkCause)
  /-- CLIENT_FRAME_RECEIVED (R263): A client MAC checks a received frame, applies the filters and checksums, and passes it on. -/
  | clientFrameReceived (port : Nat) (frame : List Byte) (fecOk : Bool) (stamp : StampIn)
  /-- PAUSE_FRAME_RECEIVED (R271): A received PAUSE frame pauses assured and best-effort selection at the port. -/
  | pauseFrameReceived (port : Nat) (quanta : Nat)
  /-- PFC_FRAME_RECEIVED (R271): A received PFC frame pauses the named priorities. -/
  | pfcFrameReceived (port : Nat) (enables : BitVec 8) (quanta : List Nat)
  /-- PAUSE_TIMER_EXPIRY (R271): A class's pause timer runs out and the class is served again. -/
  | pauseTimerExpiry (port prio : Nat)
  /-- PAUSE_WATCHDOG (R273): After a pause has held unbroken for WATCHDOG, the port ignores it. -/
  | pauseWatchdog (port prio : Nat)
  /-- WATCHDOG_END (R273): 1 s after the watchdog fired, the port obeys pause again. -/
  | watchdogEnd (port prio : Nat)
  /-- PAUSE_REFRESH (R274): Pause quanta 0xFFFF are resent every 0x7FFF quanta while the count stays above XON_CELLS. -/
  | pauseRefresh (port prio : Nat)
  /-- TX_UNDERRUN (R275): A cut-through frame's next beat is missing, so it ends with an inverted FCS and the threshold rises. -/
  | txUnderrun (port : Nat)
  /-- TIME_SECOND_MEAN (R291): Each second of module time in LINE mode, firmware averages the samples, then steps or steers ADJ and moves the time state. -/
  | timeSecondMean
  /-- TIME_PARAMS (R289): A downstream control message carrying D_OFF, the asymmetry and the grandmaster data. -/
  | timeParams (item : CtrlIn)
  /-- TCXO_ERROR_UPDATE (R282): The measured TCXO error e is updated each second of lock. -/
  | tcxoErrorUpdate (ppt : Int)
  /-- AON_NS_UPDATE (R295): AON_NS, the module time per always-on period, is updated from the lock time. -/
  | aonNsUpdate (aonNs : Nat)
  /-- TIME_BRIDGED (R300): When PD07 returns to ON, module time resumes across the gap from the always-on counter. -/
  | timeBridged
  /-- TMU_NOW_READ (R284): A read of TMU_NOW latches FRAC into the requester's TMU_NOW_FRAC. -/
  | tmuNowRead (req : Req) (wide : Bool)
  /-- TSQ_HEAD_READ (R303): A read of TMU_TSQq_HEAD removes the oldest record and latches its time. -/
  | tsqHeadRead (req : Req) (queue : Nat) (wide : Bool)
  /-- TOUT_EDGE (R308): A timing output edge is output when module time reaches its edge time minus DELAY. -/
  | toutEdge (output : Nat)
  /-- PPS_IN_EDGE (R312): A PPS_IN rising edge is stamped and compared with the whole second. -/
  | ppsInEdge (stamp : StampIn)
  /-- PPS_IN_LOST (R312): No edge has been accepted for 1.5 s after an accepted edge. -/
  | ppsInLost
  /-- CPH_LOCK_READ (R326): A read of CPH_LOCK acquires a free lock or reports BUSY. -/
  | cphLockRead (req : Req) (wide : Bool)
  /-- CPH_LOCK_RELEASE (R325): The owner writes 1 to HELD and releases the lock. -/
  | cphLockRelease (req : Req)
  /-- LOCK_TIMEOUT (R327): The lock is released after LOCK_TIMEOUT with no access by the owner. -/
  | lockTimeout
  /-- CPH_SUBMIT (R329): GO queues the descriptor held in CPH_JOB0-7 together with the owner's port. -/
  | cphSubmit (req : Req)
  /-- LA_JOB_DISPATCH (R323): A look-aside job is given a core and captures its key, or fails its dispatch checks. -/
  | laJobDispatch (core : Nat)
  /-- LA_JOB_DONE (R333): A look-aside job completes, and its output, completion record and interrupt are written. -/
  | laJobDone (core : Nat) (mem : JobMem)
  /-- INLINE_UNIT_DISPATCH (R316): An inline unit takes an idle ON core, pre-empting look-aside work if needed. -/
  | inlineUnitDispatch (dir : Dir) (core : Nat)
  /-- INLINE_UNIT_DONE (R317): An inline GCM operation on a frame completes. -/
  | inlineUnitDone (core : Nat)
  /-- KEY_ERASE_DONE (R322): When the last user of a draining slot completes, the slot is zeroised and becomes EMPTY. -/
  | keyEraseDone (slot : Nat)
  /-- KEY_STORE_INIT (R315): After PD46 reaches ON from OFF, the key store zeroises every slot, and CIPHER is set. -/
  | keyStoreInit
  /-- METERING_PUSH (R339): The taps push per-object count deltas to the tin once per line frame. -/
  | meteringPush (acked : Bool)
  /-- METERING_LINK_UP (R338): The metering link comes up, and the taps clear their accumulators. -/
  | meteringLinkUp
  /-- TIN_TIME_DISCIPLINE (R341): Once per second, the tin steps, slews or trims tin time against module time. -/
  | tinTimeDiscipline
  /-- TIN_SECOND (R343): The tin classifies each second of each metered object. -/
  | tinSecond
  /-- TIN_BIN_CLOSE (R344): A 900 s tin bin closes at a multiple of 900 s of tin time. -/
  | tinBinClose
  /-- TIN_RECORD_WRITE (R344): 10 s after the bin closes, the tin writes one signed record per metered object. -/
  | tinRecordWrite
  /-- TIN_SNAPSHOT (R351): The tin snapshots its accumulators and tin time once per second. -/
  | tinSnapshot
  /-- TIN_WARN_SNAPSHOT (R351): While POWER_WARN holds, the tin snapshots every 1 ms after the first warning snapshot. -/
  | tinWarnSnapshot
  /-- STATUS (R349): The unauthenticated tin message that returns the tin's status. -/
  | tinStatus (viaFw : Bool)
  /-- READ_RECORDS (R349): The tin message that returns 1-3 records. -/
  | tinReadRecords (viaFw : Bool)
  /-- READ_LOG (R349): The tin message that returns 1-7 log entries. -/
  | tinReadLog (viaFw : Bool)
  /-- READ_MAP (R349): The tin message that returns the map in force and the pending map. -/
  | tinReadMap (viaFw : Bool)
  /-- PROVISION (R346): The authenticated tin message that installs the wrapped operator key. -/
  | tinProvision (viaFw : Bool)
  /-- SET_OBJECTS (R338): The authenticated tin message that sets the object map to apply at E. -/
  | tinSetObjects (viaFw : Bool)
  /-- MARK_COLLECTED (R349): The authenticated tin message that moves the collected mark up. -/
  | tinMarkCollected (viaFw : Bool)
  /-- REKEY (R346): The authenticated tin message that replaces K_OP and raises KEY_GEN. -/
  | tinRekey (viaFw : Bool)
  /-- CLOSE_FOR_REMOVAL (R353): The authenticated tin message that ends the open bins and enters CLOSED. -/
  | tinCloseForRemoval (viaFw : Bool)
  /-- MAP_APPLIED (R338): At effective time E, the pending map takes force and the tin enters METERING. -/
  | mapApplied
  /-- BAY_OPENED (R352): The bay switch latches an opening of the cover, and the tin logs it and flags the open bins. -/
  | bayOpened
  /-- BAY_CLOSED (R350): The tin bay cover is closed, and the tin logs it. -/
  | bayClosed
  /-- TAMPERED (R352): Opening the tin's case zeroises its keys and makes it TAMPERED permanently. -/
  | tinTampered
  /-- TIN_REMOVED (R353): The tin is removed, and TIN clears within 10 ms. -/
  | tinRemoved
  /-- TIN_INSERTED (R354): A tin is inserted and passes self-test, and TIN is set. -/
  | tinInserted (device : TinDevice)
  /-- POWER_RETURN (R351): The tin is powered again, restores its snapshot, and writes or continues the interrupted bin. -/
  | powerReturn
  /-- CONFIG_REQUEST (R359): A PCI Express configuration request is answered with retry status until the function is ready, then completed. -/
  | configRequest (op : ConfigOp)
  /-- FUNCTION_READY (R478): The PCI Express function becomes ready for configuration after PERST_N deassertion. -/
  | functionReady
  /-- PCIE_LINK_DOWN (R374): The PCI Express link goes down, or the host makes a hot reset or link disable. -/
  | pcieLinkDown
  /-- PCIE_LINK_UP (R374): The link retrains, and pending MSI-X messages of unmasked vectors are sent. -/
  | pcieLinkUp
  /-- MSIX_GAP_END (R371): A vector's GAP ends, and a merged pending message is sent. -/
  | msixGapEnd (vector : Nat)
  /-- MSIX_UNMASK (R371): Unmasking a vector or the function sends its pending message. -/
  | msixUnmask (target : Option Nat)
  /-- IRQ_TEST (R372): GO in IRQ_TEST raises the named vector once. -/
  | irqTest (req : Req) (value : Word)
  /-- REGISTER_WRITE (R4): A write to a register without a row of its own is stored under its access codes and the access rules. -/
  | registerWrite (req : Req) (bar : Nat) (offset : Nat) (value : Word)
  /-- UNSUPPORTED_ACCESS (R362): An access of bad size or alignment, a poisoned write, or an access to an unmapped offset is refused and logged. -/
  | unsupportedAccess (acc : Access)
  /-- OFF_DOMAIN_ACCESS (R464): An access to a block whose domain is not ON reads BAD0_00nn or is dropped, and is recorded. -/
  | offDomainAccess (acc : Access)
  /-- ACCESS_WAKE (R465): An access to a domain with wake-on-access enabled is held while the domain is started toward ON. -/
  | accessWake (acc : Access)
  /-- WAKE_TIMEOUT (R465): A domain not ON within 400 us lets the held access complete under the off-domain rule. -/
  | wakeTimeout (domain : Nat)
  /-- RING_ENABLE (R380): Writing ENABLE 1 takes a STOPPED ring to RUNNING with its indices at zero. -/
  | ringEnable (req : Req) (rx : Bool) (ring : Nat) (value : Word)
  /-- RING_DISABLE (R380): Writing ENABLE 0 takes a RUNNING ring to DRAINING, or an ERROR ring to STOPPED. -/
  | ringDisable (req : Req) (rx : Bool) (ring : Nat) (value : Word)
  /-- RING_DRAINED (R380): A draining ring's last frame is handled, and the ring becomes STOPPED. -/
  | ringDrained (rx : Bool) (ring : Nat)
  /-- TX_DESC_TAIL (R381): The doorbell that posts transmit descriptors. -/
  | txDescTail (ring : Nat) (value : Word)
  /-- TX_CPL_HEAD (R381): The doorbell that consumes transmit completions. -/
  | txCplHead (ring : Nat) (value : Word)
  /-- RX_DESC_TAIL (R381): The doorbell that posts receive descriptors. -/
  | rxDescTail (ring : Nat) (value : Word) (descs : List DescRead)
  /-- RX_CPL_HEAD (R381): The doorbell that consumes receive completions. -/
  | rxCplHead (ring : Nat) (value : Word)
  /-- HOST_TX_FETCH (R384): Host DMA fetches one whole frame from a ring in its round-robin turn and checks it. -/
  | hostTxFetch (ring : Nat) (descs : List DescRead)
  /-- RX_DELIVERED (R393): A receive frame is written into its reserved buffers, and its completion and writeback follow. -/
  | rxDelivered (ring : Nat)
  /-- RX_HOLD_DROP (R394): A head frame whose wait reaches HOLD is discarded. -/
  | rxHoldDrop (port : Nat) (source : HeadSrc)
  /-- MBX_DOORBELL (R406): RING on a channel posts the message and notifies the receiver. -/
  | mbxDoorbell (req : Req) (ch : Nat)
  /-- MBX_ACK (R404): The receiver's write of MBX_c_ACK acknowledges the posted message. -/
  | mbxAck (req : Req) (ch : Nat) (value : Word)
  /-- MBX_ZERO (R402): ZERO in MBX_c_CTRL sets all 64 payload words to zero. -/
  | mbxZero (req : Req) (ch : Nat)
  /-- MBX_CROSSED_WAIT (R411): The detector reports host-sent and host-received channels both POSTED for more than 1 ms. -/
  | mbxCrossedWait
  /-- MBX_OVERFLOW (R413): An F2H channel overflows, sets OVERFLOW once, and discards non-essential messages. -/
  | mbxOverflow (n : Nat)
  /-- IDENTITY (R427): The Ifeif command that returns the serial, GLB_FW and the starter version. -/
  | identity (ch : Nat)
  /-- ECHO (R427): The Ifeif command that repeats its arguments. -/
  | echo (ch : Nat)
  /-- EVENT_MASK (R425): The Ifeif command that masks or unmasks a non-essential event. -/
  | eventMask (ch : Nat)
  /-- STORE_READ (R427): The Ifeif command that reads the configuration store flags. -/
  | storeRead (ch : Nat)
  /-- DOMAIN_SET (R456): The Ifeif command that moves the named power domains to ON, RETAIN or OFF, all or none. -/
  | domainSet (ch : Nat)
  /-- DOMAIN_READ (R428): The Ifeif command that returns every domain's state. -/
  | domainRead (ch : Nat)
  /-- WAKE_ON_ACCESS (R465): The Ifeif command that enables or disables wake-on-access for domains. -/
  | wakeOnAccess (ch : Nat)
  /-- LINE_STATUS (R429): The Ifeif command that returns line receiver and proofing status. -/
  | lineStatus (ch : Nat)
  /-- LINE_STOP (R127): The Ifeif command that takes the module to PF0 and holds it there, queuing DEREGISTER_NOTICE in PF5. -/
  | lineStop (ch : Nat)
  /-- LINE_START (R429): The Ifeif command that clears the line-stop hold. -/
  | lineStart (ch : Nat)
  /-- ROGUE_RELEASE (R124): The Ifeif command that releases the rogue latch after recalibration. -/
  | rogueRelease (ch : Nat)
  /-- LINE_LOOPBACK (R57): The Ifeif command that starts or ends a line serial loopback. -/
  | lineLoopback (ch : Nat)
  /-- LINE_PRBS (R53): The Ifeif command that sets the line pattern generator and checker. -/
  | linePrbs (ch : Nat)
  /-- LINE_INJECT (R54): The Ifeif command that injects errors into the line pattern. -/
  | lineInject (ch : Nat)
  /-- LINE_PRBS_READ (R429): The Ifeif command that reads the line checker counts. -/
  | linePrbsRead (ch : Nat)
  /-- BIT_SLIP (R59): The Ifeif command that slips the block alignment by one bit during a proofing loopback. -/
  | bitSlip (ch : Nat)
  /-- AUTO_SLIP (R429): The Ifeif command that switches automatic slip on or off. -/
  | autoSlip (ch : Nat)
  /-- CIRCUIT_REQUEST (R430): The Ifeif command that queues a CIRCUIT_REQUEST to the head end. -/
  | circuitRequest (ch : Nat)
  /-- CIRCUIT_RELEASE (R430): The Ifeif command that queues a CIRCUIT_RELEASE to the head end. -/
  | circuitRelease (ch : Nat)
  /-- CIRCUIT_BIND (R139): The Ifeif command that binds a circuit to an egress and sets its queue depth. -/
  | circuitBind (ch : Nat)
  /-- CIRCUIT_ENABLE (R430): The Ifeif command that enables or disables a circuit. -/
  | circuitEnable (ch : Nat)
  /-- CIRCUIT_TRACE (R135): The Ifeif command that sets a circuit's sent or expected trace. -/
  | circuitTrace (ch : Nat)
  /-- DS_THRESHOLD (R149): The Ifeif command that sets an entity's DS threshold and starts a new window. -/
  | dsThreshold (ch : Nat)
  /-- CIRCUIT_STATUS (R430): The Ifeif command that returns a circuit's defects and state. -/
  | circuitStatus (ch : Nat)
  /-- PAGE_READ (R430): The Ifeif command that returns the page and arming state. -/
  | pageRead (ch : Nat)
  /-- BIN_READ (R153): The Ifeif command that returns a performance bin record. -/
  | binRead (ch : Nat)
  /-- BATCH_OPEN (R197): The Ifeif command that opens a BUILDING batch. -/
  | batchOpen (ch : Nat)
  /-- BATCH_PROGRAM (R431): The Ifeif command that writes program words into a batch. -/
  | batchProgram (ch : Nat)
  /-- BATCH_ENTRY (R431): The Ifeif command that writes a batch's entry table. -/
  | batchEntry (ch : Nat)
  /-- BATCH_RANGE (R431): The Ifeif command that writes range comparators into a batch. -/
  | batchRange (ch : Nat)
  /-- BATCH_PATTERN (R431): The Ifeif command that writes a pattern into a batch. -/
  | batchPattern (ch : Nat)
  /-- BATCH_ACTIONS (R431): The Ifeif command that writes a batch's flag actions and miss actions. -/
  | batchActions (ch : Nat)
  /-- BATCH_DROP (R431): The Ifeif command that makes a batch stop holding entries. -/
  | batchDrop (ch : Nat)
  /-- BATCH_COMMIT (R198): The Ifeif command that validates a batch and makes it CURRENT, at once or at a named time. -/
  | batchCommit (ch : Nat)
  /-- BATCH_ABANDON (R431): The Ifeif command that returns the BUILDING slot to FREE. -/
  | batchAbandon (ch : Nat)
  /-- VERSION_READ (R431): The Ifeif command that returns the version slots' states. -/
  | versionRead (ch : Nat)
  /-- FLOW_INSERT (R188): The Ifeif command that inserts a flow entry. -/
  | flowInsert (ch : Nat)
  /-- FLOW_MODIFY (R190): The Ifeif command that rewrites a flow's context. -/
  | flowModify (ch : Nat)
  /-- FLOW_DELETE (R190): The Ifeif command that deletes a flow entry. -/
  | flowDelete (ch : Nat)
  /-- FLOW_READ (R432): The Ifeif command that returns a flow's context and place. -/
  | flowRead (ch : Nat)
  /-- TAG_SET (R187): The Ifeif command that writes a tag-map entry. -/
  | tagSet (ch : Nat)
  /-- TAG_REMOVE (R187): The Ifeif command that removes a tag-map entry. -/
  | tagRemove (ch : Nat)
  /-- REHASH (R192): The Ifeif command that starts a rehash under a new seed. -/
  | rehash (ch : Nat)
  /-- AUTO_REHASH (R432): The Ifeif command that switches automatic rehash on or off. -/
  | autoRehash (ch : Nat)
  /-- FLOW_TABLE_READ (R432): The Ifeif command that returns the seed and rehash state. -/
  | flowTableRead (ch : Nat)
  /-- QUEUE_SET (R433): The Ifeif command that configures a queue. -/
  | queueSet (ch : Nat)
  /-- SUBSCRIBER_SET (R433): The Ifeif command that configures a subscriber node. -/
  | subscriberSet (ch : Nat)
  /-- SERVICE_SET (R433): The Ifeif command that configures a service node. -/
  | serviceSet (ch : Nat)
  /-- PORT_SHAPER_SET (R433): The Ifeif command that sets the shaper of port node 84 or 85. -/
  | portShaperSet (ch : Nat)
  /-- POLICER_SET (R227): The Ifeif command that configures a policer. -/
  | policerSet (ch : Nat)
  /-- RESET (R224): The Ifeif command that resets a queue, node or policer with scope BUCKET or NODE. -/
  | resetCmd (ch : Nat)
  /-- QUEUE_READ (R433): The Ifeif command that returns a queue's occupancy and bucket. -/
  | queueRead (ch : Nat)
  /-- TIMED_RESERVE (R433): The Ifeif command that sets TIMED_RESERVE. -/
  | timedReserve (ch : Nat)
  /-- ADMISSION_SET (R230): The Ifeif command that sets a port node's admission settings. -/
  | admissionSet (ch : Nat)
  /-- ADMISSION_READ (R434): The Ifeif command that returns a port node's curves and ledger. -/
  | admissionRead (ch : Nat)
  /-- CONTRACT_REQUEST (R434): The Ifeif command that queues a CONTRACT_REQUEST to the head end. -/
  | contractRequest (ch : Nat)
  /-- CONTRACT_RELEASE (R434): The Ifeif command that queues a CONTRACT_RELEASE to the head end. -/
  | contractRelease (ch : Nat)
  /-- CONTRACT_READ (R434): The Ifeif command that returns a grant stream's contract and account. -/
  | contractRead (ch : Nat)
  /-- GATE_WRITE (R434): The Ifeif command that writes entries to the standby gate list and cancels any pending change. -/
  | gateWrite (ch : Nat)
  /-- GATE_COMMIT (R250): The Ifeif command that gives the standby gate list its cycle, base time and change time. -/
  | gateCommit (ch : Nat)
  /-- HOST_SHARE (R434): The Ifeif command that sets a host group's PCI Express share, shaper and curve. -/
  | hostShare (ch : Nat)
  /-- PORT_MODE (R260): The Ifeif command that changes and stores the client port mode. -/
  | portMode (ch : Nat)
  /-- PORT_SET (R261): The Ifeif command that sets a port's settings. -/
  | portSet (ch : Nat)
  /-- PFC_PRIORITY (R272): The Ifeif command that sets a service node's PFC priority. -/
  | pfcPriority (ch : Nat)
  /-- FILTER_SET (R267): The Ifeif command that writes a receive filter. -/
  | filterSet (ch : Nat)
  /-- EQ_RELOAD (R60): The Ifeif command that reloads the equaliser table and retrains every port. -/
  | eqReload (ch : Nat)
  /-- PORT_INFO (R435): The Ifeif command that returns the equaliser source and lane entries. -/
  | portInfo (ch : Nat)
  /-- LANE_LOOPBACK (R58): The Ifeif command that sets a client lane loopback. -/
  | laneLoopback (ch : Nat)
  /-- LANE_PRBS (R435): The Ifeif command that sets a client lane's pattern generator, checker and injection. -/
  | lanePrbs (ch : Nat)
  /-- LANE_PRBS_READ (R435): The Ifeif command that reads a client lane checker. -/
  | lanePrbsRead (ch : Nat)
  /-- TIME_MODE (R287): The Ifeif command that sets the time mode LINE, HOST or FREE. -/
  | timeMode (ch : Nat)
  /-- TIME_STEP (R292): The Ifeif command that steps module time by a whole delta. -/
  | timeStep (ch : Nat)
  /-- TIME_ADJ (R283): The Ifeif command that writes the frequency adjustment ADJ. -/
  | timeAdj (ch : Nat)
  /-- TIME_LOCK_COMMAND (R287): The Ifeif TIME_LOCK command, which locks or unlocks in HOST mode with the host's error bound. -/
  | timeLockCommand (ch : Nat)
  /-- STEP_THRESHOLD (R292): The Ifeif command that sets STEP_THRESHOLD. -/
  | stepThreshold (ch : Nat)
  /-- ASYMMETRY (R290): The Ifeif command that sets the host's asymmetry coefficient. -/
  | asymmetry (ch : Nat)
  /-- TIME_RELEASE (R299): The Ifeif command that releases time. -/
  | timeRelease (ch : Nat)
  /-- TIME_CLAIM (R299): The Ifeif command that withdraws the release of time. -/
  | timeClaim (ch : Nat)
  /-- TOUT_SET (R307): The Ifeif command that configures a timing output. -/
  | toutSet (ch : Nat)
  /-- PPSIN_SET (R312): The Ifeif command that sets the PPS_IN delay and tolerance. -/
  | ppsinSet (ch : Nat)
  /-- BURST_STAMPS (R301): The Ifeif command that enables burst stamps per grant stream. -/
  | burstStamps (ch : Nat)
  /-- TIME_INFO (R436): The Ifeif command that returns the time parameters and discipline state. -/
  | timeInfo (ch : Nat)
  /-- KEY_LOAD (R321): The Ifeif command that loads a look-aside key and zeroises the channel. -/
  | keyLoad (ch : Nat)
  /-- KEY_ERASE (R322): The Ifeif command that makes a slot DRAINING for erasure. -/
  | keyErase (ch : Nat)
  /-- KEY_READ (R437): The Ifeif command that returns a slot's state, generation and usage. -/
  | keyRead (ch : Nat)
  /-- LINE_SLOTS (R319): The Ifeif command that sets LINE_SLOTS. -/
  | lineSlots (ch : Nat)
  /-- PROBE_SET (R491): The Ifeif command that points a probe counter at an event, optionally clearing it. -/
  | probeSet (ch : Nat)
  /-- COUNTER_READ (R490): The Ifeif command that returns an event counter. -/
  | counterRead (ch : Nat)
  /-- COUNTER_VALIDATE (R438): The Ifeif command that clears a counter's INVALID flag. -/
  | counterValidate (ch : Nat)
  /-- HIST_SET (R500): The Ifeif command that writes a histogram engine's configuration word. -/
  | histSet (ch : Nat)
  /-- HIST_CLEAR (R503): The Ifeif command that clears the named histogram engines. -/
  | histClear (ch : Nat)
  /-- PEEL_PERIOD (R494): The Ifeif command that sets the peel strobe period. -/
  | peelPeriod (ch : Nat)
  /-- TIN_RELAY (R439): The Ifeif command that relays a tin message on F2T0 and returns the tin's reply. -/
  | tinRelay (ch : Nat)
  /-- IMAGE_OPEN (R440): The Ifeif command that erases an image area for writing. -/
  | imageOpen (ch : Nat)
  /-- IMAGE_WRITE (R440): The Ifeif command that writes image data. -/
  | imageWrite (ch : Nat)
  /-- IMAGE_CLOSE (R440): The Ifeif command that verifies the written image. -/
  | imageClose (ch : Nat)
  /-- IMAGE_SELECT (R440): The Ifeif command that selects and stores the image area the starter tries first. -/
  | imageSelect (ch : Nat)
  /-- FIRMWARE_RESTART (R440): The Ifeif command that restarts firmware from the selected image. -/
  | firmwareRestart (ch : Nat)
  /-- PF_WARN (R447): The bus falls below 11.0 V, so PF_WARN_N is asserted and the dying-gasp actions start. -/
  | pfWarn
  /-- PF_RECOVER (R448): After 50 ms unbroken above 11.4 V, recovery is declared. -/
  | pfRecover
  /-- PF_RECOVERY_RESTART (R444): The bus at or below 11.4 V breaks the recovery window, which then restarts. -/
  | pfRecoveryRestart
  /-- SUPPLY_GOOD (R445): Supply good is declared, and bring-up begins. -/
  | supplyGood
  /-- RESET_THRESHOLD (R450): The bus falls below 9.5 V, and every domain is reset. -/
  | resetThreshold
  /-- BRING_UP_WAVE (R473): The next wave of domains starts once every domain of the previous wave is ON or has failed. -/
  | bringUpWave
  /-- DOMAIN_ON (R458): A domain completes its bring-up steps and reaches ON. -/
  | domainOn (domain : Nat)
  /-- DOMAIN_RETAIN (R460): A domain completes its down sequence into RETAIN. -/
  | domainRetain (domain : Nat)
  /-- DOMAIN_OFF (R460): A domain completes its down sequence into OFF. -/
  | domainOff (domain : Nat)
  /-- DOMAIN_FAIL (R459): A bring-up step times out, and the domain returns to OFF. -/
  | domainFail (domain : Nat)
  /-- STARTER_RUN (R470): The starter runs when PD02 reaches ON and tries the image areas in order. -/
  | starterRun
  /-- IMAGE_AREA_CHECKED (R470): The starter completes or abandons the verification of one image area. -/
  | imageAreaChecked (area : Nat) (signatureOk : Bool)
  /-- FIRMWARE_START (R475): Firmware takes its start steps and sets MAILBOX. -/
  | firmwareStart
  /-- PERST_N_ASSERT (R479): PERST_N assertion resets the PCI Express function, the IRQ_ and DMA_ blocks, and the rings. -/
  | perstNAssert
  /-- PERST_N_DEASSERT (R478): PERST_N deassertion starts link training and the readiness time. -/
  | perstNDeassert
  /-- HOST_RESET (R480): HOST_RST_N held for 10 us makes a host reset. -/
  | hostReset
  /-- MODULE_RESET (R481): HOST_RST_N held for 2 s resets the module. -/
  | moduleReset
  /-- THERMAL_RESET (R539): The junction reaches 125 C, and the module is reset and held until it cools. -/
  | thermalReset
  /-- PEEL_STROBE (R494): At each multiple of the period, every counter, probe and bin is latched for a dump. -/
  | peelStrobe
  /-- PEEL_DUMP_WRITTEN (R498): A dump is written to the ring, then PEEL_PROD, the writeback and vector 5 follow. -/
  | peelDumpWritten
  /-- PEEL_CONS_WRITE (R493): A host write of PEEL_CONS is taken if it lies in range. -/
  | peelConsWrite (req : Req) (value : Word)
  /-- PEEL_ENABLE (R493): Setting ENABLE in PEEL_CTRL zeroes PEEL_PROD and PEEL_CONS and starts dumps. -/
  | peelEnable (req : Req) (value : Word)
  /-- VIO_PRESENT (R510): VIO is declared present, and the outputs take their domain states. -/
  | vioPresent
  /-- VIO_ABSENT (R510): VIO is declared absent, and every carrier-facing output is isolated. -/
  | vioAbsent
  /-- TRST_N_ASSERT (R520): Assertion of TRST_N resets the TAP and releases a cipher lock held by JTAG. -/
  | trstNAssert
  /-- UART_RX_CHARACTER (R521): A character received on UART_RXD is discarded. -/
  | uartRxCharacter (c : Byte)
  /-- TIME_TICK (R281): On every time tick the time unit adds INC_EFF to module time, and scheduler time advances by the nominal period. -/
  | timeTick
  /-- ALWAYS_ON_COUNTER_TICK (R24): The 48-bit always-on counter in PD00 advances by one every 409.6 ns period of TCXO/64 and wraps after 2^48 periods. -/
  | alwaysOnCounterTick
  /-- RECOVERED_FREQUENCY_OUT_OF_RANGE (R22): The recovered downstream frequency moves outside plus or minus 20 ppm of nominal, and the root leaves it for the TCXO within 1 us. -/
  | recoveredFrequencyOutOfRange
  /-- BAD_INSTRUCTION (R171): A parse engine reaches a word that fails R164, such as opcode 0x00, and stops with BAD_INSTRUCTION. -/
  | badInstruction (engine : Nat)
  /-- HARDWARE_INITIALISATION_DONE (R474): After a domain reaches ON from OFF, a buffer quadrant, the scheduler, ring state, counter memory or slice page memory completes its hardware initialisation, and its ready bit rises. -/
  | hardwareInitialisationDone (block : InitBlock)
  /-- IMAGE_AREA_ERASED (R440): The flash erase of the image area opened by IMAGE_OPEN completes, and the PENDING result is sent. -/
  | imageAreaErased
  /-- IMAGE_VERIFICATION_DONE (R440): Verification of the closed image completes, with DONE or SIGNATURE_FAIL and the area marked invalid. -/
  | imageVerificationDone (signatureOk : Bool)
  /-- EPOCH_KEY_DERIVED (R117): The derivations of the first EPOCH_KEY taken in PF5 complete, and the epoch comes into force for both directions. -/
  | epochKeyDerived
  /-- RECOVERY_WINDOW_START (R444): While the warning holds, the bus rises above 11.4 V, the recovery window starts, and RECOVERING is set. -/
  | recoveryWindowStart
  deriving DecidableEq, Repr

end Sys2Proof
end

