-- ==== Sys2Proof/Config.lean ====
section
/-! DEFINITION. What the spec leaves open: values with no body, so that nothing can be proved of them. -/

namespace Sys2Proof.Config

/-- The n-th draw of the hardware random source: the skips of R109, N_T of R116, the seeds of R180 and R192.
DESIGN CHOICE (log 3): a free value. -/
opaque hwRandom : Nat → Word

/-- The mean bus voltage in mV that PWR_STATUS returns (R452), by supply good and completed interval of 100 us. A free
value (log 3). -/
opaque busMv : Nat → Nat → BitVec 16

/-- The mean load in 0.1 W that PWR_STATUS returns (R452), by supply good and completed interval of 100 ms. A free value
(log 3). -/
opaque loadDw : Nat → Nat → BitVec 16

/-- A doubleword of configuration space that R358 does not give (the identifiers of Flagrim, the base specification's
own registers), by its offset. A free value (log 3). -/
opaque configSpace : Nat → BitVec 32

/-- VERSION in the header of an image area whose content the module has held since manufacture (R469), by area. A free
value (log 3). -/
opaque imageVersion : Nat → BitVec 32

/-- The input queue depth of an interface, by its key (R17), which the spec does not give. A free value (log 3). -/
opaque queueDepth : Nat → Nat

/-- Word 0 of a notice of the tin on T2H1, by its kind: 0 overwriting, 1 nearly full (R347), whose layout the spec does not
give. A free value (log 3). -/
opaque tinNotice : Nat → Word

end Sys2Proof.Config
end

