-- ==== Sys2Proof/Machine/State.lean ====
section
/-! DEFINITION. The state of the module as plain data, block by block, and the machine right after reset.
Every field's docstring names its width, the rule that names it and its reset value. -/

namespace Sys2Proof.Machine

/-- A table by number: strictly rising keys, no entry equal to what an unlisted key reads as. -/
abbrev Map (α : Type) := List (Nat × α)

/-- Why a step stops with a fault: the module has no step that does. -/
inductive Fault where
  /-- Never raised: the spec gives every command an effect (safe). -/
  | none
  deriving DecidableEq, Repr

/-- Why a step is refused. -/
inductive Refusal where
  /-- Raised by an arm of Dispatch.lean whose command has no meaning yet (safe). -/
  | notModelled (mnemonic : String)
  deriving DecidableEq, Repr

/-! ### Supply, domains, contacts (R442-R467, R506-R524) -/

/-- The states of a power domain (R454), and the moves between them. -/
inductive DomSt where
  | on | retain | off
  | toOn | toRetain | toOff
  deriving DecidableEq, Repr

/-- One power domain (R454-R461). -/
structure Dom where
  /-- R454; reset ON for PD00 and PD01, OFF for the others (R451). -/
  st : DomSt
  /-- The next move to ON counts as a return from OFF (R458, R461); reset true. -/
  fromOff : Bool
  /-- The domain has been ON since supply good (R495); reset false. -/
  everOn : Bool
  deriving DecidableEq, Repr

/-- A DOMAIN_SET in progress (R428, R456). -/
structure DomainSet where
  /-- Channel of the command, R456. -/
  ch : Nat
  /-- SEQ of the command, 16 bits, R456. -/
  seq : Nat
  /-- Domains it names, 50 bits, R428. -/
  domains : BitVec 64
  /-- Target: 0 ON, 1 RETAIN, 2 OFF, R428. -/
  target : Nat
  /-- Domains that failed on the way, 50 bits, R459. -/
  failed : BitVec 64
  /-- Its result has been queued, and only PD02 and what PD02 keeps up have still to move. -/
  sent : Bool
  deriving DecidableEq, Repr

/-- Supply, power domains and contacts. -/
structure Pwr where
  /-- Supply good declared, 1 bit, R445, R452; reset false (held in reset until SUPPLY_GOOD). -/
  supplyGood : Bool
  /-- Power-fail warning held, 1 bit, R447, R452; reset false. -/
  warn : Bool
  /-- Recovery window running, 1 bit, R444, R452; reset false. -/
  recovering : Bool
  /-- PWR_EVENTS, 2 bits, R453; reset 0. -/
  events : BitVec 64
  /-- The fifty domains, R455; reset PD00 and PD01 ON, the others OFF. -/
  doms : Map Dom
  /-- PWR_WAKE, 50 bits, R451; reset 0. -/
  wake : BitVec 64
  /-- PWR_COUNT, 2 x 32 bits, R451; reset 0. -/
  warnings : BitVec 32
  recoveries : BitVec 32
  /-- Always-on counter, 48 bits, R24; reset 0. -/
  aon : BitVec 48
  /-- Accesses held by a wake, with the domain each waits for, newest first, R465; reset empty. -/
  held : List (Nat × Access)
  /-- Domains a wake is starting, R465; reset empty. -/
  waking : List Nat
  /-- The DOMAIN_SETs in progress, R456; reset empty. -/
  sets : List DomainSet
  /-- Bring-up wave now running, 1-12, 13 when the last is complete, 0 before, R473; reset 0. -/
  wave : Nat
  /-- VIO declared present, R510; reset false. -/
  vio : Bool
  /-- PERST_N asserted at the contact, R479, R513; reset true (DESIGN CHOICE: pull-down). -/
  perst : Bool
  /-- TX_DISABLE asserted, R50, R518; reset false. -/
  txDisable : Bool
  /-- Supply goods declared so far (the model's own: it tells the free values of one supply good from those of the next);
  reset 0. -/
  boots : Nat
  deriving DecidableEq, Repr

/-! ### Registers of GLB_ and IRQ_, PCI Express (R357-R374) -/

/-- GLB_ registers (R365). -/
structure Glb where
  /-- GLB_READY_CHANGED, 26 bits, R365; reset 0. -/
  changed : BitVec 64
  /-- GLB_READY_MASK, 26 bits, R365; reset 0x3FF_FFFF. -/
  mask : BitVec 64
  /-- GLB_ERROR, 4 bits, R368; reset 0. -/
  error : BitVec 64
  /-- GLB_ACCESS_ERR, 64 bits, R369; reset 0. -/
  accessErr : BitVec 64
  /-- GLB_OFF_DOMAIN_ACCESS, 64 bits, R369; reset 0. -/
  offDomain : BitVec 64
  /-- GLB_SCRATCH, 64 bits, R365; reset 0. -/
  scratch : BitVec 64
  deriving DecidableEq, Repr

/-- One MSI-X vector: its table entry, GAP and pending bit (R361, R371, R372). -/
structure Vec where
  /-- Message address, 64 bits, R361; reset 0. -/
  addr : BitVec 64
  /-- Message data, 32 bits, R361; reset 0. -/
  data : BitVec 32
  /-- Entry masked, R371; reset true (PCI Express base specification). -/
  masked : Bool
  /-- IRQ_MODv GAP, 14 bits, R372; reset 0. -/
  gap : Nat
  /-- GAP since the last message is running, R371; reset false. -/
  gapRunning : Bool
  /-- Pending bit, R371; reset false. -/
  pending : Bool
  deriving DecidableEq, Repr

/-- The PCI Express function and its interrupts. -/
structure Pcie where
  /-- Link up, R374; reset false. -/
  linkUp : Bool
  /-- Function ready for configuration, R359, R478; reset false. -/
  ready : Bool
  /-- D3hot, R360; reset false. -/
  d3hot : Bool
  /-- MSI-X Enable, R371; reset false. -/
  msixEnable : Bool
  /-- MSI-X Function Mask, R371; reset false. -/
  funcMask : Bool
  /-- Vectors 0-2047, R370-R372; reset each Vec.default. -/
  vecs : Map Vec
  /-- IRQ_TEST VECTOR, 11 bits, R372; reset 0. -/
  testVector : Nat
  deriving DecidableEq, Repr

/-! ### Mailboxes and Ifeif (R400-R441) -/

/-- STATE of a channel (R403). -/
inductive ChanSt where
  | empty | posted | acked
  deriving DecidableEq, Repr

/-- One mailbox channel (R402-R404). -/
structure Chan where
  /-- 64 payload words of 64 bits, R402; reset 0. -/
  words : Map Word
  /-- STATE, 2 bits, R403; reset EMPTY. -/
  st : ChanSt
  /-- WAKING, R403; reset false. -/
  waking : Bool
  /-- POSTED_SEQ, 16 bits, R403; reset 0. -/
  postedSeq : Nat
  /-- Always-on count at the doorbell, for AGE, R403; reset 0. -/
  postedAt : BitVec 48
  /-- ACK: VALID, SEQ, NOTE, CODE, R404; reset 0. -/
  ackValid : Bool
  ackSeq : Nat
  ackNote : Nat
  ackCode : Nat
  deriving DecidableEq, Repr

/-- A message that firmware holds for an F2H channel (R412, R422). -/
structure OutMsg where
  /-- Its words, R422. -/
  words : List Word
  /-- Essential, R412. -/
  essential : Bool
  /-- A PENDING result, R412. -/
  isResult : Bool
  deriving DecidableEq, Repr

/-- What a PENDING command still waits for (R420-R422). -/
inductive Wait where
  | result
  | domainSet
  | lineStop
  | rogueRelease
  | batchOpen
  | batchCommit
  | rehash
  | portMode
  | eqReload
  | keyErase (slot : Nat)
  | tinRelay
  | imageOpen (length : Nat)
  | imageClose
  /-- The flash: the command proceeds after recovery (R449). -/
  | flash (ws : List Word)
  deriving DecidableEq, Repr

/-- A PENDING command (R409): channel, SEQ, opcode, and what it waits for. -/
structure Pend where
  /-- Channel 0-7, R409. -/
  ch : Nat
  /-- SEQ, 16 bits, R409. -/
  seq : Nat
  /-- Opcode, 16 bits, R417. -/
  opcode : Nat
  /-- What it waits for, R420. -/
  wait : Wait
  deriving DecidableEq, Repr

/-- Mailboxes, and what firmware holds of the command set. -/
structure Mbx where
  /-- The 21 channels, R400; reset each EMPTY. -/
  chans : Map Chan
  /-- MBX_EVENTS, 13 bits, R405; reset 0. -/
  events : BitVec 64
  /-- MBX_CROSSED, 64 bits, R411; reset 0. -/
  crossed : BitVec 64
  /-- MBX_DISCARDn, 8 x 32 bits, R402; reset 0. -/
  discards : Map Nat
  /-- Outbound messages per F2H channel 0-7, oldest first, R412; reset empty. -/
  out : Map (List OutMsg)
  /-- Overflow of F2Hn running, R413; reset empty. -/
  overflow : List Nat
  /-- F2Hn POSTED for more than 100 ms, R413; reset empty. -/
  stalled : List Nat
  /-- PENDING commands, R409; reset empty. -/
  pend : List Pend
  /-- Event sequence, 16 bits, R423; reset 0. -/
  evSeq : BitVec 16
  /-- Masked event numbers, R425; reset empty. -/
  maskedEv : List Nat
  deriving DecidableEq, Repr

/-! ### Firmware, flash, identity (R468-R477, R110) -/

/-- An image area of the flash (R468, R469): the bytes written (0xFF where none), and what is known of it. -/
structure Area where
  /-- The bytes written, by offset, R468; reset none. -/
  bytes : Map Byte
  /-- Erased and written through group 0x0E since manufacture, so that its content is known; reset false (DESIGN CHOICE). -/
  known : Bool
  /-- The last IMAGE_CLOSE returned DONE and it has not been opened since, R440; reset false. -/
  verified : Bool
  /-- It passed R470 at this start, R440; reset false. -/
  passed : Bool
  /-- Marked invalid by IMAGE_CLOSE, R440; reset false. -/
  invalid : Bool
  deriving DecidableEq, Repr

/-- The configuration store (R449, R450). -/
structure Store where
  /-- R260; factory setting 1. -/
  portMode : Nat
  /-- R126; reset false. -/
  emergency : Bool
  /-- R127; reset false. -/
  lineStop : Bool
  /-- R470; area 0 until a choice is stored. -/
  image : Nat
  /-- Sequence number of the valid copy, 32 bits, R449; reset 0 (DESIGN CHOICE). -/
  seq : BitVec 32
  deriving DecidableEq, Repr

/-- The management processor. -/
structure Fw where
  /-- FIRMWARE, R366; reset false. -/
  running : Bool
  /-- MAILBOX, R366; reset false. -/
  mailbox : Bool
  /-- Starter in recovery, R471; reset false. -/
  recovery : Bool
  /-- Areas the starter has still to try, the first under check, R470; reset none (not running). -/
  starter : Option (List Nat)
  /-- The area that the starter tries first at its next run, R470; reset 0. -/
  first : Nat
  /-- GLB_FW VERSION, IMAGE, FALLBACK, R365; reset 0. -/
  version : BitVec 32
  image : Nat
  fallback : Bool
  /-- An image has run since supply good (a later start is a firmware restart), R470; reset false. -/
  started : Bool
  /-- The two-bit error that caused the restart lay in the bins region, R152, R423; reset false. -/
  binsLost : Bool
  /-- Image open for writing: its length, its area, erased yet, R440; reset none. -/
  opened : Option (Nat × Nat × Bool)
  /-- Image close under verification, R440; reset false. -/
  closing : Bool
  /-- Image area 0, R468; reset unknown content. -/
  area0 : Area
  /-- Image area 1, R468; reset unknown content. -/
  area1 : Area
  /-- The configuration store in the flash, R449, R450. -/
  store : Store
  /-- What firmware has to have in the store; the flash follows while no warning holds, R449. -/
  want : Store
  /-- Device serial, 64 bits, OTP, R110; reset DESIGN CHOICE 0. -/
  serial : BitVec 64
  /-- K_ID, 256 bits, OTP, R110; reset DESIGN CHOICE zeros. -/
  kId : List Byte
  /-- Starter version, 32 bits, R427; reset DESIGN CHOICE 0. -/
  starterVersion : BitVec 32
  deriving DecidableEq, Repr

/-! ### Clocks, line optics, test loops (R22-R25, R33-R64) -/

/-- A pattern checker (R55). -/
structure Checker where
  /-- Locked, R55; reset false. -/
  locked : Bool
  /-- Inverted pattern, R55; reset false. -/
  inverted : Bool
  /-- Bit errors, 48 bits saturating, R55; reset 0. -/
  bitErrors : Nat
  /-- Symbol errors, 48 bits saturating, R55; reset 0. -/
  symErrors : Nat
  /-- Lock losses, 48 bits saturating, R55; reset 0. -/
  losses : Nat
  deriving DecidableEq, Repr

/-- A pattern generator and checker with their settings (R53-R55): pattern codes of R429, inject mode and parameter. -/
structure Prbs where
  /-- Generator pattern code, R429; reset 0 OFF. -/
  gen : Nat
  /-- Checker pattern code, R429; reset 0 OFF. -/
  chk : Nat
  /-- Generator precoding, R53; reset false. -/
  genPre : Bool
  /-- Checker precoding, R53; reset false. -/
  chkPre : Bool
  /-- Inject mode 0-2, 3 none, R54; reset 3. -/
  inject : Nat
  /-- Inject parameter, 16 bits, R54; reset 0. -/
  injectArg : Nat
  /-- The checker, R55. -/
  checker : Checker
  deriving DecidableEq, Repr

/-- One client lane: loopback 0 none, 1 near-end, 2 far-end (R58), and its pattern unit. -/
structure Lane where
  /-- Loopback: 0 none, 1 near-end, 2 far-end, R58; reset 0. -/
  loop : Nat
  /-- Its pattern unit, R53. -/
  prbs : Prbs
  deriving DecidableEq, Repr

/-- A lane entry of the equaliser table, as its 8 bytes (R62). -/
abbrev LaneEq := List Byte

/-- Line receiver, transmitter optics, test loops, equaliser read. -/
structure Line where
  /-- Root locked to the recovered clock, R22; reset false (TCXO). -/
  rootLocked : Bool
  /-- Loss of signal declared, R36; reset true (DESIGN CHOICE). -/
  los : Bool
  /-- Receiver calibration complete, R44; reset false. -/
  calibrated : Bool
  /-- CTLE setting, 4 bits, R44; reset 8 (DESIGN CHOICE: R44's setting without signal). -/
  ctle : Nat
  /-- Figure of merit of the last window, 8 bits, R43; reset 0 (DESIGN CHOICE). -/
  fom : Nat
  /-- FFE taps c(-4)..c(+19) and the DFE tap, signed 16 bits, R45, R429; reset 0 (DESIGN CHOICE). -/
  taps : List Int
  /-- The taps before the last window, R45; reset 0 (DESIGN CHOICE). -/
  prevTaps : List Int
  /-- The preset taps, R45; reset 0 (DESIGN CHOICE). -/
  preset : List Int
  /-- Step size 2^-n, n 10 in acquisition, 14 in tracking, at most 18, R45; reset 10. -/
  stepExp : Nat
  /-- Tracking rather than acquisition, R45; reset false. -/
  tracking : Bool
  /-- Consecutive reverts, R45; reset 0. -/
  reverts : Nat
  /-- LINE_RX, R46; reset false. During a loopback it stands for LOOP_RX (R57). -/
  lineRx : Bool
  /-- Laser calibration complete, R47; reset false. -/
  laserCal : Bool
  /-- Rogue cut latched, R49; reset false. -/
  rogueCut : Bool
  /-- Laser calibration run again since the cut, R124; reset false. -/
  recalSinceCut : Bool
  /-- Always-on counts of the cuts of the last 600 s, newest first, R124; reset empty. -/
  cuts : List (BitVec 48)
  /-- The host holds the release of the latch (third cut within 600 s), R124; reset false. -/
  hostRelease : Bool
  /-- Laser enable asserted, R48; reset false. -/
  laserOn : Bool
  /-- Module time of the last TX_DISABLE release, R50; reset none. -/
  txReleased : Option Nat
  /-- Line serial loopback: coding proofing, content idle frames, R57; reset none. -/
  loop : Option (Bool × Bool)
  /-- Line pattern unit, R53-R55; reset all off. -/
  prbs : Prbs
  /-- Proofing-coded block lock, R42; reset false. -/
  blockLock : Bool
  /-- Automatic slip on, R42, R429; reset true. -/
  autoSlip : Bool
  /-- Block alignment 0-65, R59; reset 0. -/
  slipPos : Nat
  /-- Valid sync headers since the last slip, R59; reset 0. -/
  validHdrs : Nat
  /-- Client lanes 0-3, R56-R58; reset none. -/
  lanes : Map Lane
  /-- Equaliser read attempts made, R60; reset 0. -/
  eqTries : Nat
  /-- Read in progress or to be retried, R60; reset false. -/
  eqReading : Bool
  /-- Bytes of the last read, none on a NACK, R60; reset none. -/
  eqRaw : Option (List Byte)
  /-- Table applied or defaulted, lanes may train, R60; reset false. -/
  eqReady : Bool
  /-- Source: true = EEPROM, R63; reset false. -/
  eqFromRom : Bool
  /-- CARRIER_ID, 64 bits, R61; reset 0. -/
  carrierId : BitVec 64
  /-- Lane entries in use, R62, R63; reset the default setting. -/
  eqEntries : List LaneEq
  deriving DecidableEq, Repr

/-! ### Framers and proofing (R65-R128) -/

/-- A reassembly context (R93). -/
structure Reasm where
  /-- Class of its items, R87. -/
  cls : Cls
  /-- Epoch bit of its items, R86. -/
  epoch : Bool
  /-- Content so far, R93. -/
  bytes : List Byte
  /-- Line frames since the last fragment. -/
  idle : Nat
  /-- Frame number and offset of the first item, for the IV (R118), and its unit (R298). -/
  frame : Nat
  offset : Nat
  unit : Nat
  /-- Arrival stamp of its first fragment, R298. -/
  arrival : Nat
  arrivalFrac : Nat
  /-- The rest of the frame is to be discarded. -/
  dead : Bool
  /-- Module time was stepped or bridged since its arrival (R499). -/
  timeJump : Bool
  deriving DecidableEq, Repr

/-- A frame of the line that waits for an inline core, or for the cipher's bypass (R13, R91, R316): its packet, its tag,
its class, the epoch bit of its items, the line-frame number and the offset that its IV takes (R118), its content as
received and its GCM tag. -/
structure LineFrame where
  /-- The packet it becomes. -/
  packet : Packet
  /-- Channel tag, 20 bits, R86. -/
  tag : Nat
  /-- Epoch bit, R86. -/
  epoch : Bool
  /-- Line frame of its first item, 32 bits, R118. -/
  frame : Nat
  /-- Offset of its first item in units of 8 bytes, R118. -/
  offset : Nat
  /-- Ciphertext or plaintext. -/
  content : List Byte
  /-- GCM tag, 16 bytes, or none, R88. -/
  gcmTag : List Byte
  deriving DecidableEq, Repr

/-- Downstream framer and crumb deframer. -/
structure Frm where
  /-- LINE_SYNC, R72, R73; reset false. During a loopback it stands for LOOP_SYNC. -/
  lineSync : Bool
  /-- Sync candidates: symbol position of the last occurrence, count, R71; reset empty. -/
  cands : List (Nat × Nat)
  /-- Symbol position of the last sync, R73; reset 0. -/
  syncPos : Nat
  /-- Consecutive misses, R73; reset 0. -/
  misses : Nat
  /-- Frame number of the line frame now received, 32 bits, R73; reset 0. -/
  frame : BitVec 32
  /-- A frame number has been taken since sync, R72; reset false. -/
  haveFrame : Bool
  /-- The crust of this line frame was decoded, R76; reset false. -/
  crustOk : Bool
  /-- BIP-32 gathered over the crumb of this line frame, R79; reset 0. -/
  bip : BitVec 32
  /-- Units of this line frame decoded so far, 0-1249, R79; reset 0. -/
  units : Nat
  /-- Circuit region that governs this line frame, 17 bits, R85; reset 0. -/
  region : Nat
  /-- Stamp of t_rx of this line frame, R106; reset 0. -/
  rxNs : Nat
  rxFrac : Nat
  /-- Packet delineation held, R90; reset false. -/
  delineated : Bool
  /-- A header has checked while hunting, R90; reset false. -/
  firstHdr : Bool
  /-- Offset in 8-byte units of the next header in the packet region, R118; reset 0. -/
  offset : Nat
  /-- Tag of the frame being assembled, R90; reset none. -/
  openTag : Option Nat
  /-- Reassembly contexts by tag, R93; reset empty. -/
  reasm : Map Reasm
  /-- The crust buffers hold a two-bit error, R27; reset false. -/
  crustBad : Bool
  /-- Items decrypted or clear that wait for parse or firmware, line side, R13; reset empty. -/
  toCipher : List LineFrame
  deriving DecidableEq, Repr

/-- A burst profile (R113). -/
structure Profile where
  /-- Preamble length, 4-64, R113. -/
  n : Nat
  /-- Preamble levels, 64 bits, R113. -/
  levels : BitVec 64
  deriving DecidableEq, Repr

/-- An upstream message waiting (R114). -/
structure UpMsg where
  /-- TYPE, R114. -/
  type : Nat
  /-- SEQ, 8 bits, R114. -/
  seq : Nat
  /-- Payload, 44 bytes, R111. -/
  payload : List Byte
  deriving DecidableEq, Repr

/-- Proofing states (R102). -/
inductive PfSt where
  | pf0 | pf1 | pf2 | pf3 | pf4 | pf5 | pf6 | pf7
  deriving DecidableEq, Repr

/-- Proofing, ranging and registration. -/
structure Pf where
  /-- R102; reset PF0. -/
  st : PfSt
  /-- PF4, rejecting, R104; reset false. -/
  rejecting : Bool
  /-- Terminal ID, 8 bits, R104; reset 0. -/
  tid : Nat
  /-- PRE_EQD and EqD in symbols, R107, R113; reset 0. -/
  preEqd : Nat
  eqd : Nat
  /-- BACKOFF_MAX, R113; reset 7. -/
  backoffMax : Nat
  /-- Discovery grants still to skip, R109; reset 0. -/
  skip : Nat
  /-- Burst profiles 0-3 held, R113; reset empty. -/
  profiles : Map Profile
  /-- Timers running, R105; reset false. -/
  tRange : Bool
  tAuth : Bool
  tReject : Bool
  tLoss : Bool
  tHoldoff : Bool
  /-- N_H and N_T of the exchange, R116; reset empty. -/
  nH : List Byte
  nT : List Byte
  /-- AUTH_RESPONSE has been sent, R116; reset false. -/
  responded : Bool
  /-- Messages taken in the last 16 line frames: TYPE, ADDRESS, TERMINAL_ID, SEQ, line frames ago, R112; reset empty. -/
  recent : List (Nat × Nat × Nat × Nat × Nat)
  /-- Next own SEQ, 8 bits, R114; reset 0 (DESIGN CHOICE). -/
  upSeq : Nat
  /-- Waiting upstream messages, oldest first, at most 8, R114; reset empty. -/
  upQ : List UpMsg
  /-- Line held by the line-stop command, R127; reset false (from the store at start). -/
  held : Bool
  /-- Line stop waits for its 1 ms in PF5, R127; reset false. -/
  stopping : Bool
  /-- Bursts that still carry POWER_RESTORED, R123; reset 0. -/
  restored : Nat
  /-- Frame numbers at warning and at recovery, R114; reset 0. -/
  warnFrame : BitVec 32
  recFrame : BitVec 32
  /-- The proofing state machine has been started by firmware, R475; reset false. -/
  started : Bool
  deriving DecidableEq, Repr

/-- An epoch (R115, R117): its number and its epoch bit. Its K_E and line keys are in the key store (R319). -/
structure EpochKeys where
  /-- Epoch number E, R117. -/
  epoch : Nat
  /-- Epoch bit, R117. -/
  bit : Bool
  deriving DecidableEq, Repr

/-- The key-epoch switch (R117-R122). -/
structure Ke where
  /-- Epoch in force, R117; reset none. -/
  current : Option EpochKeys
  /-- Standby epoch, R117; reset none. -/
  standby : Option EpochKeys
  /-- Old epoch kept until F + 16, R120; reset none. -/
  old : Option EpochKeys
  /-- First EPOCH_KEY whose derivations run, R117; reset none. -/
  first : Option EpochKeys
  /-- Largest E taken in this registration, R117; reset none. -/
  lastE : Option Nat
  /-- ANNOUNCE held: KE_FRAME and epoch bit, R119; reset none. -/
  announce : Option (Nat × Bool)
  /-- Cores armed, bit per core, R119; reset 0. -/
  armed : BitVec 8
  /-- COMMIT taken for this KE_FRAME, R120; reset none. -/
  commit : Option Nat
  /-- The switch has been decided at F - 1 and acts at this F, R121; reset none. -/
  switchAt : Option Nat
  /-- Frame at which the old epoch retires, R120; reset none. -/
  retireAt : Option Nat
  /-- Upstream frame since which the epoch is in force, R118; reset 0. -/
  since : Nat
  /-- The epoch in force has reached the end of its lifetime, R118; reset false. -/
  expired : Bool
  deriving DecidableEq, Repr

/-- A grant taken (R81-R83), for upstream frame `frame`. -/
structure Grant where
  /-- Upstream frame, 32 bits, R81. -/
  frame : Nat
  /-- Grant stream 0-63, R81. -/
  gs : Nat
  /-- START in symbols, R81. -/
  start : Nat
  /-- LENGTH in codewords, R81. -/
  length : Nat
  /-- PROFILE 0-3, R81. -/
  profile : Nat
  /-- CIRCUIT, R81. -/
  circuit : Bool
  /-- NEED, R81. -/
  need : Bool
  /-- PROOFING, R81. -/
  proofing : Bool
  /-- MESSAGE, R81. -/
  message : Bool
  /-- Discovery grant, R82. -/
  discovery : Bool
  /-- The delay d in use when the grant was taken, and its profile's preamble symbols and levels then (R80, R106, R113). -/
  delay : Nat
  pre : Nat
  levels : BitVec 64
  /-- r of a discovery grant, which START already holds (R109). -/
  r : Nat
  /-- Where its codewords begin in the stream's circuit space, in blocks (R132). -/
  base : Nat
  deriving DecidableEq, Repr

/-- An item placed in a burst (R86, R88): header fields, content, GCM tag follows, and the frame when it ends here. -/
structure UpItem where
  /-- TAG, 20 bits, R86. -/
  tag : Nat
  /-- CLASS, R87. -/
  cls : Cls
  /-- FIRST, R86. -/
  first : Bool
  /-- LAST, R86. -/
  last : Bool
  /-- Epoch bit, R86. -/
  epoch : Bool
  /-- TAG_PRESENT, R86. -/
  tagPresent : Bool
  /-- Content bytes, R86. -/
  content : List Byte
  /-- Its GCM tag, empty without TAG_PRESENT. -/
  gcmTag : List Byte
  /-- Codeword (from 1) that carries its last byte. -/
  codeword : Nat
  /-- The frame whose last byte this item carries. -/
  frame : Option Packet
  deriving DecidableEq, Repr

/-- A burst built (R94-R99). -/
structure Burst where
  /-- The grant it answers, R99. -/
  grant : Grant
  /-- Terminal ID in its header, R96. -/
  tid : Nat
  /-- First preamble symbol on the module's own symbol count: frame * 14,062,500 + 3,600,000 + d + START (R106). -/
  first : Nat
  /-- End symbol E (R48). -/
  endSym : Nat
  /-- Module time of the lead point (R48), as computed from t_rx. -/
  leadNs : Nat
  /-- REI, 16 bits, R97. -/
  rei : Nat
  /-- RDI, R97. -/
  rdi : Bool
  /-- POWER_WARN, R96. -/
  powerWarn : Bool
  /-- PS_FRAME and page of an armed page switch, R96. -/
  psArmed : Option (Nat × Nat)
  /-- KE_FRAME and bit of an armed key-epoch switch, R96. -/
  keArmed : Option (Nat × Bool)
  /-- Page in force, R96. -/
  psPage : Nat
  /-- Epoch bit in force, R96. -/
  keEpoch : Bool
  /-- Its message, R114. -/
  message : Option UpMsg
  /-- Its need report, four words, R98. -/
  need : List Word
  /-- Its items in order, R92. -/
  items : List UpItem
  /-- Circuit blocks: circuit, offset in the stream's circuit space, 48 bytes. -/
  blocks : List (Nat × Nat × List Byte)
  /-- The information bytes of its codewords, before the scrambler (R86, R132). -/
  crumb : List Byte
  /-- The 160 bytes of its burst crust (R95, R96, R98). -/
  crust : List Byte
  deriving DecidableEq, Repr

/-- An upstream frame begun and not yet ended (R92). -/
structure OpenFrag where
  /-- The frame, R92. -/
  packet : Packet
  /-- Channel tag, 20 bits, R92. -/
  tag : Nat
  /-- Epoch bit it was encrypted under, R92. -/
  epoch : Bool
  /-- Encrypted, R317. -/
  encrypted : Bool
  /-- Content bytes already placed, R92. -/
  sent : Nat
  /-- The ciphertext of the frame and its GCM tag (R317). -/
  content : List Byte
  gcmTag : List Byte
  deriving DecidableEq, Repr

/-- Upstream framer. -/
structure Up where
  /-- Grants taken and not yet built, by frame and START, R83; reset empty. -/
  grants : List Grant
  /-- Bursts built and not yet on the air, R99; reset empty. -/
  built : List Burst
  /-- The burst on the air, R48; reset none. -/
  onAir : Option Burst
  /-- End symbol E of the previous burst, R108; reset none. -/
  prevEnd : Option Nat
  /-- Open fragmented frame per grant stream, R92; reset empty. -/
  frags : Map OpenFrag
  /-- CONTROL items waiting for the control tag, content bytes, oldest first, R140; reset empty. -/
  control : List (List Byte)
  /-- SEQ of the next control header, 16 bits, R140; reset 0 (DESIGN CHOICE). -/
  ctlSeq : BitVec 16
  /-- REI, 16 bits saturating, R97; reset 0. -/
  rei : Nat
  /-- RDI since the last burst header, R97; reset false. -/
  rdi : Bool
  /-- Bytes granted per stream in the upstream frame now accounted, R237; reset empty. -/
  granted : Map Nat
  /-- A grant shorter than the contract's minimum was taken, per stream, R237; reset empty. -/
  shortGrant : List Nat
  /-- Blocks of the grant streams by upstream frame and stream, true once errored, R150; reset empty. -/
  blocks : Map Bool
  deriving DecidableEq, Repr

/-! ### Circuits (R129-R154) -/

/-- A run of a page (R130). -/
structure Run where
  /-- Circuit 0-255, R130. -/
  circuit : Nat
  /-- Direction: upstream, R130. -/
  up : Bool
  /-- Grant stream of an upstream run, R130. -/
  gs : Nat
  /-- First block, R130. -/
  first : Nat
  /-- Blocks, R130. -/
  count : Nat
  deriving DecidableEq, Repr

/-- A slice of the slot interchange (R129, R142, R143): its two pages and the state of the standby page. -/
structure Slice where
  /-- Page 0: its runs, R129; reset empty. -/
  page0 : List Run
  /-- Page 1: its runs, R129; reset empty. -/
  page1 : List Run
  /-- Standby page sealed, R142; reset false. -/
  sealed : Bool
  /-- Standby page valid, R142; reset false. -/
  valid : Bool
  /-- Armed, R143; reset false. -/
  armed : Bool
  deriving DecidableEq, Repr

/-- GFP delineation (R137). -/
inductive GfpSt where
  | hunt | presync | sync
  deriving DecidableEq, Repr

/-- A DS detector (R149): threshold k, window position, errors, declared. -/
structure Ds where
  /-- Threshold exponent 5-9, R149; reset 6. -/
  k : Nat
  /-- Line frames in the window, R149; reset 0. -/
  frames : Nat
  /-- BIP errors in the window, R149; reset 0. -/
  errors : Nat
  /-- DS declared, R149; reset false. -/
  declared : Bool
  deriving DecidableEq, Repr

/-- One circuit. -/
structure Circuit where
  /-- Egress port node, R139; reset none. -/
  egress : Option Nat
  /-- Receive ring named in the binding, R392; reset 0. -/
  ring : Nat
  /-- Q, 1-64, R139; reset 4. -/
  q : Nat
  /-- R430; reset true. -/
  enabled : Bool
  /-- Traces sent, expected and accepted, 16 bytes, R135; reset empty (none set). -/
  traceTx : List Byte
  traceExp : List Byte
  traceRx : List Byte
  /-- Trace bytes of the cycle now received, and how many equal valid cycles, R135; reset empty, 0. -/
  traceCyc : List Byte
  traceLast : List Byte
  traceRun : Nat
  /-- GFP delineation and the unread stream, R137; reset HUNT. -/
  gfp : GfpSt
  /-- Received bytes not yet consumed, R137; reset empty. -/
  rxStream : List Byte
  /-- Declared defects: 3 PATH_LOF, 4 PATH_AIS, 5 PATH_RDI, 6 PAGE_ABORT, R147; reset false. -/
  lof : Bool
  ais : Bool
  rdi : Bool
  abort : Bool
  /-- Degraded-signal window of its path, R149. -/
  ds : Ds
  /-- Consecutive line frames of each condition, R147; reset 0. -/
  runBad : Nat
  runSeq : Nat
  runGood : Nat
  runFi1 : Nat
  runFi0 : Nat
  runRdi1 : Nat
  runRdi0 : Nat
  /-- This line frame's observations: SEQ matches, FI, RDI received, judged yet, R147; reset none. -/
  seen : Option (Bool × Bool × Bool)
  /-- Number of a line frame and the parity of its payload, none when not comparable, R134; reset none. -/
  bipPrev : Option (Nat × BitVec 8)
  /-- BIP errors of the last comparison, for REI, R135; reset 0. -/
  lastBip : Nat
  /-- Parity of the upstream payload of the previous upstream frame, R134; reset 0. -/
  bipUp : BitVec 8
  /-- Ingress queue, egress queue, frames completed with the line frame that completed them, R12, R138; reset empty. -/
  ingress : List Packet
  egressQ : List Packet
  done : List (Nat × Packet)
  /-- The last 43 bits of the payload areas, received and sent, R136; reset 0 (DESIGN CHOICE). -/
  rxScr : BitVec 43
  txScr : BitVec 43
  /-- Stream bytes of a straddling upstream frame, R138; reset empty. -/
  txRest : List Byte
  /-- Content taken for upstream frames: frame, page, bytes, R138; reset empty. -/
  taken : List (Nat × Nat × List Byte)
  deriving DecidableEq, Repr

/-- The slot interchange. -/
structure Cir where
  /-- Slices 0-15, R129; reset both pages empty. -/
  slices : Map Slice
  /-- Page memory of the slices initialised, a bit each, R366, R474; reset 0. -/
  inited : BitVec 16
  /-- Active page, R129; reset 0. -/
  active : Nat
  /-- Circuits 0-255, R129; reset Circuit.default. -/
  circuits : Map Circuit
  /-- ANNOUNCE held: PS_FRAME, PS_PAGE, R143; reset none. -/
  announce : Option (Nat × Nat)
  /-- The module is armed, R143; reset false. -/
  moduleArmed : Bool
  /-- COMMIT taken for PS_FRAME, R144; reset none. -/
  commit : Option Nat
  /-- A switch has been decided at F - 1 and acts at F, R145; reset none. -/
  switchAt : Option Nat
  /-- Standby writes are refused until frame F + 1, R144; reset none. -/
  refuseUntil : Option Nat
  /-- Abort defect to be entered at F by these circuits, R145; reset none. -/
  abortAt : Option (Nat × List Nat)
  /-- LOF of the section, and line frames with sync and decoded crust since, R147; reset true, 0. -/
  lof : Bool
  lofGood : Nat
  /-- DS of the section, R149; reset k = 6. -/
  ds : Ds
  /-- The circuit of each frame in the egress queues, in release order, R138; reset empty. -/
  relOrder : List Nat
  deriving DecidableEq, Repr

/-- A performance bin (R152, R153). -/
structure Bin where
  /-- TAI second at which it began, R153; reset 0. -/
  start : Nat
  /-- Seconds counted, R153; reset 0. -/
  elapsed : Nat
  /-- Errored seconds, R151; reset 0. -/
  es : Nat
  /-- Severely errored seconds, R151; reset 0. -/
  ses : Nat
  /-- Background block errors, R151; reset 0. -/
  bbe : Nat
  /-- Unavailable seconds, R151; reset 0. -/
  uas : Nat
  /-- Far-end ES, R151; reset 0. -/
  feEs : Nat
  /-- Far-end SES, R151; reset 0. -/
  feSes : Nat
  /-- Far-end BBE, R151; reset 0. -/
  feBbe : Nat
  /-- Far-end UAS, R151; reset 0. -/
  feUas : Nat
  /-- Errored blocks, R153; reset 0. -/
  eb : Nat
  /-- Seconds with DS declared, R153; reset 0. -/
  dsSeconds : Nat
  /-- SUSPECT, R153; reset false. -/
  suspect : Bool
  /-- PROVISIONAL, R152; reset false. -/
  provisional : Bool
  /-- Time was not locked, R153; reset false. -/
  unlocked : Bool
  deriving DecidableEq, Repr

/-- Availability of one end (R151): unavailable, and the run of seconds that may change it: (ES, SES, BBE) of each. -/
structure Avail where
  /-- In unavailable time, R151; reset false. -/
  unavail : Bool
  /-- The run of seconds that may change it, newest first, R151; reset empty. -/
  run : List (Bool × Bool × Nat)
  deriving DecidableEq, Repr

/-- Performance of one entity (R150-R152). -/
structure Perf where
  /-- This second: blocks, errored blocks, defect, far-end errored blocks, far-end defect. -/
  blocks : Nat
  errored : Nat
  defect : Bool
  feErrored : Nat
  feDefect : Bool
  /-- A promise of this grant stream was broken since its last block, R150; reset false. -/
  broken : Bool
  /-- Near-end availability, R151. -/
  near : Avail
  /-- Far-end availability, R151. -/
  far : Avail
  /-- Current 15-minute bin, R152. -/
  cur15 : Bin
  /-- Recent 15-minute bins, newest first, at most 32, R152; reset none. -/
  recent : List Bin
  /-- Current 24-hour bin, R152. -/
  cur24 : Bin
  /-- Previous 24-hour bin, R152; reset none. -/
  prev24 : Option Bin
  deriving DecidableEq, Repr

/-! ### Counters, peel, histograms (R483-R505) -/

/-- A probe counter (R491). -/
structure Probe where
  /-- Event number and instance it follows, R491; reset 0. -/
  event : Nat
  /-- Enabled, R491; reset false. -/
  enabled : Bool
  /-- 64 bits, R491; reset 0. -/
  value : BitVec 64
  /-- INVALID, R491; reset false. -/
  invalid : Bool
  deriving DecidableEq, Repr

/-- A histogram engine (R499-R503). -/
structure Hist where
  /-- Configuration word, 64 bits, R500; reset 0. -/
  config : BitVec 64
  /-- 32 bins of 64 bits, R501; reset 0. -/
  bins : Map (BitVec 64)
  /-- MAX, 64 bits, R501; reset 0. -/
  max : Nat
  /-- Bins flagged INVALID, R27 (32 is MAX); reset none. -/
  invalid : Map Bool
  deriving DecidableEq, Repr

/-- An entry of a dump, before it is written (R497). -/
structure DumpEntry where
  /-- 64 bits, R497. -/
  value : BitVec 64
  /-- Event number, R497. -/
  event : Nat
  /-- Instance, R497. -/
  inst : Nat
  /-- Flags, 8 bits, R497. -/
  flags : BitVec 8
  /-- Probe or engine number, R497. -/
  index : Nat
  /-- Histogram bin, R497. -/
  bin : Nat
  deriving DecidableEq, Repr

/-- A dump latched at a strobe and not yet written (R495, R496). -/
structure Dump where
  /-- SEQ, 32 bits, R496. -/
  seq : BitVec 32
  /-- FLAGS, 8 bits, R496. -/
  flags : BitVec 8
  /-- Time state, R496. -/
  timeState : Nat
  /-- STROBE_NS, R496. -/
  strobeNs : Nat
  /-- Always-on count, 48 bits, R496. -/
  aon : BitVec 48
  /-- PERIOD, R496. -/
  period : Nat
  /-- Domains ON, 50 bits, R496. -/
  domainsOn : BitVec 64
  /-- Domains in RETAIN, 50 bits, R496. -/
  domainsRetain : BitVec 64
  /-- DUMPS_LOST as its header will carry it. -/
  lost : Nat
  /-- Its entries in order, R496. -/
  entries : List DumpEntry
  deriving DecidableEq, Repr

/-- Counters, probes, peel and histograms. -/
structure Cnt where
  /-- Event counters, 64 bits, keyed 16 * event + instance, R484; reset 0. -/
  counters : Map (BitVec 64)
  /-- Counters flagged INVALID, R27; reset none. -/
  invalid : Map Bool
  /-- Value of each counter at the last strobe that found its domain ON, R495; reset 0. -/
  latched : Map (BitVec 64)
  /-- Probes 0-63, R491; reset disabled and 0. -/
  probes : Map Probe
  /-- PEEL_RING_BASE, PEEL_WB_ADDR, 64 bits, R492; reset 0. -/
  ringBase : BitVec 64
  wbAddr : BitVec 64
  /-- PEEL_CTRL ENABLE and SLOTS, R493; reset 0. -/
  enable : Bool
  slots : Nat
  /-- PEEL_PROD, PEEL_CONS, PEEL_LOST, 32 bits, R492; reset 0. -/
  prod : BitVec 32
  cons : BitVec 32
  lost : BitVec 32
  /-- PERIOD_MS in force, 0 stopped, R493; reset 0. -/
  period : Nat
  /-- SEQ of the last strobe, 32 bits, R496; reset 0. -/
  seq : BitVec 32
  /-- DUMPS_LOST gathered, R496; reset 0. -/
  dumpsLost : Nat
  /-- Module time of the last strobe made, R494; reset 0. -/
  lastStrobe : Nat
  /-- The next dump carries STEPPED, BRIDGED, FIRST, R494-R496; reset false, false, true. -/
  stepped : Bool
  bridged : Bool
  first : Bool
  /-- The dump being written, R498; reset none. -/
  dump : Option Dump
  /-- Histogram engines 0-63, R499; reset all zero. -/
  hists : Map Hist
  /-- Counter memory initialised, R474; reset false. -/
  inited : Bool
  deriving DecidableEq, Repr

/-! ### Time unit (R281-R313) -/

/-- The time states (R285). -/
inductive TimeSt where
  | free | acquiring | locked | holdover | bridged
  deriving DecidableEq, Repr

/-- A stamp record (R301-R303). -/
structure Stamp where
  /-- TAG, 16 bits, R303. -/
  tag : Nat
  /-- LOST, 16 bits, R302. -/
  lost : Nat
  /-- STEPPED, R303. -/
  stepped : Bool
  /-- Grant stream, 6 bits, R303. -/
  gs : Nat
  /-- The upper 16 bits of the fraction, R303. -/
  fracHi : Nat
  /-- Module time in ns, R301. -/
  ns : Nat
  deriving DecidableEq, Repr

/-- A stamp queue (R301-R303). -/
structure StampQ where
  /-- Records, oldest first, R302; reset empty. -/
  recs : List Stamp
  /-- TMU_TSQq_LOST, 64 bits, R302; reset 0. -/
  lostTotal : BitVec 64
  /-- Records dropped since the last stored record, R302; reset 0. -/
  lostSince : Nat
  /-- A step occurred since the last stored record, R303; reset false. -/
  stepped : Bool
  deriving DecidableEq, Repr

/-- A timing output (R307-R311). -/
structure Tout where
  /-- MODE: 0 OFF, 1 PPS, 2 TEN_MHZ, 3 FRAME, R307; reset 0. -/
  mode : Nat
  /-- RATE, R307; reset 2. -/
  rate : Nat
  /-- WIDTH in ns, R307; reset 10,000. -/
  width : Nat
  /-- DELAY in ns, signed, R307; reset 0. -/
  delay : Int
  /-- POLARITY, R307; reset false. -/
  activeLow : Bool
  /-- GATE, R307; reset 2. -/
  gate : Nat
  /-- Whole ns of the last edge output, R310; reset none. -/
  lastEdge : Option Nat
  deriving DecidableEq, Repr

/-- What a requester latches of the time unit (R284): TMU_NOW_FRAC and the five TMU_TSQq_TIME. -/
structure TmuLatch where
  /-- TMU_NOW_FRAC, 32 bits, R284; reset 0. -/
  frac : Nat
  /-- TMU_TSQq_TIME, 64 bits each, R284; reset 0. -/
  tsq : Map (BitVec 64)
  deriving DecidableEq, Repr

/-- What PD00 saves when PD07 leaves ON (R299). -/
structure TimeSaved where
  /-- NS, R299. -/
  ns : Nat
  /-- FRAC, R299. -/
  frac : Nat
  /-- ADJ, R299. -/
  adj : Int
  /-- UNCERTAINTY, R299. -/
  uncertainty : Nat
  /-- AON_NS, R299. -/
  aonNs : Nat
  /-- The always-on count then, R299. -/
  aon : BitVec 48
  deriving DecidableEq, Repr

/-- The settings and the discipline of module time. -/
structure Disc where
  /-- MODE of R285: 0 LINE, 1 HOST, 2 FREE; reset 0. -/
  mode : Nat
  /-- Consecutive means of at most 50 ns, R287; reset 0. -/
  small : Nat
  /-- Consecutive seconds without a usable mean, R287; reset 0. -/
  blank : Nat
  /-- sigma, in units of 2^-32 ns, R291; reset 0. -/
  sigma : Int
  /-- The last mean, in units of 2^-32 ns, R288, R436; reset none. -/
  theta : Option Int
  /-- Sum and number of the usable samples of this second, and of the last, R291; reset 0. -/
  sum : Int
  samples : Nat
  lastSamples : Nat
  /-- The host's bound, R288; reset 0xFFFF_FFFF. -/
  hostBound : Nat
  /-- UNCERTAINTY at entry to HOLDOVER or at a bridge, and NS at that entry, R288; reset 0. -/
  baseUnc : Nat
  entryNs : Nat
  /-- STEP_THRESHOLD in ns, R291; reset 1,000. -/
  threshold : Nat
  /-- The host's asymmetry, R290; reset 816. -/
  asym : Int
  /-- TIME_PARAMS held, 32 bytes, R289; reset none. -/
  params : Option (List Byte)
  /-- The last usable sample had TOD_HOLDOVER, R285; reset false. -/
  heHoldover : Bool
  /-- Time ticks since PD07 reached ON, and the tick from which each ADJ held, newest first, R287; reset 0, empty. -/
  ticks : Nat
  adjSegs : List (Nat × Int)
  deriving DecidableEq, Repr

/-- The time unit. -/
structure Tmu where
  /-- NS, 64 bits, R281; reset 0. -/
  ns : Nat
  /-- FRAC, 32 bits, R281; reset 0. -/
  frac : Nat
  /-- TCXO error e as measured, in 10^-12, R282; reset 0. -/
  e : Int
  /-- ADJ, signed 32 bits, R283; reset 0. -/
  adj : Int
  /-- STATE, R285; reset FREE. -/
  st : TimeSt
  /-- Firmware's discipline of module time, R287-R291. -/
  disc : Disc
  /-- RELEASED, R299; reset false. -/
  released : Bool
  /-- AON_NS in 2^-32 ns, R295; reset 0x199_9999_999A. -/
  aonNs : Nat
  /-- Values PD00 saved, R299; reset none. -/
  saved : Option TimeSaved
  /-- TMU_EVENTS, 9 bits, R286; reset 0. -/
  events : BitVec 64
  /-- Stamp queues 0-4, R301; reset empty. -/
  tsq : Map StampQ
  /-- Latches of requesters 0-2, R284; reset 0. -/
  latches : Map TmuLatch
  /-- Burst stamps enabled, a bit per grant stream, R301; reset 0. -/
  burstStamps : BitVec 64
  /-- TOUT0-3, R307; reset the defaults. -/
  touts : Map Tout
  /-- TMU_PPSIN_TIME, TMU_PPSIN_DIFF, edges accepted, R284, R312; reset 0. -/
  ppsTime : Nat
  ppsDiff : Int
  ppsEdges : BitVec 32
  /-- An accepted edge whose 1.5 s still run, R312; reset false. -/
  ppsRunning : Bool
  /-- PPSIN_DELAY and PPSIN_TOLERANCE, R312; reset 0 and 1,000. -/
  ppsDelay : Int
  ppsTol : Nat
  deriving DecidableEq, Repr

/-! ### Parse and rule versions (R155-R178, R196-R200) -/

/-- How a parse program ended (R165, R171, R173): DONE, EXC with its reason, DROP, or stopped. -/
inductive PEnd where
  | done
  | exc (reason : Nat)
  | drop
  | stopped
  deriving DecidableEq, Repr

/-- A parse engine with the packet it runs (R160). -/
structure Engine where
  /-- Side of its packet, R158. -/
  side : Side
  /-- Its packet, R160. -/
  packet : Packet
  /-- Version slot of the stamp. -/
  slot : Nat
  /-- g0-g15, 64 bits each, R160. -/
  g : List Word
  /-- CUR and END, 14 bits, R160. -/
  cur : Nat
  fin : Nat
  /-- Z and LT, R160. -/
  z : Bool
  lt : Bool
  /-- Header list of (code, offset), at most 16, R160. -/
  hdrs : List (Nat × Nat)
  /-- STEPS, 7 bits, R160. -/
  steps : Nat
  /-- K0-K4, R160. -/
  key : List Word
  /-- Meta fields, R168. -/
  facts : Meta
  /-- PFLAGS, 8 bits, R171. -/
  pflags : BitVec 8
  /-- Reason of PARSE_TRUNCATED, R174; 0 while not set. -/
  trunc : Nat
  /-- Address of the next instruction. -/
  pc : Nat
  /-- The matcher's results are ready, R166. -/
  matched : Bool
  /-- A MATCH waits for them: RD, group and the steps before it, R166. -/
  wait : Option (Nat × Nat × Nat)
  /-- How the program ended, R173; none while it runs. -/
  ended : Option PEnd
  deriving DecidableEq, Repr

/-- A program word with the version slots that hold it (R175). -/
structure PWord where
  /-- The word, 32 bits, R163; reset 0. -/
  w : BitVec 32
  /-- Held by version slot 0, R175; reset false. -/
  h0 : Bool
  /-- Held by version slot 1, R175; reset false. -/
  h1 : Bool
  deriving DecidableEq, Repr

/-- A range comparator (R166). -/
structure Comparator where
  /-- LO, 16 bits, R166; reset 0. -/
  lo : Nat
  /-- HI, 16 bits, R166; reset 0. -/
  hi : Nat
  /-- Held by version slot 0, R175; reset false. -/
  h0 : Bool
  /-- Held by version slot 1, R175; reset false. -/
  h1 : Bool
  deriving DecidableEq, Repr

/-- A pattern (R166). -/
structure Pattern where
  /-- Value, 32 bytes, R166; reset 0. -/
  value : List Byte
  /-- Mask, 32 bytes, R166; reset 0. -/
  mask : List Byte
  /-- Length in bytes, R166; reset 0. -/
  length : Nat
  /-- Group, R166; reset 0. -/
  group : Nat
  /-- First offset, R166; reset 0. -/
  start : Nat
  /-- Last offset, R166; reset 0. -/
  stop : Nat
  /-- Held by version slot 0, R175; reset false. -/
  h0 : Bool
  /-- Held by version slot 1, R175; reset false. -/
  h1 : Bool
  deriving DecidableEq, Repr

/-- The states of a version slot (R196). -/
inductive VerSt where
  | free | building | current | draining
  deriving DecidableEq, Repr

/-- A version slot (R196). -/
structure Version where
  /-- State of the slot, R196; reset FREE. -/
  st : VerSt
  /-- Batch number, 32 bits; reset 0. -/
  batch : Nat
  /-- Faulty, R27, R200; reset false. -/
  faulty : Bool
  /-- Reference count, R199; reset 0. -/
  refs : Nat
  /-- Entry addresses by KIND, R162; reset none. -/
  entry : List (Option Nat)
  /-- Actions for PARSE_TRUNCATED, LEN_CONFLICT, PAST_END, R172; reset 0 EXCEPTION. -/
  actions : List Nat
  /-- Miss action and MISS_BASE per space, R185; reset 0 EXCEPTION. -/
  miss : List (Nat × Nat)
  /-- Module time of a timed commit, R198; reset none. -/
  commitAt : Option Nat
  deriving DecidableEq, Repr

/-- Parse engines, rule versions, and the packets that wait for an engine. -/
structure Prs where
  /-- Engines 0-127 that hold a packet, R160; reset none. -/
  engines : Map Engine
  /-- Engines in dispatch order, line and client side, R158; reset empty. -/
  orderLine : List Nat
  orderClient : List Nat
  /-- Packets waiting for an engine: line side, client side, port node 85, R14, R21; reset empty. -/
  inLine : List Packet
  inClient : List Packet
  inRecirc : List Packet
  /-- Program memory, 8,192 words, R163, R175; reset zeros, held by none. -/
  prog : Map PWord
  /-- Comparators 0-255, R166; reset held by none. -/
  comps : Map Comparator
  /-- Patterns 0-4095, R166; reset held by none. -/
  pats : Map Pattern
  /-- Version slots 0 and 1, R196; reset FREE. -/
  v0 : Version
  v1 : Version
  /-- Last batch number, R196; reset 0. -/
  lastBatch : Nat
  /-- A batch has been committed since PD39 reached ON from OFF, R155; reset false. -/
  committed : Bool
  deriving DecidableEq, Repr

/-! ### Flow table (R179-R202) -/

/-- A valid flow entry: its key and context words (R182). -/
structure FlowEnt where
  /-- Key, R179. -/
  key : Key
  /-- Context C0-C2, R182. -/
  ctx : Ctx
  deriving DecidableEq, Repr

/-- The flow table, its CAM, its rehash and the tag map. -/
structure Flow where
  /-- 1,048,576 slots, slot 4 * bucket + n, R181; reset invalid. -/
  slots : Map FlowEnt
  /-- 256 CAM entries, R181; reset invalid. -/
  cam : Map FlowEnt
  /-- Seed in use, 64 bits, R180; reset 0, drawn when PD40 first reaches ON. -/
  seed : Word
  /-- PD40 has reached ON since supply good, so the seed has been drawn, R180; reset false. -/
  seeded : Bool
  /-- New seed during a rehash, R192; reset none. -/
  newSeed : Option Word
  /-- Current GEN, R192; reset false. -/
  gen : Bool
  /-- P, 18 bits, R192; reset 0. -/
  p : Nat
  /-- Rehash stalled, R195; reset false. -/
  stalled : Bool
  /-- Automatic rehash, R192, R432; reset true. -/
  auto : Bool
  /-- Tag map by tag, R187; reset invalid. -/
  tags : Map Word
  /-- Table cleared, R202; reset false. -/
  inited : Bool
  /-- Packets that wait for flow lookup, R186; reset empty. -/
  inLine : List Packet
  inClient : List Packet
  deriving DecidableEq, Repr

/-! ### Queues, nodes, shapers, policers (R205-R228) -/

/-- Where a shaped node is in the calendar (R222): nowhere, in a fine or a coarse slot, or parked. -/
inductive CalPos where
  | none
  | fine (slot : Nat)
  | coarse (slot : Nat)
  | parked
  deriving DecidableEq, Repr

/-- A shaper (R219-R223). -/
structure Shaper where
  /-- RATE, 32 bits, 1,000 b/s; reset UNSHAPED (R206, R207). -/
  rate : Nat
  /-- BURST, 24 bits, bytes; reset 16,415. -/
  burst : Nat
  /-- Level B in 2^-16 byte; reset 0. -/
  level : Int
  /-- Scheduler time of the last refill, in 1/45 ns; reset 0. -/
  at45 : Nat
  /-- Eligible time in ns of scheduler time; reset 0. -/
  eligible : Nat
  /-- Place in the calendar, R222; reset none. -/
  cal : CalPos
  deriving DecidableEq, Repr

/-- Fair-queuing tags of one class (R215-R217): as a child, S, F and whether it is active; as a parent, v and the
largest finish tag issued. -/
structure Tags where
  /-- Start tag, R215; reset 0. -/
  s : BitVec 48
  /-- Finish tag, R215; reset 0. -/
  f : BitVec 48
  /-- Active, R217; reset false. -/
  active : Bool
  /-- Virtual time of its children, R215; reset 0. -/
  v : BitVec 48
  /-- Largest finish tag of its children, R215; reset 0. -/
  vmax : BitVec 48
  deriving DecidableEq, Repr

/-- A queue (R206, R253, R392). -/
structure Queue where
  /-- ENABLE, R206; reset false. -/
  enable : Bool
  /-- Subscriber node, 14 bits; reset 0. -/
  parent : Nat
  /-- CLASS; reset BEST_EFFORT. -/
  cls : Cls
  /-- WEIGHT, 12 bits; reset 1. -/
  weight : Nat
  /-- Its shaper, R219. -/
  shaper : Shaper
  /-- LIMIT and YELLOW_LIMIT in cells, 18 bits; reset 4,096 and 2,048. -/
  limit : Nat
  yellow : Nat
  /-- LATE_DROP, TOLERANCE in us, ACCEPT_REPORT, R253; reset 0. -/
  lateDrop : Bool
  tolerance : Nat
  acceptReport : Bool
  /-- Receive ring bound, R392; reset none. -/
  ring : Option Nat
  /-- Parked under R27; reset false. -/
  parked : Bool
  /-- Its fair-queuing tags, R215. -/
  tags : Tags
  /-- Frames held, oldest first. -/
  frames : List Packet
  /-- Key of the last frame accepted, R246; reset 0. -/
  lastKey : Nat
  deriving DecidableEq, Repr

/-- A subscriber, service or port node (R205, R207). -/
structure SNode where
  /-- PARENT, R207; reset 0. -/
  parent : Nat
  /-- WEIGHT, 12 bits, R207; reset 1. -/
  weight : Nat
  /-- Its shaper, R219. -/
  shaper : Shaper
  /-- TIMED_POLICER, 17 bits, subscribers only; reset 0x1_FFFF none. -/
  policer : Nat
  /-- PFC priority of a service node, R272. -/
  pfc : Nat
  /-- Parked under R27; reset false. -/
  parked : Bool
  /-- Tags among the assured children, R215. -/
  assured : Tags
  /-- Tags among the best-effort children, R215. -/
  best : Tags
  deriving DecidableEq, Repr

/-- A policer (R225-R227). -/
structure Policer where
  /-- CIR, 32 bits, R225; reset 0. -/
  cir : Nat
  /-- CBS, 24 bits, R225; reset 0. -/
  cbs : Nat
  /-- EIR, 32 bits, R225; reset 0. -/
  eir : Nat
  /-- EBS, 24 bits, R225; reset 0. -/
  ebs : Nat
  /-- YELLOW_ACTION, R225; reset false. -/
  yellowDrop : Bool
  /-- Tc and Te in 2^-16 byte. -/
  tc : Nat
  te : Nat
  /-- Scheduler time of the last refill, R226; reset 0. -/
  at45 : Nat
  /-- Parked under R27; reset false. -/
  parked : Bool
  deriving DecidableEq, Repr

/-- The scheduler, the buffer's settings, and the frames that wait for admission. -/
structure Sch where
  /-- Scheduler time in 1/45 ns, R218; reset 0. -/
  time45 : Nat
  /-- Q0-Q262,143, R206; reset the defaults. -/
  queues : Map Queue
  /-- Subscriber nodes 0-16,383, service nodes 0-2,047, port nodes 0-95, R205; reset the defaults of R207. -/
  subs : Map SNode
  svcs : Map SNode
  ports : Map SNode
  /-- Policers 0-65,535, R225; reset all zero. -/
  pols : Map Policer
  /-- TIMED_RESERVE, 17 bits, R211; reset 16,384. -/
  reserve : Nat
  /-- PCI Express share of host groups 0-15 in 1,000 b/s, R207; reset 12,500,000. -/
  shares : Map Nat
  /-- Scheduler initialised, R210; reset false. -/
  inited : Bool
  /-- Quadrants zeroised, a bit each, R26, R474; reset 0. -/
  quads : BitVec 4
  /-- Frames past flow lookup that wait for admission, R186; reset empty. -/
  inLine : List Packet
  inClient : List Packet
  deriving DecidableEq, Repr

/-! ### Admission, contracts, gates (R230-R257) -/

/-- A service curve: R_p in 1,000 b/s and T_p in ns (R230). -/
structure Curve where
  /-- R_p in 1,000 b/s, R230. -/
  rate : Nat
  /-- T_p in ns, R230. -/
  lat : Nat
  deriving DecidableEq, Repr

/-- The admission settings of a port node 0-83 (R230, R234). -/
structure AdmPort where
  /-- TIMED_ENABLE; reset 0. -/
  enable : Bool
  /-- MAX_TIMED, 15 bits; none = the largest value the curve rule allows (the default). -/
  maxTimed : Option Nat
  /-- MAX_AHEAD in us, 20 bits; reset 10,000. -/
  maxAhead : Nat
  /-- HOST_LAT in us, 7 bits; reset 4. -/
  hostLat : Nat
  /-- OUTCOME_RING, 12 bits; reset 0xFFF none. -/
  outRing : Nat
  /-- The curve before the change now running, and the module time at which the combined curve ends; reset none. -/
  old : Option (Option Curve)
  until' : Nat
  deriving DecidableEq, Repr

/-- A contract (R235). -/
structure Contract where
  /-- Contract number, 16 bits, R235. -/
  number : Nat
  /-- R_c in 1,000 b/s, R235. -/
  rate : Nat
  /-- T_c in us, R235. -/
  lat : Nat
  /-- Minimum burst, R235. -/
  minBurst : Nat
  deriving DecidableEq, Repr

/-- What a grant stream holds of contracts (R235-R237). -/
structure GsContract where
  /-- In force; reset none. -/
  cur : Option Contract
  /-- Accepted and coming into force at a frame (none = an end); reset none. -/
  next : Option (Option Contract × Nat)
  /-- Old contract that a reduction is measured against, until a frame; reset none. -/
  old : Option (Contract × Nat)
  /-- Deficit in bytes; reset 0. -/
  deficit : Nat
  /-- Upstream frames in breach; reset 0. -/
  breaches : Nat
  /-- Taken with short notice; reset false. -/
  short : Bool
  deriving DecidableEq, Repr

/-- A gate list (R248). -/
structure GateList where
  /-- Its entries, R248; reset none. -/
  entries : List Word
  /-- CYCLE in ns, R250; reset 0. -/
  cycle : Nat
  /-- BASE in ns, R250; reset 0. -/
  base : Nat
  deriving DecidableEq, Repr

/-- The gates of a client port (R248-R250). -/
structure Gate where
  /-- The active copy, R248; reset empty. -/
  active : GateList
  /-- Standby entries by number; reset gates open, interval 0. -/
  standby : Map Word
  /-- The list that becomes active, and its change time; reset none. -/
  next : Option (GateList × Nat)
  /-- Classes (0 best effort, 1 assured, 2 timed) whose head frame is held back at a guard band, R249; reset none. -/
  waiting : List Nat
  deriving DecidableEq, Repr

/-- Admission. -/
structure Adm where
  /-- Port nodes 0-83; reset the defaults of R230. -/
  ports : Map AdmPort
  /-- Grant streams 0-63; reset none. -/
  contracts : Map GsContract
  /-- Client ports 0-3; reset no list. -/
  gates : Map Gate
  deriving DecidableEq, Repr

/-! ### Client ports (R259-R280) -/

/-- The pause of one priority of a port (R271-R274). -/
structure PauseSt where
  /-- The pause timer runs. -/
  timer : Bool
  /-- The watchdog fired and the pause is ignored. -/
  ignoring : Bool
  /-- The module asserts pause toward the partner. -/
  xoff : Bool
  deriving DecidableEq, Repr

/-- A client port. -/
structure CPort where
  /-- MAX_FRAME, R261; reset 16,387. -/
  maxFrame : Nat
  /-- PRECODE_TX, R261; reset false. -/
  preTx : Bool
  /-- PRECODE_RX, R261; reset false. -/
  preRx : Bool
  /-- FLOW_CONTROL 0 NONE, 1 PAUSE, 2 PFC, R261; reset 0. -/
  flow : Nat
  /-- WATCHDOG in ms, XOFF_CELLS, XON_CELLS, NO_PAUSE_MASK, R261; reset 20, 8,192, 4,096, 0. -/
  watchdog : Nat
  xoff : Nat
  xon : Nat
  noPause : BitVec 8
  /-- CLIENTn, R262; reset false. -/
  up : Bool
  /-- AM_LOCK, HI_SER, LOCAL_FAULT, REMOTE_FAULT, R278; reset false. -/
  amLock : Bool
  hiSer : Bool
  localFault : Bool
  remoteFault : Bool
  /-- CPn_EVENTS, 8 bits, R279; reset 0. -/
  events : BitVec 64
  /-- CPn_FEC_CORRECTED, CPn_FEC_UNCORRECTED, 64 bits, R277; reset 0. -/
  fecOk : Nat
  fecBad : Nat
  /-- Pause of priorities 0-7, R271; reset none. -/
  pauses : Map PauseSt
  /-- Frames selected and not yet sent, oldest first, R275; reset empty. -/
  tx : List Packet
  deriving DecidableEq, Repr

/-- Ports and filters. -/
structure Prt where
  /-- Port mode applied, 0 before the first, R259; reset 0. -/
  mode : Nat
  /-- The four ports, R259. -/
  ports : Map CPort
  /-- Receive filters 0-255, 64 bits, R265; reset 0. -/
  filters : Map Word
  deriving DecidableEq, Repr

/-! ### Cipher engine (R314-R335) -/

/-- The states of a key slot (R320). -/
inductive KeySt where
  | empty | loaded | draining
  deriving DecidableEq, Repr

/-- A key slot (R320). -/
structure KeySlot where
  /-- State, R320; reset EMPTY. -/
  st : KeySt
  /-- The key, 32 bytes, R319; reset none. -/
  key : List Byte
  /-- Generation, 16 bits; reset 1. -/
  gen : Nat
  /-- USAGE, 4 bits. -/
  usage : Nat
  deriving DecidableEq, Repr

/-- A look-aside job (R329): its descriptor words and the owner's port. -/
structure Job where
  /-- Its eight words, R329. -/
  words : List Word
  /-- The owner's port, R329. -/
  port : Nat
  deriving DecidableEq, Repr

/-- What a core works on (R316). -/
inductive CoreWork where
  | inline (dir : Dir) (id : Nat) (f : LineFrame)
  | la (j : Job)
  deriving DecidableEq, Repr

/-- A unit that holds a core, with the key it captured (R323). -/
structure CoreUnit where
  /-- The unit or job it works on, R314. -/
  work : CoreWork
  /-- Key slot captured, R321. -/
  slot : Nat
  /-- Generation captured, R323. -/
  gen : Nat
  /-- Key captured, R321. -/
  key : List Byte
  deriving DecidableEq, Repr

/-- A downstream frame in the inline cipher: its place in order, and what it became once done (R317). -/
structure InFlight where
  /-- Its number in order of dispatch. -/
  id : Nat
  /-- Its work is done. -/
  done : Bool
  /-- The frame as it goes on, or none, R317. -/
  out : Option LineFrame
  deriving DecidableEq, Repr

/-- The cipher engine. -/
structure Cph where
  /-- Key slots 0-4095, R319; reset EMPTY, generation 1. -/
  slots : Map KeySlot
  /-- LINE_SLOTS, R319; reset 2,048. -/
  lineSlots : Nat
  /-- First slot of the pair of each encrypted tag, R319; reset none. -/
  pairs : Map Nat
  /-- Key store initialised, R315; reset false. -/
  inited : Bool
  /-- CPH_LOCK HELD and OWNER, R325; reset 0. -/
  held : Bool
  owner : Nat
  /-- CPH_CONFIG VECTOR and LOCK_TIMEOUT, R328; reset 0 and 100. -/
  vector : Nat
  timeout : Nat
  /-- CPH_EVENTS, 4 bits, R328; reset 0. -/
  events : BitVec 64
  /-- CPH_JOB0-7, R324; reset 0. -/
  job : Map Word
  /-- Job queue of 16 entries, R328; reset empty. -/
  queue : List Job
  /-- JOBS_DONE, 32 bits, R328; reset 0. -/
  jobsDone : BitVec 32
  /-- Cores 0-7 at work, R314; reset idle. -/
  cores : Map CoreUnit
  /-- Jobs that yielded, R316; reset empty. -/
  saved : List CoreUnit
  /-- Upstream frames that wait for a core, R317; reset empty. -/
  upWait : List LineFrame
  /-- Downstream frames inside the inline cipher, in order, R317; reset empty. -/
  order : List InFlight
  /-- Next serial number of an inline unit (the model's own); reset 0. -/
  nextId : Nat
  deriving DecidableEq, Repr

/-! ### Host DMA rings (R375-R399) -/

/-- The states of a ring (R379). -/
inductive RingSt where
  | stopped | running | draining | error
  deriving DecidableEq, Repr

/-- A receive frame reserved and not yet written (R393): its buffers and the index of its first descriptor. -/
structure Resv where
  /-- The frame, R386, R393. -/
  packet : Packet
  /-- The buffers it has reserved, R393. -/
  bufs : List (Nat × Nat)
  /-- The first descriptor, R387. -/
  index : BitVec 32
  deriving DecidableEq, Repr

/-- A transmit or receive ring (R376-R381). -/
structure Ring where
  /-- DESC_BASE, CPL_BASE, WB_ADDR, 64 bits; reset 0. -/
  descBase : Word
  cplBase : Word
  wbAddr : Word
  /-- CTRL, 64 bits, R377, R378; reset CT_THRESHOLD 64 for transmit, HOLD 100 for receive. -/
  ctrl : Word
  /-- STATE, ERROR, CFG_REFUSED, WAITING, R379; reset STOPPED, 0. -/
  st : RingSt
  err : Nat
  cfgRefused : Bool
  waiting : Bool
  /-- CPL_PROD and DESC_DONE, 32 bits; reset 0. -/
  prod : BitVec 32
  done : BitVec 32
  /-- The doorbell values taken: descriptor tail and completion head, 32 bits, R381; reset 0. -/
  tail : BitVec 32
  head : BitVec 32
  /-- COUNT: frames fetched or delivered; frames ended in error or dropped; 32 bits, R376; reset 0. -/
  good : BitVec 32
  bad : BitVec 32
  /-- Completion slots reserved, R386; reset 0. -/
  reserved : Nat
  /-- Receive: posted, unreserved descriptors (address, length), oldest first, R391; reset empty. -/
  posted : List (Nat × Nat)
  /-- Receive: index of the first unreserved descriptor; reset 0. -/
  next : BitVec 32
  /-- Receive: frames reserved and not yet written, R393; reset empty. -/
  resv : List Resv
  /-- Receive: delivery queue and its tags, R392; reset empty. -/
  delivery : List Packet
  tags : Tags
  deriving DecidableEq, Repr

/-- How one segment of a segmented send ended (R389): STATUS, outcome word of a timed segment, EGRESS, FLOW_ID, REASON. -/
structure SegEnd where
  /-- Number of the segment, R270. -/
  index : Nat
  /-- STATUS, R387. -/
  status : Nat
  /-- Outcome word, R255. -/
  outcome : Option Word
  /-- EGRESS, R387. -/
  egress : Nat
  /-- FLOW, R387. -/
  flow : Nat
  /-- REASON, R387. -/
  reason : Nat
  deriving DecidableEq, Repr

/-- A segmented send whose segments have not all ended (R389). -/
structure SegSend where
  /-- Its ring, R270. -/
  ring : Nat
  /-- Its first descriptor, R270. -/
  desc : Nat
  /-- Segments in all, R270. -/
  total : Nat
  /-- Arrival stamp, R298. -/
  arrival : Nat
  /-- Stamp tag, R383. -/
  tag : Nat
  /-- The segments that have ended, R389. -/
  ends : List SegEnd
  deriving DecidableEq, Repr

/-- Host DMA. -/
structure Dma where
  /-- Transmit rings, R376. -/
  tx : Map Ring
  /-- Receive rings, R376. -/
  rx : Map Ring
  /-- Ring state initialised, R366, R474; reset false. -/
  inited : Bool
  /-- Segmented sends in progress, R389; reset none. -/
  sends : List SegSend
  /-- Head frames whose wait runs, R394; reset empty. -/
  waits : List HeadSrc
  deriving DecidableEq, Repr

/-! ### Taps, the metering link, the bay (R336-R356) -/

/-- Accumulators of one slot of the taps (R339, R340). -/
structure TapAcc where
  /-- Downstream octets, 64 bits, R339; reset 0. -/
  octDown : Nat
  /-- Upstream octets, 64 bits, R339; reset 0. -/
  octUp : Nat
  /-- Promises kept, R339; reset 0. -/
  kept : Nat
  /-- Promises broken by the head end, R339; reset 0. -/
  brokenHe : Nat
  /-- Promises broken by a line fault, R339; reset 0. -/
  brokenLf : Nat
  /-- Promises broken by local power, R339; reset 0. -/
  brokenLp : Nat
  /-- Contract shortfall, R339; reset 0. -/
  shortfall : Nat
  /-- Errored, R339; reset false. -/
  errored : Bool
  /-- Defect, R339; reset false. -/
  defect : Bool
  deriving DecidableEq, Repr

/-- The taps, the metering link, the tin in the bay. -/
structure Tin where
  /-- The tin in the bay; reset none (DESIGN CHOICE: TIN_INSERTED puts one in). -/
  dev : Option TinDevice
  /-- Metering link up, self-test passed, R354; reset false. -/
  link : Bool
  /-- Bay cover open; reset false. -/
  bayOpen : Bool
  /-- Tap map, 64 OBJECT codes, R338; reset empty. -/
  map : List Nat
  /-- Tap accumulators, R339, R340; reset 0. -/
  accs : Map TapAcc
  /-- PUSH_SEQ, 32 bits, R339; reset 0. -/
  pushSeq : BitVec 32
  /-- Snapshot bit of DYING_GASP acknowledged in this warning, R351; reset false. -/
  snapAck : Bool
  /-- Replies and notices that wait for their channel: channel, words, R348; reset empty. -/
  out : List (Nat × List Word)
  deriving DecidableEq, Repr

/-! ### What leaves the module, and the whole -/

/-- What the module sends out, to the host, the line, the clients, the contacts and the carrier. -/
inductive Out where
  /-- An MSI-X message (R371). -/
  | msix (vector : Nat) (addr : BitVec 64) (data : BitVec 32)
  /-- A write to host memory (R382). -/
  | hostWrite (addr : Nat) (bytes : List Byte)
  /-- A write to management processor SRAM by a look-aside job (R329). -/
  | sramWrite (addr : Nat) (bytes : List Byte)
  /-- The answer to a register, doorbell or configuration read. -/
  | readReply (req : Req) (value : BitVec 64)
  /-- The answer Unsupported Request (R362), or Configuration Request Retry Status (R359). -/
  | unsupported (req : Req)
  | configRetry
  /-- A burst put on the air (R48). -/
  | burst (b : Burst)
  /-- A burst cut short, with its terminator or without (R23, R50). -/
  | burstCut (terminator : Bool)
  /-- A frame sent by a client port, FCS inverted or not (R275, R27). -/
  | clientFrame (port : Nat) (bytes : List Byte) (badFcs : Bool)
  /-- A pause or PFC frame sent by a client port (R271): enables and quanta. -/
  | pauseFrame (port : Nat) (pfc : Bool) (enables : BitVec 8) (quanta : List Nat)
  /-- An edge of a timing output (R307): output, level, module time. -/
  | toutEdge (output : Nat) (level : Bool) (ns : Nat)
  deriving DecidableEq, Repr

/-- The whole module. -/
structure State where
  pwr : Pwr
  glb : Glb
  pcie : Pcie
  mbx : Mbx
  fw : Fw
  line : Line
  frm : Frm
  pf : Pf
  ke : Ke
  up : Up
  cir : Cir
  perf : Map Perf
  cnt : Cnt
  tmu : Tmu
  prs : Prs
  flw : Flow
  sch : Sch
  adm : Adm
  prt : Prt
  cph : Cph
  dma : Dma
  tin : Tin
  /-- Credits spent and not yet returned, by interface (R17); reset none. -/
  spent : Map Nat
  /-- What the module has sent out, newest first (the model's own); reset empty. -/
  out : List Out
  /-- Draws of free values made so far (the model's own); reset 0. -/
  free : Nat
  /-- Commands waiting, oldest first (the model's own). -/
  pending : List Instr
  deriving DecidableEq, Repr

/-! ### Right after reset

Each definition below is its block with every field at the value its docstring names: the state a domain has when it first
reaches ON, and the state it returns to from OFF (R5, R461). -/

def checkerReset : Checker := { locked := false, inverted := false, bitErrors := 0, symErrors := 0, losses := 0 }

def prbsReset : Prbs :=
  { gen := 0, chk := 0, genPre := false, chkPre := false, inject := 3, injectArg := 0, checker := checkerReset }

def laneReset : Lane := { loop := 0, prbs := prbsReset }

/-- The entry of a lane at the default setting (R62, R63): c(-1) = -8, c(0) = +52, c(+1) = -4. -/
def laneEqReset (lane : Nat) : LaneEq := [BitVec.ofNat 8 lane, 0, 0, 0, 0xF8, 52, 0xFC, 0]

def pwrReset : Pwr :=
  { supplyGood := false, warn := false, recovering := false, events := 0
    doms := [(0, { st := .on, fromOff := false, everOn := true }), (1, { st := .on, fromOff := false, everOn := true })]
    wake := 0, warnings := 0, recoveries := 0, aon := 0, held := [], waking := [], sets := [], wave := 0
    vio := false, perst := true, txDisable := false, boots := 0 }

def glbReset : Glb := { changed := 0, mask := 0x3FFFFFF, error := 0, accessErr := 0, offDomain := 0, scratch := 0 }

def pcieReset : Pcie :=
  { linkUp := false, ready := false, d3hot := false, msixEnable := false, funcMask := false, vecs := [], testVector := 0 }

def mbxReset : Mbx :=
  { chans := [], events := 0, crossed := 0, discards := [], out := [], overflow := [], stalled := [], pend := []
    evSeq := 0, maskedEv := [] }

def areaReset : Area := { bytes := [], known := false, verified := false, passed := false, invalid := false }

/-- The configuration store at its factory setting (R260). -/
def storeReset : Store := { portMode := 1, emergency := false, lineStop := false, image := 0, seq := 0 }

def fwReset : Fw :=
  { running := false, mailbox := false, recovery := false, starter := none, first := 0, version := 0, image := 0, fallback := false
    started := false, binsLost := false, opened := none, closing := false, area0 := areaReset, area1 := areaReset
    store := storeReset, want := storeReset
    serial := 0, kId := List.replicate 32 0, starterVersion := 0 }

def lineReset : Line :=
  { rootLocked := false, los := true, calibrated := false, ctle := 8, fom := 0, taps := List.replicate 25 0
    prevTaps := List.replicate 25 0, preset := List.replicate 25 0, stepExp := 10, tracking := false, reverts := 0
    lineRx := false, laserCal := false, rogueCut := false, recalSinceCut := false, cuts := [], hostRelease := false
    laserOn := false, txReleased := none, loop := none, prbs := prbsReset, blockLock := false, autoSlip := true
    slipPos := 0, validHdrs := 0, lanes := [], eqTries := 0, eqReading := false, eqRaw := none, eqReady := false
    eqFromRom := false, carrierId := 0, eqEntries := (List.range 4).map laneEqReset }

def frmReset : Frm :=
  { lineSync := false, cands := [], syncPos := 0, misses := 0, frame := 0, haveFrame := false, crustOk := false, bip := 0, units := 0
    region := 0, rxNs := 0, rxFrac := 0, delineated := false, firstHdr := false, offset := 0, openTag := none, reasm := []
    crustBad := false, toCipher := [] }

def pfReset : Pf :=
  { st := .pf0, rejecting := false, tid := 0, preEqd := 0, eqd := 0, backoffMax := 7, skip := 0, profiles := []
    tRange := false, tAuth := false, tReject := false, tLoss := false, tHoldoff := false, nH := [], nT := []
    responded := false, recent := [], upSeq := 0, upQ := [], held := false, stopping := false, restored := 0
    warnFrame := 0, recFrame := 0, started := false }

def keReset : Ke :=
  { current := none, standby := none, old := none, first := none, lastE := none, announce := none, armed := 0
    commit := none, switchAt := none, retireAt := none, since := 0, expired := false }

def upReset : Up :=
  { grants := [], built := [], onAir := none, prevEnd := none, frags := [], control := [], ctlSeq := 0, rei := 0
    rdi := false, granted := [], shortGrant := [], blocks := [] }

def dsReset : Ds := { k := 6, frames := 0, errors := 0, declared := false }

def sliceReset : Slice := { page0 := [], page1 := [], sealed := false, valid := false, armed := false }

def circuitReset : Circuit :=
  { egress := none, ring := 0, q := 4, enabled := true, traceTx := [], traceExp := [], traceRx := [], traceCyc := []
    traceLast := [], traceRun := 0, gfp := .hunt, rxStream := [], lof := false, ais := false, rdi := false
    abort := false, ds := dsReset, runBad := 0, runSeq := 0, runGood := 0, runFi1 := 0, runFi0 := 0, runRdi1 := 0
    runRdi0 := 0, seen := none, bipPrev := none, lastBip := 0, bipUp := 0, ingress := [], egressQ := [], done := []
    rxScr := 0, txScr := 0, txRest := [], taken := [] }

def cirReset : Cir :=
  { slices := [], inited := 0, active := 0, circuits := [], announce := none, moduleArmed := false, commit := none, switchAt := none
    refuseUntil := none, abortAt := none, lof := true, lofGood := 0, ds := dsReset, relOrder := [] }

def binReset : Bin :=
  { start := 0, elapsed := 0, es := 0, ses := 0, bbe := 0, uas := 0, feEs := 0, feSes := 0, feBbe := 0, feUas := 0
    eb := 0, dsSeconds := 0, suspect := false, provisional := false, unlocked := false }

def availReset : Avail := { unavail := false, run := [] }

def perfReset : Perf :=
  { blocks := 0, errored := 0, defect := false, feErrored := 0, feDefect := false, broken := false, near := availReset, far := availReset
    cur15 := binReset, recent := [], cur24 := binReset, prev24 := none }

def histReset : Hist := { config := 0, bins := [], max := 0, invalid := [] }

def cntReset : Cnt :=
  { counters := [], invalid := [], latched := [], probes := [], ringBase := 0, wbAddr := 0, enable := false, slots := 0
    prod := 0, cons := 0, lost := 0, period := 0, seq := 0, dumpsLost := 0, lastStrobe := 0, stepped := false
    bridged := false, first := true, dump := none, hists := [], inited := false }

def discReset : Disc :=
  { mode := 0, small := 0, blank := 0, sigma := 0, theta := none, sum := 0, samples := 0, lastSamples := 0
    hostBound := 0xFFFFFFFF, baseUnc := 0, entryNs := 0, threshold := 1000, asym := 816, params := none
    heHoldover := false, ticks := 0, adjSegs := [] }

def tmuReset : Tmu :=
  { ns := 0, frac := 0, e := 0, adj := 0, st := .free, disc := discReset, released := false, aonNs := 0x1999999999A
    saved := none, events := 0, tsq := [], latches := [], burstStamps := 0, touts := [], ppsTime := 0, ppsDiff := 0
    ppsEdges := 0, ppsRunning := false, ppsDelay := 0, ppsTol := 1000 }

def versionReset : Version :=
  { st := .free, batch := 0, faulty := false, refs := 0, entry := List.replicate 5 none
    actions := [0, 0, 0], miss := List.replicate 5 (0, 0), commitAt := none }

def prsReset : Prs :=
  { engines := [], orderLine := [], orderClient := [], inLine := [], inClient := [], inRecirc := [], prog := []
    comps := [], pats := [], v0 := versionReset, v1 := versionReset, lastBatch := 0, committed := false }

def flowReset : Flow :=
  { slots := [], cam := [], seed := 0, seeded := false, newSeed := none, gen := false, p := 0, stalled := false
    auto := true, tags := [], inited := false, inLine := [], inClient := [] }

def shaperReset : Shaper :=
  { rate := 0xFFFFFFFF, burst := 16415, level := 0, at45 := 0, eligible := 0, cal := .none }

def tagsReset : Tags := { s := 0, f := 0, active := false, v := 0, vmax := 0 }

def queueReset : Queue :=
  { enable := false, parent := 0, cls := .bestEffort, weight := 1, shaper := shaperReset, limit := 4096, yellow := 2048
    lateDrop := false, tolerance := 0, acceptReport := false, ring := none, parked := false, tags := tagsReset
    frames := [], lastKey := 0 }

/-- A subscriber, service or port node with the defaults of R207. -/
def nodeReset : SNode :=
  { parent := 0, weight := 1, shaper := shaperReset, policer := 0x1FFFF, pfc := 0, parked := false
    assured := tagsReset, best := tagsReset }

/-- The port node of a host group at its default share (R207). -/
def groupNodeReset : SNode :=
  { nodeReset with shaper := { shaperReset with rate := 12500000, burst := 65536 } }

def policerReset : Policer :=
  { cir := 0, cbs := 0, eir := 0, ebs := 0, yellowDrop := false, tc := 0, te := 0, at45 := 0, parked := false }

def schReset : Sch :=
  { time45 := 0, queues := [], subs := [], svcs := [], ports := [], pols := [], reserve := 16384, shares := []
    inited := false, quads := 0, inLine := [], inClient := [] }

def admPortReset : AdmPort :=
  { enable := false, maxTimed := none, maxAhead := 10000, hostLat := 4, outRing := 0xFFF, old := none, until' := 0 }

def gsContractReset : GsContract :=
  { cur := none, next := none, old := none, deficit := 0, breaches := 0, short := false }

/-- A gate entry at reset: every gate open, interval 0 (R248). -/
def gateEntryReset : Word := BitVec.ofNat 64 0xE000000000000000

def gateListReset : GateList := { entries := [], cycle := 0, base := 0 }

def gateReset : Gate := { active := gateListReset, standby := [], next := none, waiting := [] }

def admReset : Adm := { ports := [], contracts := [], gates := [] }

def pauseReset : PauseSt := { timer := false, ignoring := false, xoff := false }

def cportReset : CPort :=
  { maxFrame := 16387, preTx := false, preRx := false, flow := 0, watchdog := 20, xoff := 8192, xon := 4096, noPause := 0
    up := false, amLock := false, hiSer := false, localFault := false, remoteFault := false, events := 0, fecOk := 0
    fecBad := 0, pauses := [], tx := [] }

def prtReset : Prt := { mode := 0, ports := [], filters := [] }

def keySlotReset : KeySlot := { st := .empty, key := [], gen := 1, usage := 0 }

def cphReset : Cph :=
  { slots := [], lineSlots := 2048, pairs := [], inited := false, held := false, owner := 0, vector := 0, timeout := 100
    events := 0, job := [], queue := [], jobsDone := 0, cores := [], saved := [], upWait := [], order := [], nextId := 0 }

/-- A transmit ring at reset: CT_THRESHOLD 64 (R377). -/
def txRingReset : Ring :=
  { descBase := 0, cplBase := 0, wbAddr := 0, ctrl := BitVec.ofNat 64 (64 * 2 ^ 24), st := .stopped, err := 0
    cfgRefused := false, waiting := false, prod := 0, done := 0, tail := 0, head := 0, good := 0, bad := 0, reserved := 0
    posted := [], next := 0, resv := [], delivery := [], tags := tagsReset }

/-- A receive ring at reset: HOLD 100 (R378). -/
def rxRingReset : Ring := { txRingReset with ctrl := BitVec.ofNat 64 (100 * 2 ^ 32) }

def dmaReset : Dma := { tx := [], rx := [], inited := false, sends := [], waits := [] }

def tapReset : TapAcc :=
  { octDown := 0, octUp := 0, kept := 0, brokenHe := 0, brokenLf := 0, brokenLp := 0, shortfall := 0, errored := false
    defect := false }

def tinReset : Tin :=
  { dev := none, link := false, bayOpen := false, map := List.replicate 64 0, accs := [], pushSeq := 0, snapAck := false, out := [] }

/-- The module right after reset: held in reset before supply good (R445), every field at the value its docstring names. -/
def State.reset : State :=
  { pwr := pwrReset, glb := glbReset, pcie := pcieReset, mbx := mbxReset, fw := fwReset, line := lineReset
    frm := frmReset, pf := pfReset, ke := keReset, up := upReset, cir := cirReset, perf := [], cnt := cntReset
    tmu := tmuReset, prs := prsReset, flw := flowReset, sch := schReset, adm := admReset, prt := prtReset
    cph := cphReset, dma := dmaReset, tin := tinReset, spent := [], out := [], free := 0, pending := [] }

end Sys2Proof.Machine
end

