-- ==== Sys2Proof/Machine/Ops.lean ====
section
/-! DEFINITION. Operations that every family shares: bit fields, byte sequences, tables, domains, event counters,
interrupts, access records. -/

namespace Sys2Proof.Machine

/-- The outcome of a command. -/
abbrev Res := Host.Outcome State Fault Refusal

/-! ### Bit fields and byte sequences (R3) -/

/-- Bits [hi:lo] of a word as a number. -/
def fld (w : Word) (hi lo : Nat) : Nat := (w.toNat >>> lo) % 2 ^ (hi + 1 - lo)

/-- Bit n of a word. -/
def bit (w : Word) (n : Nat) : Bool := w.getLsbD n

/-- A number of `bits` bits read as two's complement. -/
def signed (bits n : Nat) : Int := if n < 2 ^ (bits - 1) then (n : Int) else (n : Int) - (2 ^ bits : Nat)

/-- Bits [hi:lo] of a word read as two's complement. -/
def sfld (w : Word) (hi lo : Nat) : Int := signed (hi + 1 - lo) (fld w hi lo)

/-- The low `bits` bits of an integer, as a number. -/
def wrap (bits : Nat) (x : Int) : Nat := (x % (2 ^ bits : Nat)).toNat

/-- The reserved bits, those outside the mask, read as zero (R6, check 7 of R418). -/
def onlyBits (w : Word) (mask : Nat) : Bool := w &&& ~~~(BitVec.ofNat 64 mask) == 0

/-- A word from a number. -/
def word (n : Nat) : Word := BitVec.ofNat 64 n

/-- A field value put at bit `lo`. -/
def at' (n lo : Nat) : Nat := n <<< lo

/-- 1 for true. -/
def b2n (b : Bool) : Nat := if b then 1 else 0

/-- A little-endian byte sequence as a number (R3). -/
def leNat : List Byte → Nat
  | [] => 0
  | b :: r => b.toNat + 256 * leNat r

/-- A most-significant-byte-first byte sequence as a number (R3). -/
def beNat (l : List Byte) : Nat := l.foldl (fun a b => a * 256 + b.toNat) 0

/-- The `len` little-endian bytes of a number. -/
def natLe : Nat → Nat → List Byte
  | 0, _ => []
  | len + 1, n => BitVec.ofNat 8 n :: natLe len (n / 256)

/-- The `len` bytes of a number, most significant first. -/
def natBe (len n : Nat) : List Byte := (natLe len n).reverse

/-- Bytes [off, off + len) of a sequence. -/
def slice (l : List Byte) (off len : Nat) : List Byte := (l.drop off).take len

/-- Bytes at off as a number, most significant first. -/
def be (l : List Byte) (off len : Nat) : Nat := beNat (slice l off len)

/-- Bytes at off as a number, least significant first. -/
def le (l : List Byte) (off len : Nat) : Nat := leNat (slice l off len)

/-- Exactly `n` bytes: cut, or filled with zeros. -/
def pad (n : Nat) (l : List Byte) : List Byte := l.take n ++ List.replicate (n - l.length) 0

/-- The bytes that words carry: byte 0 in [7:0] of the first word (R417). -/
def wordsBytes (l : List Word) : List Byte := l.flatMap fun w => natLe 8 w.toNat

/-- The words that carry `n` words of bytes, byte 0 in [7:0] of the first (R417). -/
def bytesWords : Nat → List Byte → List Word
  | 0, _ => []
  | n + 1, l => word (leNat (l.take 8)) :: bytesWords n (l.drop 8)

/-! ### Tables -/

/-- The entry of a table at a number, `d` where none is listed. -/
def mget {α : Type} (d : α) : Map α → Nat → α
  | [], _ => d
  | (k, v) :: r, n => if k = n then v else mget d r n

/-- The canonical form of a table: keys strictly rising, no entry equal to the default. -/
def mwf {α : Type} [DecidableEq α] (d : α) : Map α → Bool
  | [] => true
  | [(_, v)] => v != d
  | (k, v) :: (k', v') :: r => v != d && decide (k < k') && mwf d ((k', v') :: r)

/-- An optional entry. -/
def mfind {α : Type} (m : Map α) (n : Nat) : Option α := (m.find? (·.1 == n)).map (·.2)

/-- The table with one entry put, no value being a default. -/
def minsert {α : Type} : Map α → Nat → α → Map α
  | [], n, v => [(n, v)]
  | (k, w) :: r, n, v => if n < k then (n, v) :: (k, w) :: r else if n = k then (n, v) :: r else (k, w) :: minsert r n v

/-- The table without one entry. -/
def merase {α : Type} (m : Map α) (n : Nat) : Map α := m.filter (·.1 != n)

/-- The table with one entry written; writing the default removes the entry. -/
def mput {α : Type} [DecidableEq α] (d : α) (m : Map α) (n : Nat) (v : α) : Map α :=
  if v = d then merase m n else minsert m n v

/-- Element n of a list, `d` past its end. -/
def nth {α : Type} (l : List α) (n : Nat) (d : α) : α := l.getD n d

/-! ### Power domains (R454, R455) -/

/-- A domain that supply good has not yet brought up (R451). -/
def domDown : Dom := { st := .off, fromOff := true, everOn := false }

def dom (s : State) (n : Nat) : Dom := mget domDown s.pwr.doms n

/-- A domain is ON; one that is changing counts as not ON (R454). -/
def on (s : State) (n : Nat) : Bool := (dom s n).st == .on

/-- A domain is leaving ON. -/
def leaving (s : State) (n : Nat) : Bool := (dom s n).st == .toRetain || (dom s n).st == .toOff

def setDom (n : Nat) (d : Dom) (s : State) : State :=
  { s with pwr := { s.pwr with doms := mput domDown s.pwr.doms n d } }

/-- The domains each domain requires, beside PD00 (R455). -/
def requires (n : Nat) : List Nat :=
  if n = 2 then [3, 6]
  else if n = 4 then [6]
  else if n = 5 then [4]
  else if n = 8 then [10]
  else if n = 11 then [9]
  else if n = 12 then [10, 13]
  else if n = 13 then [11]
  else if 14 ≤ n ∧ n ≤ 17 then [18]
  else if 35 ≤ n ∧ n ≤ 38 then [39]
  else if n = 47 then [46]
  else []

/-- Every domain of a list is ON. -/
def allOn (s : State) (l : List Nat) : Bool := l.all (on s)

/-! ### Event counters (R483-R491) -/

/-- The domain that holds the counter of an event (R486). -/
def evDom (ev inst : Nat) : Nat :=
  let b := ev / 256
  let e := ev % 256
  if b = 0x01 then 9
  else if b = 0x02 then 8
  else if b = 0x03 then
    if e = 0xF0 ∨ e = 0xF8 then (if inst = 4 then 12 else 11)
    else if e ≤ 0x0A ∨ (0x12 ≤ e ∧ e ≤ 0x16) then 11
    else if e = 0x17 ∨ e = 0x18 then 12
    else 13
  else if b = 0x04 then 13
  else if b = 0x05 then 39
  else if b = 0x06 then 40
  else if b = 0x07 then 41
  else if b = 0x08 then 41
  else if b = 0x09 then 18
  else if b = 0x0A then 5
  else if b = 0x0B then 46
  else if b = 0x0C then (if 0x40 ≤ e ∧ e ≤ 0x47 then 48 else 7)
  else if b = 0x0D then 0
  else 6

/-- How many instances each interface of R487 has, by sending block and interface number. -/
def ifaceInsts (b i : Nat) : Nat :=
  if b = 0x01 ∧ i = 0 then 1
  else if b = 0x03 ∧ i = 0 then 5
  else if b = 0x04 ∧ i = 0 then 16
  else if b = 0x04 ∧ i = 1 then 1
  else if b = 0x05 ∧ i = 0 then 1
  else if b = 0x06 ∧ i ≤ 1 then 1
  else if b = 0x07 ∧ i = 0 then 1
  else if b = 0x07 ∧ i = 1 then 4
  else if b = 0x07 ∧ i = 2 then 16
  else if b = 0x07 ∧ (i = 3 ∨ i = 4) then 2
  else if b = 0x08 ∧ i = 0 then 1
  else if b = 0x09 ∧ i = 0 then 4
  else if b = 0x0A ∧ i = 0 then 1
  else if b = 0x0B ∧ i ≤ 1 then 1
  else 0

/-- How many instances an event has, 0 for an event that R483-R489 do not define. -/
def evInsts (ev : Nat) : Nat :=
  let b := ev / 256
  let e := ev % 256
  if b = 0 ∨ 0x0E < b then 0
  else if e = 0xE0 ∨ e = 0xE1 then 1
  else if 0xF0 ≤ e ∧ e ≤ 0xF7 then ifaceInsts b (e - 0xF0)
  else if 0xF8 ≤ e ∧ e ≤ 0xFF then ifaceInsts b (e - 0xF8)
  else if e = 0 then 0
  else
    let listed :=
      if b = 0x01 then e ≤ 0x08
      else if b = 0x02 then e ≤ 0x05
      else if b = 0x03 then e ≤ 0x2B
      else if b = 0x04 then e ≤ 0x16
      else if b = 0x05 then e ≤ 0x10
      else if b = 0x06 then e ≤ 0x11
      else if b = 0x07 then e ≤ 0x0C ∨ (0x20 ≤ e ∧ e ≤ 0x23)
      else if b = 0x08 then e ≤ 0x19
      else if b = 0x09 then e ≤ 0x11
      else if b = 0x0A then e ≤ 0x11
      else if b = 0x0B then e ≤ 0x15
      else if b = 0x0C then e ≤ 0x12 ∨ (0x40 ≤ e ∧ e ≤ 0x47)
      else if b = 0x0D then e ≤ 0x0C
      else e ≤ 0x0C ∨ (0x20 ≤ e ∧ e ≤ 0x24) ∨ e = 0x30 ∨ e = 0x31
    if ¬ listed then 0
    else if b = 0x09 ∧ 0x04 ≤ e then 4
    else if b = 0x0E ∧ (e = 0x30 ∨ e = 0x31) then 10
    else 1

/-- The probe that follows nothing (R492). -/
def probeOff : Probe := { event := 0, enabled := false, value := 0, invalid := false }

/-- The key of a counter. -/
def evKey (ev inst : Nat) : Nat := 16 * ev + inst

/-- The value of an event counter. -/
def counter (s : State) (ev inst : Nat) : BitVec 64 := mget 0 s.cnt.counters (evKey ev inst)

/-- Every probe that follows the event takes its counts (R491). -/
def probesAdd (ev n : Nat) (p : Map Probe) : Map Probe :=
  p.map fun (k, pr) => (k, if pr.enabled && pr.event == ev then { pr with value := pr.value + BitVec.ofNat 64 n } else pr)

/-- An event is counted `n` times: its counter, in the domain that holds it, and the probes that follow it; nothing is
counted in a domain that is not ON (R484, R491). -/
def count (ev inst n : Nat) (s : State) : State :=
  if on s (evDom ev inst) then
    { s with cnt := { s.cnt with
      counters := mput 0 s.cnt.counters (evKey ev inst) (counter s ev inst + BitVec.ofNat 64 n)
      probes := if on s 48 then probesAdd ev n s.cnt.probes else s.cnt.probes } }
  else s

/-- An event of instance 0, counted once. -/
def ev (e : Nat) (s : State) : State := count e 0 1 s

/-- Units discarded toward a domain that is not ON (R20, R487). -/
def offDomainDiscard (block i inst n : Nat) (s : State) : State := count (block * 256 + 0xF8 + i) inst n s

/-! ### Free values -/

/-- A draw of the hardware random source. -/
def draw (s : State) : Word × State := (Config.hwRandom s.free, { s with free := s.free + 1 })

/-! ### What leaves the module -/

def emit (o : Out) (s : State) : State := { s with out := o :: s.out }

/-! ### Interrupts (R370-R374) -/

/-- A vector at reset (R361, R372). -/
def vecReset : Vec := { addr := 0, data := 0, masked := true, gap := 0, gapRunning := false, pending := false }

def vec (s : State) (v : Nat) : Vec := mget vecReset s.pcie.vecs v

def setVec (v : Nat) (x : Vec) (s : State) : State :=
  { s with pcie := { s.pcie with vecs := mput vecReset s.pcie.vecs v x } }

/-- The message of a vector is sent, and its GAP starts (R371). -/
def sendMsix (v : Nat) (s : State) : State :=
  let x := vec s v
  emit (.msix v x.addr x.data) (setVec v { x with pending := false, gapRunning := x.gap != 0 } s)

/-- A message can leave at once: the link is up in D0, and neither the function nor the vector is masked, nor is a gap
running (R360, R371, R374). -/
def canSend (s : State) (v : Nat) : Bool :=
  s.pcie.linkUp && on s 4 && !s.pcie.d3hot && !s.pcie.funcMask && !(vec s v).masked && !(vec s v).gapRunning

/-- A source raises its vector (R371). Vectors 6 and 7 are never raised (R370, R372). -/
def raise (v : Nat) (s : State) : State :=
  if s.pcie.msixEnable = false ∨ v = 6 ∨ v = 7 ∨ 2048 ≤ v then s
  else if canSend s v && !(vec s v).pending then sendMsix v s
  else setVec v { vec s v with pending := true } s

/-! ### Access records (R362, R368, R369, R464) -/

/-- A bit of GLB_ERROR is set, and vector 0 raised (R368). -/
def setError (n : Nat) (s : State) : State :=
  raise 0 { s with glb := { s.glb with error := s.glb.error ||| BitVec.ofNat 64 (2 ^ n) } }

/-- A record of R369 takes an access, or its FURTHER rises. -/
def takeRecord (r : BitVec 64) (offset : Nat) (write : Bool) (port code : Nat) : BitVec 64 :=
  if r.getLsbD 63 then
    if fld r 47 32 < 0xFFFF then r + BitVec.ofNat 64 (2 ^ 32) else r
  else
    BitVec.ofNat 64 (2 ^ 63 + code % 64 * 2 ^ 24 + port % 4 * 2 ^ 22 + b2n write * 2 ^ 21 + offset % 2 ^ 21)

/-- The number of a requester port (R29). -/
def reqNo : Req → Nat
  | .mgmt => 0
  | .host => 1
  | .jtag => 2

/-- GLB_ACCESS_ERR takes an access with a CODE of R369; its event is counted (R488). PD06 holds the record. -/
def accessErr (r : Req) (offset : Nat) (write : Bool) (code : Nat) (s : State) : State :=
  let evn := if code = 1 then 0x0E21 else if code = 2 then 0x0E22 else if code = 3 then 0x0E20
    else if code = 4 then 0x0E23 else 0x0E24
  if on s 6 then
    setError 0 (ev evn { s with glb := { s.glb with
      accessErr := takeRecord s.glb.accessErr offset write (reqNo r) code } })
  else s

/-- GLB_OFF_DOMAIN_ACCESS takes an access, and the supervisor counts it (R464, R467). -/
def offDomainRec (r : Req) (offset : Nat) (write : Bool) (domain : Nat) (s : State) : State :=
  let s1 := ev (if write then 0x0D09 else 0x0D08) s
  if on s1 6 then
    setError 1 { s1 with glb := { s1.glb with
      offDomain := takeRecord s1.glb.offDomain offset write (reqNo r) domain } }
  else s1

/-- An enumerated field written with an unlisted code: the write is dropped and logged (R7, R369). -/
def enumDrop (r : Req) (offset : Nat) (s : State) : State := accessErr r offset true 3 s

/-! ### Vectors of the event registers -/

/-- A bit of TMU_EVENTS is set and vector 3 raised, while PD07 is ON (R286). -/
def setTmuEvent (n : Nat) (s : State) : State :=
  raise 3 { s with tmu := { s.tmu with events := s.tmu.events ||| BitVec.ofNat 64 (2 ^ n) } }

/-- A bit of PWR_EVENTS is set and vector 4 raised (R453). -/
def setPwrEvent (n : Nat) (s : State) : State :=
  raise 4 { s with pwr := { s.pwr with events := s.pwr.events ||| BitVec.ofNat 64 (2 ^ n) } }

/-- A bit of MBX_EVENTS is set; bit 1 raises vector 2, every other vector 1 (R405). -/
def setMbxEvent (n : Nat) (s : State) : State :=
  raise (if n = 1 then 2 else 1)
    { s with mbx := { s.mbx with events := s.mbx.events ||| BitVec.ofNat 64 (2 ^ n) } }

end Sys2Proof.Machine
end

