-- ==== Sys2Proof/Machine/Channels.lean ====
section
/-! DEFINITION. Mailbox channels, the outbound queues of firmware, Ifeif results and events, and the one run of an
Ifeif command through the checks of R418. -/

namespace Sys2Proof.Machine

/-! ### Starting domains (R455, R458, R465) -/

/-- A domain that rests in RETAIN or OFF. -/
def asleep (s : State) (n : Nat) : Bool := (dom s n).st == .retain || (dom s n).st == .off

/-- A sleeping domain, all of whose requirements are ON, starts toward ON. -/
def startOn (s : State) (n : Nat) : State :=
  if asleep s n && allOn s (requires n) then setDom n { dom s n with st := .toOn } s else s

/-- A domain with everything it requires, the required ones first. -/
def closure : Nat → Nat → List Nat
  | 0, n => [n]
  | f + 1, n => (requires n).flatMap (closure f) ++ [n]

/-- Every domain that a wake is starting starts as soon as what it requires is ON. -/
def advanceWakes (s : State) : State :=
  let t := s.pwr.waking.foldl startOn s
  { t with pwr := { t.pwr with waking := t.pwr.waking.filter fun n => !on t n } }

/-- A domain, and every domain that it requires, is started toward ON; five levels are more than the table of R455 has. -/
def wakeUp (n : Nat) (s : State) : State :=
  advanceWakes { s with pwr := { s.pwr with waking := (s.pwr.waking ++ closure 5 n).eraseDups } }

/-! ### Accesses held by a wake (R465) -/

/-- The domains that may have wake-on-access (R465). -/
def wakeable : List Nat := [5, 7, 18, 46, 48]

/-- A DOMAIN_SET in progress names the domain. -/
def inSet (s : State) (n : Nat) : Bool := s.pwr.sets.any fun x => bit x.domains n

/-- An access to the domain is held: wake-on-access is enabled, the domain rests in RETAIN or OFF or a wake is bringing it
up, and no DOMAIN_SET in progress changes it or what it requires. -/
def holds (s : State) (d : Nat) : Bool :=
  wakeable.contains d && bit s.pwr.wake d && !on s d && (asleep s d || s.pwr.waking.contains d)
    && !(closure 5 d).any (inSet s)

/-- An access is held, and starts a wake where none runs. -/
def holdAccess (d : Nat) (a : Access) (s : State) : State :=
  let s1 := if s.pwr.waking.contains d then s else ev 0x0D0A s
  wakeUp d { s1 with pwr := { s1.pwr with held := (d, a) :: s1.pwr.held } }

/-! ### Channels (R400-R408) -/

/-- A channel at reset (R402-R404). -/
def chanReset : Chan :=
  { words := [], st := .empty, waking := false, postedSeq := 0, postedAt := 0
    ackValid := false, ackSeq := 0, ackNote := 0, ackCode := 0 }

def chan (s : State) (c : Nat) : Chan := mget chanReset s.mbx.chans c

def setChan (c : Nat) (x : Chan) (s : State) : State :=
  { s with mbx := { s.mbx with chans := mput chanReset s.mbx.chans c x } }

/-- Payload word w of a channel. -/
def chanWord (c : Chan) (w : Nat) : Word := mget 0 c.words w

/-- The first `n` payload words. -/
def chanWords (c : Chan) (n : Nat) : List Word := (List.range n).map (chanWord c)

/-- Words written from word `i` on. -/
def putWords : Nat → List Word → Map Word → Map Word
  | _, [], m => m
  | i, w :: r, m => putWords (i + 1) r (mput 0 m i w)

/-- The channel after an accepted doorbell (R406). -/
def posted (s : State) (x : Chan) : Chan :=
  { x with st := .posted, postedSeq := fld (chanWord x 0) 47 32, ackValid := false, postedAt := s.pwr.aon }

/-- The notification of the receiver: vector 1 for F2H channels, vector 2 for T2H channels (R406). -/
def notify (c : Nat) (s : State) : State :=
  if 8 ≤ c ∧ c ≤ 15 then raise 1 s else if c = 16 ∨ c = 17 then raise 2 s else s

/-- A message is posted on a channel that is not POSTED (R406). -/
def post (c : Nat) (s : State) : State := notify c (ev 0x0E01 (setChan c (posted s (chan s c)) s))

/-- A doorbell on a channel to firmware while PD02 is in RETAIN, or on its way into it, wakes PD02 (R408, R415). -/
def wakeMgmt (c : Nat) (s : State) : State :=
  let w (t : State) : State := setChan c { chan t c with waking := true } t
  match (dom s 2).st with
  | .retain => wakeUp 2 (w (ev 0x0E07 s))
  | .toRetain => w (ev 0x0E07 s)
  | _ => s

/-- The receiver's accepted acknowledgement (R404). -/
def acknowledge (c seq note code : Nat) (s : State) : State :=
  ev 0x0E02 (setChan c { chan s c with
    st := .acked, ackValid := true, ackSeq := seq % 2 ^ 16, ackNote := note % 2 ^ 16, ackCode := code % 2 ^ 16
    waking := false } s)

/-! ### Outbound messages of firmware (R412, R413) -/

def outQ (s : State) (n : Nat) : List OutMsg := mget [] s.mbx.out n

def setOutQ (n : Nat) (q : List OutMsg) (s : State) : State :=
  { s with mbx := { s.mbx with out := mput [] s.mbx.out n q } }

/-- Firmware runs and can use its channels: PD02, PD03 and PD06 ON, MAILBOX set (R366, R409). -/
def fwTalks (s : State) : Bool := on s 2 && on s 3 && on s 6 && s.fw.mailbox

/-- The oldest queued message goes out when F2Hn is EMPTY or ACKED (R412). -/
def trySend (n : Nat) (s : State) : State :=
  if fwTalks s && (chan s (8 + n)).st != .posted then
    match outQ s n with
    | [] => s
    | m :: r =>
      let c := chan s (8 + n)
      post (8 + n) (setChan (8 + n) { c with words := putWords 0 m.words c.words } (setOutQ n r s))
  else s

/-- An overflow of F2Hn begins, once (R413). -/
def beginOverflow (n : Nat) (s : State) : State :=
  if s.mbx.overflow.contains n then s
  else setMbxEvent (2 + n) (ev 0x0E0A { s with mbx := { s.mbx with overflow := n :: s.mbx.overflow } })

/-- Messages of F2Hn discarded (R413). -/
def discardOut (n k : Nat) (s : State) : State :=
  count 0x0E0B 0 k { s with mbx := { s.mbx with
    discards := mput 0 s.mbx.discards n ((mget 0 s.mbx.discards n + k) % 2 ^ 32) } }

/-- A message is queued for F2Hn, or discarded under R412 and R413, and sent when the channel allows. -/
def enqueueOut (n : Nat) (m : OutMsg) (s : State) : State :=
  let q := outQ s n
  if m.isResult then trySend n (setOutQ n (q ++ [m]) s)
  else if m.essential then
    if (q.filter fun x => x.essential && !x.isResult).length < 992 then trySend n (setOutQ n (q ++ [m]) s)
    else discardOut n 1 (beginOverflow n s)
  else if s.mbx.stalled.contains n then discardOut n 1 s
  else if (q.filter fun x => !x.essential).length < 256 then trySend n (setOutQ n (q ++ [m]) s)
  else discardOut n 1 (beginOverflow n s)

/-- Word 0 of a message on an F2H channel (R422). -/
def f2hWord (opcode seq len : Nat) (essential : Bool) (code : Nat) : Word :=
  word (at' (opcode % 2 ^ 16) 48 + at' (seq % 2 ^ 16) 32 + at' (len % 256) 24 + at' (b2n essential) 16 + code % 2 ^ 16)

/-- The result of a PENDING command is queued (R410, R422). -/
def sendResult (ch seq opcode code : Nat) (data : List Word) (s : State) : State :=
  enqueueOut ch { words := f2hWord opcode seq (1 + data.length) true code :: data, essential := true, isResult := true } s

/-! ### Events (R423-R425) -/

/-- The events that EVENT_MASK may suppress (R424, R425). -/
def maskableEvents : List Nat := [0x0403, 0x040B, 0x060C, 0x080E, 0x090D, 0x0C07]

/-- The essential events (R424). -/
def essentialEvents : List Nat :=
  [0x0202, 0x0319, 0x032A, 0x0404, 0x0414, 0x0415, 0x0416, 0x0510, 0x0605, 0x070C, 0x0816, 0x0817]

/-- Module time as an event carries it: zero while TIME is clear (R423). -/
def eventNs (s : State) : Word := if on s 7 then word s.tmu.ns else 0

/-- Firmware reports an event on F2H7, when it runs from a verified image with MAILBOX set and the event is not masked
(R423, R425). -/
def event (num : Nat) (data : List Word) (s : State) : State :=
  if fwTalks s && s.fw.running && !s.mbx.maskedEv.contains num then
    let ess := essentialEvents.contains num
    let m := f2hWord 0 s.mbx.evSeq.toNat (2 + data.length) ess num
    enqueueOut 7 { words := m :: eventNs s :: data, essential := ess, isResult := false }
      { s with mbx := { s.mbx with evSeq := s.mbx.evSeq + 1 } }
  else s

/-- An event is counted by its block and reported (R424). -/
def evReport (num : Nat) (data : List Word) (s : State) : State := event num data (ev num s)

/-! ### The configuration store (R449) -/

/-- Firmware writes the store: the flash takes the copy with the next sequence number, unless a warning holds. -/
def flushStore (s : State) : State :=
  if s.pwr.warn || { s.fw.want with seq := s.fw.store.seq } == s.fw.store then s
  else
    let x := { s.fw.want with seq := s.fw.store.seq + 1 }
    { s with fw := { s.fw with store := x, want := x } }

/-- A setting of the store changes. -/
def saveStore (f : Store → Store) (s : State) : State := flushStore { s with fw := { s.fw with want := f s.fw.want } }

/-! ### PENDING commands (R409, R420) -/

/-- A PENDING command ends with its result; it stays PENDING until the host acknowledges that (R409). -/
def finishPend (p : Pend) (code : Nat) (data : List Word) (s : State) : State :=
  sendResult p.ch p.seq p.opcode code data { s with mbx := { s.mbx with
    pend := s.mbx.pend.map fun q => if q.ch = p.ch ∧ q.seq = p.seq then { q with wait := .result } else q } }

/-- Every PENDING command that waits for `w` ends. -/
def finishWait (w : Wait) (code : Nat) (data : List Word) (s : State) : State :=
  (s.mbx.pend.filter fun p => p.wait == w).foldl (fun t p => finishPend p code data t) s

/-- A PENDING command waits for `w`. -/
def waiting (s : State) (w : Wait) : Bool := s.mbx.pend.any fun p => p.wait == w

/-! ### The run of a command (R417-R421) -/

/-- The answer of a command that passes every check (R420). -/
inductive Ans where
  /-- DONE. -/
  | done
  /-- A 0x4xxx note with its NOTE. -/
  | note (code note : Nat)
  /-- PENDING, the result following at once. -/
  | data (ws : List Word)
  /-- PENDING, the result following when this comes about. -/
  | pend (w : Wait)
  deriving DecidableEq, Repr

/-- One row of the catalogue. -/
structure IfCmd where
  opcode : Nat
  /-- LENGTH lies in the row's range (R545). -/
  len : List Word → Nat → Bool
  force : Bool := false
  /-- The domains that hold state the command reads or writes (check 5). -/
  domains : List Word → List Nat := fun _ => []
  /-- The readiness conditions of the catalogue (check 5). -/
  ready : State → List Word → Bool := fun _ _ => true
  /-- Every argument lies in its range, reserved bits zero (check 7). -/
  range : State → List Word → Bool := fun _ _ => true
  /-- The refusals of check 8: the code, and the refusal event counted. -/
  check : State → List Word → Option (Nat × Option Nat) := fun _ _ => none
  /-- The command needs the flash (R449). -/
  flash : Bool := false
  /-- The effect, with the channel of the command. -/
  effect : Nat → List Word → State → State × Ans

/-- A row of fixed words: exactly `n`. -/
def lenIs (n : Nat) : List Word → Nat → Bool := fun _ l => l == n

/-- The words of the message on a channel. -/
def msgWords (c : Chan) : List Word := chanWords c (fld (chanWord c 0) 31 24)

/-- Word n of a message. -/
def arg (ws : List Word) (n : Nat) : Word := nth ws n 0

/-- The opcodes that recovery executes (R471). -/
def recoveryOpcode (o : Nat) : Bool := o == 0x0101 || (0x0E01 ≤ o && o ≤ 0x0E05)

/-- The command waits for the flash (R449). -/
def Wait.isFlash : Wait → Bool
  | .flash _ => true
  | _ => false

/-- The refusal of a command, none when it passes every check (R418, R471). -/
def refusal (cmd : IfCmd) (ch : Nat) (ws : List Word) (len : Nat) (w0 : Word) (s : State) : Option (Nat × Option Nat) :=
  let mine := s.mbx.pend.filter fun p => p.ch = ch
  if s.fw.recovery && !recoveryOpcode cmd.opcode then some (0x8004, none)
  else if !(1 ≤ len && len ≤ 64 && cmd.len ws len) then some (0x8002, none)
  else if fld w0 23 18 != 0 || (bit w0 16 && !cmd.force) then some (0x8006, none)
  else if mine.any fun p => p.seq == fld w0 47 32 then some (0x8003, none)
  else if !(allOn s (cmd.domains ws) && cmd.ready s ws) then some (0x8004, none)
  else if 32 ≤ mine.length then some (0x8003, some 0x0E0C)
  else if !cmd.range s ws then some (0x8006, none)
  else match cmd.check s ws with
    | some r => some r
    | none =>
      -- while a warning holds, a second command on the same object waits for none (R421, R449)
      if cmd.flash && s.pwr.warn && s.mbx.pend.any fun p => p.opcode / 256 == cmd.opcode / 256 && p.wait.isFlash then
        some (0x8003, none)
      else none

/-- The answer of an accepted command is given (R420). -/
def answer (ch seq opcode : Nat) (a : Ans) (s : State) : State :=
  let pend (w : Wait) (t : State) : State :=
    { t with mbx := { t.mbx with pend := t.mbx.pend ++ [{ ch := ch, seq := seq, opcode := opcode, wait := w }] } }
  match a with
  | .done => acknowledge ch seq 0 0x0000 s
  | .note code note => acknowledge ch seq note code s
  | .data ws => sendResult ch seq opcode 0x0000 ws (pend .result (acknowledge ch seq 0 0x0001 s))
  | .pend w => pend w (acknowledge ch seq 0 0x0001 s)

/-- A command that waited for the flash proceeds (R449): its effect is made, and its result follows. -/
def proceed (cmd : IfCmd) (p : Pend) (ws : List Word) (s : State) : State :=
  let r := cmd.effect p.ch ws s
  match r.2 with
  | .done => finishPend p 0 [] r.1
  | .note code _ => finishPend p code [] r.1
  | .data d => finishPend p 0 d r.1
  | .pend w => { r.1 with mbx := { r.1.mbx with
      pend := r.1.mbx.pend.map fun q => if q.ch = p.ch ∧ q.seq = p.seq then { q with wait := w } else q } }

/-- Firmware can take a command with this opcode from the channel: a message is POSTED on H2Fch, names the opcode, and
firmware takes messages (R409). -/
def takes (s : State) (ch opcode : Nat) : Bool :=
  ch < 8 && fwTalks s && (chan s ch).st == .posted && fld (chanWord (chan s ch) 0) 63 48 == opcode

/-- Firmware takes the command of this row from the channel; with no such command POSTED nothing happens. -/
def runIf (cmd : IfCmd) (ch : Nat) (s : State) : State :=
  if takes s ch cmd.opcode then
    let c := chan s ch
    let w0 := chanWord c 0
    let ws := msgWords c
    let seq := fld w0 47 32
    match refusal cmd ch ws (fld w0 31 24) w0 s with
    | some (code, e) =>
      -- a CHECK_ONLY refusal counts no block refusal event (R419); 0x0E0C is a mailbox event
      let t := match e with
        | some n => if bit w0 17 && n != 0x0E0C then s else ev n s
        | none => s
      acknowledge ch seq 0 code t
    | none =>
      if bit w0 17 then acknowledge ch seq 0 0x4001 s
      else if cmd.flash && s.pwr.warn then answer ch seq cmd.opcode (.pend (.flash ws)) s
      else
        let r := cmd.effect ch ws s
        answer ch seq cmd.opcode r.2 r.1
  else s

end Sys2Proof.Machine
end

