-- ==== Sys2Proof/Machine/Buffer.lean ====
section
/-! DEFINITION. Queues, nodes, the cells of the packet buffer, credits, and the pause that ports assert (R17, R26,
R205-R211, R274). -/

namespace Sys2Proof.Machine

/-! ### Queues and nodes (R205-R207) -/

def queue (s : State) (q : Nat) : Queue := mget queueReset s.sch.queues q

def setQueue (q : Nat) (x : Queue) (s : State) : State :=
  { s with sch := { s.sch with queues := mput queueReset s.sch.queues q x } }

def subNode (s : State) (n : Nat) : SNode := mget nodeReset s.sch.subs n

def setSub (n : Nat) (x : SNode) (s : State) : State :=
  { s with sch := { s.sch with subs := mput nodeReset s.sch.subs n x } }

def svcNode (s : State) (n : Nat) : SNode := mget nodeReset s.sch.svcs n

def setSvc (n : Nat) (x : SNode) (s : State) : State :=
  { s with sch := { s.sch with svcs := mput nodeReset s.sch.svcs n x } }

/-- A port node at reset: host groups shape to their default share (R207). -/
def portReset (n : Nat) : SNode := if 68 ≤ n ∧ n ≤ 83 then groupNodeReset else nodeReset

def portNode (s : State) (n : Nat) : SNode := mget (portReset n) s.sch.ports n

def setPort (n : Nat) (x : SNode) (s : State) : State :=
  { s with sch := { s.sch with ports := mput (portReset n) s.sch.ports n x } }

/-- The service node above a queue. -/
def svcOf (s : State) (q : Nat) : Nat := (subNode s (queue s q).parent).parent

/-- The port node that a queue leads to (R205). -/
def portOf (s : State) (q : Nat) : Nat := (svcNode s (svcOf s q)).parent

/-- A host group's port node. -/
def isGroup (n : Nat) : Bool := 68 ≤ n && n ≤ 83

/-- A client port's node. -/
def isClient (n : Nat) : Bool := 64 ≤ n && n ≤ 67

/-! ### Circuits, ports, rings by number -/

def circ (s : State) (c : Nat) : Circuit := mget circuitReset s.cir.circuits c

def setCirc (c : Nat) (x : Circuit) (s : State) : State :=
  { s with cir := { s.cir with circuits := mput circuitReset s.cir.circuits c x } }

def cport (s : State) (n : Nat) : CPort := mget cportReset s.prt.ports n

def setCport (n : Nat) (x : CPort) (s : State) : State :=
  { s with prt := { s.prt with ports := mput cportReset s.prt.ports n x } }

/-! ### Cells and quadrants (R26, R211) -/

/-- Cells that a frame takes (R211). -/
def cells (p : Packet) : Nat := (p.bytes.length + 255) / 256

def cellsOf (l : List Packet) : Nat := (l.map cells).sum

/-- Every frame whose cells lie in the buffer: queued, for a ring, for a circuit, or leaving. -/
def buffered (s : State) : List Packet :=
  (s.sch.queues.flatMap fun e => e.2.frames)
    ++ (s.dma.rx.flatMap fun e => e.2.delivery ++ e.2.resv.map (·.packet))
    ++ (s.cir.circuits.flatMap fun e => e.2.ingress ++ e.2.egressQ)
    ++ (s.prt.ports.flatMap fun e => e.2.tx)

/-- Free cells of a quadrant of 163,840 (R26). -/
def freeCells (s : State) (k : Nat) : Nat :=
  163840 - cellsOf ((buffered s).filter fun p => p.quadrant == k)

/-- BUFFER of a quadrant (R26, R366). -/
def quadReady (s : State) (k : Nat) : Bool := on s (42 + k) && s.sch.quads.getLsbD k

/-- The quadrant for an arriving frame: ready, with the most free cells, the lowest on a tie (R26). -/
def chooseQuad (s : State) : Option Nat :=
  (List.range 4).foldl (fun best k =>
    if quadReady s k then
      match best with
      | none => some k
      | some b => if freeCells s b < freeCells s k then some k else best
    else best) none

/-- SCHED (R210, R366). -/
def schedReady (s : State) : Bool := on s 41 && s.sch.inited

/-! ### Credits (R17-R20) -/

/-- The key of an interface of R487. -/
def ifaceKey (block i inst : Nat) : Nat := (block * 8 + i) * 16 + inst

/-- Credits spent on an interface and not yet returned. -/
def creditsSpent (s : State) (key : Nat) : Nat := mget 0 s.spent key

/-- The sender holds a credit (R17). -/
def hasCredit (s : State) (key : Nat) : Bool := creditsSpent s key < Config.queueDepth key

def spend (key n : Nat) (s : State) : State :=
  { s with spent := mput 0 s.spent key (creditsSpent s key + n) }

/-- 64-byte beats of a frame (R17). -/
def beats (p : Packet) : Nat := (p.bytes.length + 63) / 64

/-- The domain of the receiver of an interface (R487, R455). -/
def receiverDom (block i inst : Nat) : Nat :=
  if block = 0x01 then 11
  else if block = 0x03 then (if inst = 0 then 13 else if inst = 1 then 13 else if inst = 2 then 46
    else if inst = 3 then 39 else 10)
  else if block = 0x04 then (if i = 0 then 19 + inst else 41)
  else if block = 0x05 then 40
  else if block = 0x06 then (if i = 0 then 41 else 13)
  else if block = 0x07 then
    (if i = 0 then 12 else if i = 1 then 18 else if i = 2 then 5 else if i = 3 then (if inst = 0 then 2 else 39) else 39)
  else if block = 0x08 then 41
  else if block = 0x09 then 39
  else if block = 0x0A then 39
  else if i = 0 then 39
  else 12

/-- Every interface of R487. -/
def ifaces : List (Nat × Nat × Nat) :=
  (List.range 12).flatMap fun b => (List.range 5).flatMap fun i => (List.range (ifaceInsts b i)).map fun n => (b, i, n)

/-- The credits toward a receiver that reaches ON equal its queue's depth again (R17, R20). -/
def restoreCredits (d : Nat) (s : State) : State :=
  (ifaces.filter fun x => receiverDom x.1 x.2.1 x.2.2 == d).foldl (fun t x =>
    { t with spent := mput 0 t.spent (ifaceKey x.1 x.2.1 x.2.2) 0 }) s

/-! ### Pause toward the partner (R274) -/

/-- PFC mode counts per priority, PAUSE mode one class. -/
def pauseClass (c : CPort) (p : Packet) : Nat := if c.flow = 2 then p.pcp else 0

/-- Cells held by non-timed frames that arrived on the port, of one class (R274). -/
def pauseCells (s : State) (n : Nat) (c : CPort) (prio : Nat) : Nat :=
  cellsOf ((buffered s).filter fun p =>
    p.firstKind == .client && p.index == n && p.cls != .timed && pauseClass c p == prio)

def pauseReset' (c : CPort) (prio : Nat) : PauseSt := mget pauseReset c.pauses prio

/-- A pause or PFC frame is sent (R274, R280). -/
def sendPause (n prio quanta : Nat) (s : State) : State :=
  let c := cport s n
  let e : BitVec 8 := if c.flow = 2 then BitVec.ofNat 8 (2 ^ prio) else 0
  let q := if c.flow = 2 then (List.range 8).map fun k => if k = prio then quanta else 0 else [quanta]
  count 0x090C n 1 (emit (.pauseFrame n (c.flow == 2) e q) s)

/-- One class of one port is judged against XOFF_CELLS and XON_CELLS (R274). -/
def judgePause (n prio : Nat) (s : State) : State :=
  let c := cport s n
  let st := pauseReset' c prio
  let held := pauseCells s n c prio
  let masked := c.flow == 2 && c.noPause.getLsbD prio
  let put (b : Bool) := setCport n { c with pauses := mput pauseReset c.pauses prio { st with xoff := b } } s
  if !st.xoff && c.xoff < held && !masked then sendPause n prio 0xFFFF (put true)
  else if st.xoff && held ≤ c.xon then sendPause n prio 0 (put false)
  else s

/-- The pause that each port asserts follows the cells it counts (R274). -/
def pauseFollows (s : State) : State :=
  (List.range 4).foldl (fun t n =>
    let c := cport t n
    if c.flow = 0 || !c.up then t
    else (List.range (if c.flow = 2 then 8 else 1)).foldl (fun u prio => judgePause n prio u) t) s

end Sys2Proof.Machine
end

