-- ==== Sys2Proof/Machine/Crc.lean ====
section
/-! DEFINITION. The cyclic codes of the line, the flow table and the dumps (R76, R81, R86, R135, R136, R180). -/

namespace Sys2Proof.Machine

/-- One bit of a reflected CRC of 32 bits. -/
def crcR1 (poly c : BitVec 32) : BitVec 32 := if c.getLsbD 0 then (c >>> 1) ^^^ poly else c >>> 1

/-- One byte of a reflected CRC of 32 bits. -/
def crcR8 (poly c : BitVec 32) (b : Byte) : BitVec 32 :=
  (List.range 8).foldl (fun x _ => crcR1 poly x) (c ^^^ b.zeroExtend 32)

/-- A reflected CRC of 32 bits with a complemented result. -/
def crcReflected (poly init : BitVec 32) (l : List Byte) : BitVec 32 := ~~~(l.foldl (crcR8 poly) init)

/-- CRC-32C with a given initial value (R180). -/
def crc32c (init : BitVec 32) (l : List Byte) : BitVec 32 := crcReflected 0x82F63B78 init l

/-- CRC-32 of IEEE 802.3 (R76). -/
def crc32 (l : List Byte) : BitVec 32 := crcReflected 0xEDB88320 0xFFFFFFFF l

/-- A CRC of `w` bits, most significant bit first, over the bits of bytes. -/
def crcMsb (w poly init : Nat) (l : List Byte) : Nat :=
  l.foldl (fun c b =>
    (List.range 8).foldl (fun x k =>
      let inb := b.getLsbD (7 - k)
      let top := x / 2 ^ (w - 1) % 2 == 1
      let y := x * 2 % 2 ^ w
      if inb != top then y ^^^ poly else y) c) init

/-- The CRC-8 of a grant entry (R81). -/
def crc8 (l : List Byte) : Nat := crcMsb 8 0x07 0 l

/-- The CRC-16 of a channel-tag header (R86): initial value 0xFFFF. -/
def crc16h (l : List Byte) : Nat := crcMsb 16 0x1021 0xFFFF l

/-- The CRC-16 of GFP core and type headers (R136): initial value 0, per G.7041. -/
def crc16g (l : List Byte) : Nat := crcMsb 16 0x1021 0 l

/-- The CRC-7 of a path trace (R135). -/
def crc7 (l : List Byte) : Nat := crcMsb 7 0x09 0 l

/-- The Ethernet FCS of a frame, as its four bytes in the order sent. -/
def fcs (l : List Byte) : List Byte := natLe 4 (crc32 l).toNat

end Sys2Proof.Machine
end

