-- ==== Sys2Proof/Machine/Aes.lean ====
section
/-! DEFINITION. AES-256 and its uses: CMAC, CTR, GCM, key unwrap, and the key derivation of R115 (R314, R330, R346). -/

namespace Sys2Proof.Machine

/-! ### The block cipher (FIPS 197) -/

/-- Multiplication by x in GF(2^8). -/
def xtime (a : Byte) : Byte := if a.getLsbD 7 then (a <<< 1) ^^^ 0x1B else a <<< 1

/-- Multiplication in GF(2^8). -/
def gmul (a b : Byte) : Byte :=
  ((List.range 8).foldl (fun (st : Byte × Byte) k =>
    (if b.getLsbD k then st.1 ^^^ st.2 else st.1, xtime st.2)) (0, a)).1

/-- a^254, the inverse of a. -/
def ginv (a : Byte) : Byte :=
  let sq (x : Byte) := gmul x x
  let a2 := sq a
  let a3 := gmul a2 a
  let a6 := sq a3
  let a7 := gmul a6 a
  let a14 := sq a7
  let a15 := gmul a14 a
  let a30 := sq a15
  let a31 := gmul a30 a
  let a62 := sq a31
  let a63 := gmul a62 a
  let a126 := sq a63
  let a127 := gmul a126 a
  sq a127

def sboxOf (a : Byte) : Byte :=
  let b := ginv a
  b ^^^ b.rotateLeft 1 ^^^ b.rotateLeft 2 ^^^ b.rotateLeft 3 ^^^ b.rotateLeft 4 ^^^ 0x63

def sboxTable : Array Byte := ((List.range 256).map fun n => sboxOf (BitVec.ofNat 8 n)).toArray

def sbox (a : Byte) : Byte := sboxTable.getD a.toNat 0

/-- The inverse of the affine step and of the S-box. -/
def invSboxOf (a : Byte) : Byte := ginv (a.rotateLeft 1 ^^^ a.rotateLeft 3 ^^^ a.rotateLeft 6 ^^^ 0x05)

def invSboxTable : Array Byte := ((List.range 256).map fun n => invSboxOf (BitVec.ofNat 8 n)).toArray

def invSbox (a : Byte) : Byte := invSboxTable.getD a.toNat 0

def xorB (a b : List Byte) : List Byte := List.zipWith (· ^^^ ·) a b

def groups4 : Nat → List Byte → List (List Byte)
  | 0, _ => []
  | n + 1, l => l.take 4 :: groups4 n (l.drop 4)

/-- Round constants. -/
def rcon : Nat → Byte
  | 0 => 1
  | n + 1 => xtime (rcon n)

/-- The words of the key schedule from number `i` on, given the last eight, newest first. -/
def expandKey : Nat → Nat → List (List Byte) → List (List Byte) → List (List Byte)
  | 0, _, _, acc => acc.reverse
  | fuel + 1, i, last8, acc =>
    let prev := last8.headD []
    let old := last8.getD 7 []
    let t :=
      if i % 8 = 0 then
        let r := (prev.drop 1 ++ prev.take 1).map sbox
        xorB r [rcon (i / 8 - 1), 0, 0, 0]
      else if i % 8 = 4 then prev.map sbox
      else prev
    let w := xorB old t
    expandKey fuel (i + 1) (w :: last8.take 7) (w :: acc)

/-- The fifteen round keys of a 32-byte key. -/
def roundKeys (key : List Byte) : List (List Byte) :=
  let ws := groups4 8 (pad 32 key)
  let all := ws ++ expandKey 52 8 ws.reverse []
  (List.range 15).map fun r => (all.drop (4 * r)).take 4 |>.flatten

def shiftRows (s : List Byte) : List Byte := (List.range 16).map fun i => s.getD ((i + 4 * (i % 4)) % 16) 0

def invShiftRows (s : List Byte) : List Byte := (List.range 16).map fun i => s.getD ((i + 16 - 4 * (i % 4)) % 16) 0

def mixCol (m : List Byte) (c : List Byte) : List Byte :=
  (List.range 4).map fun r => ((List.range 4).map fun k => gmul (m.getD ((k + 4 - r) % 4) 0) (c.getD k 0)).foldl (· ^^^ ·) 0

def mixCols (m : List Byte) (s : List Byte) : List Byte := ((groups4 4 s).map (mixCol m)).flatten

/-- One block encrypted under expanded keys. -/
def aesBlock (rk : List (List Byte)) (b : List Byte) : List Byte :=
  let s0 := xorB b (rk.getD 0 [])
  let s13 := (List.range 13).foldl (fun s r => xorB (mixCols [2, 3, 1, 1] (shiftRows (s.map sbox))) (rk.getD (r + 1) [])) s0
  xorB (shiftRows (s13.map sbox)) (rk.getD 14 [])

/-- One block decrypted under expanded keys. -/
def aesInvBlock (rk : List (List Byte)) (b : List Byte) : List Byte :=
  let s0 := xorB b (rk.getD 14 [])
  let s13 := (List.range 13).foldl (fun s r =>
    mixCols [14, 11, 13, 9] (xorB ((invShiftRows s).map invSbox) (rk.getD (13 - r) []))) s0
  xorB ((invShiftRows s13).map invSbox) (rk.getD 0 [])

/-! ### CMAC (SP 800-38B) -/

/-- Blocks of 16 bytes, the last possibly short. -/
def blocks16 : Nat → List Byte → List (List Byte)
  | 0, _ => []
  | n + 1, l => if l.isEmpty then [] else l.take 16 :: blocks16 n (l.drop 16)

def chunk16 (l : List Byte) : List (List Byte) := blocks16 (l.length / 16 + 1) l

/-- Doubling in GF(2^128) for the CMAC subkeys. -/
def dbl128 (l : List Byte) : List Byte :=
  let n := beNat l
  natBe 16 (if n < 2 ^ 127 then 2 * n else (2 * n % 2 ^ 128) ^^^ 0x87)

/-- CMAC of a message, 16 bytes. -/
def cmac (key msg : List Byte) : List Byte :=
  let rk := roundKeys key
  let l := aesBlock rk (List.replicate 16 0)
  let k1 := dbl128 l
  let k2 := dbl128 k1
  let bs := chunk16 msg
  let full := bs.dropLast
  let lastB := bs.getLastD []
  let last := if lastB.length = 16 then xorB lastB k1 else xorB (pad 16 (lastB ++ [0x80])) k2
  let x := full.foldl (fun c b => aesBlock rk (xorB c b)) (List.replicate 16 0)
  aesBlock rk (xorB x last)

/-- The bytes of an ASCII label. -/
def ascii (t : String) : List Byte := t.toList.map fun c => BitVec.ofNat 8 c.toNat

/-- The derivation of R115. -/
def kdf (key : List Byte) (label : String) (ctx : List Byte) : List Byte :=
  let tail := ascii label ++ [0] ++ ctx ++ [0x01, 0x00]
  cmac key (1 :: tail) ++ cmac key (2 :: tail)

/-! ### CTR and GCM (SP 800-38A, SP 800-38D) -/

/-- Counter blocks `iv` with the low 32 bits counting from `c`, combined with the data. -/
def ctrFrom (rk : List (List Byte)) (iv : List Byte) : Nat → List (List Byte) → List Byte
  | _, [] => []
  | c, b :: r => xorB b (aesBlock rk (iv ++ natBe 4 (c % 2 ^ 32))) ++ ctrFrom rk iv (c + 1) r

/-- CTR mode of R330. -/
def aesCtr (key iv data : List Byte) : List Byte := ctrFrom (roundKeys key) (pad 12 iv) 0 (chunk16 data)

/-- Multiplication in GF(2^128) as GHASH has it: bit 127 of a number is the first bit. -/
def gf128 (x y : Nat) : Nat :=
  ((List.range 128).foldl (fun (st : Nat × Nat) k =>
    (if x.testBit (127 - k) then st.1 ^^^ st.2 else st.1,
     if st.2 % 2 = 1 then (st.2 / 2) ^^^ (0xE1 * 2 ^ 120) else st.2 / 2)) (0, y)).1

/-- GHASH over 16-byte blocks. -/
def ghash (h : Nat) (bs : List (List Byte)) : Nat := bs.foldl (fun y b => gf128 (y ^^^ beNat (pad 16 b)) h) 0

/-- The GCM tag of AAD and ciphertext. -/
def gcmTag (rk : List (List Byte)) (iv aad ct : List Byte) : List Byte :=
  let h := beNat (aesBlock rk (List.replicate 16 0))
  let lens := natBe 8 (8 * aad.length) ++ natBe 8 (8 * ct.length)
  let s := ghash h (chunk16 aad ++ chunk16 ct ++ [lens])
  xorB (natBe 16 s) (aesBlock rk (iv ++ [0, 0, 0, 1]))

/-- GCM encryption: ciphertext and 16-byte tag. -/
def gcmEncrypt (key iv aad pt : List Byte) : List Byte × List Byte :=
  let rk := roundKeys key
  let ct := ctrFrom rk (pad 12 iv) 2 (chunk16 pt)
  (ct, gcmTag rk (pad 12 iv) aad ct)

/-- GCM decryption: the plaintext, where the tag matches. -/
def gcmDecrypt (key iv aad ct tag : List Byte) : Option (List Byte) :=
  let rk := roundKeys key
  if gcmTag rk (pad 12 iv) aad ct = tag then some (ctrFrom rk (pad 12 iv) 2 (chunk16 ct)) else none

/-! ### Key unwrap (SP 800-38F) -/

/-- One step of AES-KW inverse, for counter `t` on block `i` of the four. -/
def kwStep (rk : List (List Byte)) (st : List Byte × List (List Byte)) (t : Nat) : List Byte × List (List Byte) :=
  let i := (t - 1) % 4
  let b := aesInvBlock rk (xorB st.1 (natBe 8 t) ++ st.2.getD i [])
  (b.take 8, st.2.set i (b.drop 8))

/-- A 32-byte key unwrapped from 40 bytes, none where the integrity check fails. -/
def kwUnwrap (key c : List Byte) : Option (List Byte) :=
  let rk := roundKeys key
  let r := (List.range 4).map fun i => slice c (8 + 8 * i) 8
  let x := (List.range 24).foldl (fun st k => kwStep rk st (24 - k)) (c.take 8, r)
  if c.length = 40 ∧ x.1 = List.replicate 8 0xA6 then some x.2.flatten else none

end Sys2Proof.Machine
end

