-- ==== Sys2Proof/Machine/Keys.lean ====
section
/-! DEFINITION. The key store: slots, generations, loads and erasures, and the line keys of the encrypted tags
(R115, R187, R319-R322). -/

namespace Sys2Proof.Machine

/-! ### Slots (R319, R320) -/

def keySlot (s : State) (n : Nat) : KeySlot := mget keySlotReset s.cph.slots n

def setKeySlot (n : Nat) (k : KeySlot) (s : State) : State :=
  { s with cph := { s.cph with slots := mput keySlotReset s.cph.slots n k } }

/-- The next generation: 0xFFFF is followed by 1 (R320). -/
def nextGen (g : Nat) : Nat := if g = 0xFFFF then 1 else g + 1

/-- The system slots: K_AUTH, K_S, the K_E of each epoch bit, the control tag's pair (R319; their places log 21). -/
def slotAuth : Nat := 4032

def slotSess : Nat := 4033

def slotEpoch (b : Bool) : Nat := 4034 + b2n b

def slotControl (b : Bool) : Nat := 4036 + b2n b

/-- The first slot of the line range (R319). -/
def lineFirst (s : State) : Nat := 4032 - s.cph.lineSlots

/-- A slot of the host's range (R319). -/
def hostSlot (s : State) (n : Nat) : Bool := n < lineFirst s

/-- A slot is loaded or rewritten (R320, R321). -/
def loadKey (n usage : Nat) (key : List Byte) (s : State) : State :=
  ev 0x0B13 (setKeySlot n { st := .loaded, key := pad 32 key, gen := nextGen (keySlot s n).gen, usage := usage } s)

/-- A unit in a core, or a saved job, captured a key of the slot (R322, R323). -/
def keyInUse (s : State) (n : Nat) : Bool := (s.cph.cores.any fun e => e.2.slot == n) || s.cph.saved.any fun u => u.slot == n

/-- A draining slot is zeroised and becomes EMPTY; the erase that waits for it ends (R320, R322). -/
def finishErase (n : Nat) (s : State) : State :=
  finishWait (.keyErase n) 0 [] (ev 0x0B14
    (setKeySlot n { st := .empty, key := [], gen := nextGen (keySlot s n).gen, usage := 0 } s))

/-- A slot that holds a key drains; with no user it is EMPTY at once (R322). -/
def eraseKey (n : Nat) (s : State) : State :=
  if (keySlot s n).st = .loaded then
    let s1 := setKeySlot n { keySlot s n with st := .draining } s
    if keyInUse s1 n then s1 else finishErase n s1
  else s

/-- A slot's key, where it is LOADED. -/
def loadedKey (s : State) (n : Nat) : Option (List Byte) :=
  if (keySlot s n).st = .loaded then some (keySlot s n).key else none

/-! ### The tag map (R187) -/

/-- A tag-map entry, none where no entry is valid. -/
def tagEntry (s : State) (tag : Nat) : Option Word := mfind s.flw.tags tag

def tagDown (w : Word) : Bool := bit w 42

def tagUp (w : Word) : Bool := bit w 41

def tagEncrypt (w : Word) : Bool := bit w 40

def tagTarget (w : Word) : Nat := fld w 39 38

/-- The control tag of the module's terminal ID (R140). -/
def controlTag (s : State) : Nat := 0xFFE00 + s.pf.tid

/-- The control tag is installed: from entry to PF5 to leaving it (R140). -/
def controlHeld (s : State) : Bool := s.pf.st == .pf5

/-- The line key slot of an encrypted tag for an epoch bit (R317, R319). -/
def lineSlot (s : State) (tag : Nat) (b : Bool) : Option Nat :=
  if controlHeld s && tag == controlTag s then some (slotControl b)
  else (mfind s.cph.pairs tag).map (· + b2n b)

/-- A free pair of the line range: both slots EMPTY, held by no tag. -/
def freePair (s : State) : Option Nat :=
  (((List.range (s.cph.lineSlots / 2)).map fun k => lineFirst s + 2 * k).find? fun n =>
    (keySlot s n).st == .empty && (keySlot s (n + 1)).st == .empty && !(s.cph.pairs.any fun e => e.2 == n))

/-! ### Line keys (R115, R117-R122) -/

/-- The key of a channel tag in an epoch (R115). -/
def tagKey (kE : List Byte) (tag : Nat) : List Byte := kdf kE "CHNL-TAG" (natBe 3 tag)

/-- The encrypted tags of the tag map. -/
def encryptedTags (s : State) : List Nat := (s.flw.tags.filter fun e => tagEncrypt e.2).map (·.1)

/-- The key of a tag for an epoch bit is derived and loaded, unless its slot still drains (R115, R319). -/
def loadTagKey (b : Bool) (s : State) (tag : Nat) : State :=
  match lineSlot s tag b, loadedKey s (slotEpoch b) with
  | some n, some kE => if (keySlot s n).st = .draining then s else loadKey n 0 (tagKey kE tag) s
  | _, _ => s

/-- The keys of every encrypted tag for an epoch bit are derived and loaded. -/
def loadEpochKeys (b : Bool) (s : State) : State := (encryptedTags s).foldl (loadTagKey b) s

/-- Every encrypted tag holds a key for the epoch bit (R119). -/
def epochKeysLoaded (s : State) (b : Bool) : Bool :=
  (encryptedTags s).all fun t =>
    match lineSlot s t b with
    | some n => (keySlot s n).st == .loaded
    | none => false

/-- The line key of a tag under one epoch bit is erased. -/
def eraseTagKey (b : Bool) (s : State) (tag : Nat) : State :=
  match lineSlot s tag b with
  | some n => eraseKey n s
  | none => s

/-- The K_E and the line keys of an epoch bit are erased (R120, R122). -/
def eraseEpochKeys (b : Bool) (s : State) : State :=
  eraseKey (slotEpoch b) ((encryptedTags s).foldl (eraseTagKey b) s)

/-- The epoch bits whose keys are to exist for a new tag: the one in force, the standby one, the old one. -/
def liveBits (s : State) : List Bool :=
  (match s.ke.current with | some e => [e.bit] | none => []) ++ (match s.ke.standby with | some e => [e.bit] | none => [])
    ++ (match s.ke.old with | some e => [e.bit] | none => [])

/-- An encrypted tag receives its pair of slots and its keys (R319). -/
def installTagKeys (tag : Nat) (s : State) : State := (liveBits s).foldl (fun t b => loadTagKey b t tag) s

/-- A tag's entry is written, with a pair of line slots where it is encrypted and has none yet; the pair of an entry that
is no longer encrypted is erased (R187, R319). -/
def writeTag (tag : Nat) (w : Word) (s : State) : State :=
  let s1 := { s with flw := { s.flw with tags := minsert s.flw.tags tag w } }
  if controlHeld s && tag == controlTag s then installTagKeys tag s1
  else
    match mfind s1.cph.pairs tag, tagEncrypt w with
    | none, true =>
      match freePair s1 with
      | some n => installTagKeys tag { s1 with cph := { s1.cph with pairs := minsert s1.cph.pairs tag n } }
      | none => s1
    | some n, false =>
      let s2 := eraseKey (n + 1) (eraseKey n s1)
      { s2 with cph := { s2.cph with pairs := merase s2.cph.pairs tag } }
    | _, _ => s1

/-- A tag's entry is removed: its open reassembly context is discarded and its pair erased (R187, R319). -/
def removeTag (tag : Nat) (s : State) : State :=
  let s1 := if (mfind s.frm.reasm tag).isSome then
      ev 0x0315 { s with frm := { s.frm with reasm := merase s.frm.reasm tag } }
    else s
  let s2 := match lineSlot s1 tag false with
    | some n => eraseKey (n + 1) (eraseKey n s1)
    | none => s1
  { s2 with
    cph := { s2.cph with pairs := merase s2.cph.pairs tag }
    flw := { s2.flw with tags := merase s2.flw.tags tag } }

end Sys2Proof.Machine
end

