-- ==== Sys2Proof/Machine/FlowTable.lean ====
section
/-! DEFINITION. The flow table: keys, buckets, probes, placement with displacement, migration (R179-R195). -/

namespace Sys2Proof.Machine

/-- The 41 bytes that are hashed (R180). -/
def keyBytes (k : Key) : List Byte := BitVec.ofNat 8 k.space :: (k.k.flatMap fun w => natBe 8 w.toNat)

/-- The two candidate buckets of a key under a seed (R180). -/
def candidates (seed : Word) (k : Key) : Nat × Nat :=
  let m := keyBytes k
  ((crc32c (seed.extractLsb' 0 32) m).toNat % 2 ^ 17, 131072 + (crc32c (seed.extractLsb' 32 32) m).toNat % 2 ^ 17)

/-- Where an entry lies. -/
inductive FlowLoc where
  | slot (n : Nat)
  | cam (n : Nat)
  deriving DecidableEq, Repr

def slotOf (f : Flow) (n : Nat) : Option FlowEnt := mfind f.slots n

/-- The slot of a bucket that holds a key. -/
def bucketFind (f : Flow) (b : Nat) (k : Key) : Option Nat :=
  ((List.range 4).map (4 * b + ·)).find? fun n =>
    match slotOf f n with
    | some e => e.key == k
    | none => false

/-- A probe of a key under one seed (R181). -/
def probeSeed (f : Flow) (seed : Word) (k : Key) : Option Nat :=
  let c := candidates seed k
  match bucketFind f c.1 k with
  | some n => some n
  | none => bucketFind f c.2 k

/-- The CAM entry that holds a key (R181). -/
def camFind (f : Flow) (k : Key) : Option Nat := (f.cam.find? fun e => e.2.key == k).map (·.1)

/-- A lookup: the new seed, then the old, then the CAM (R181, R194). -/
def flowFind (f : Flow) (k : Key) : Option FlowLoc :=
  let byNew := match f.newSeed with
    | some sd => probeSeed f sd k
    | none => none
  match byNew with
  | some n => some (.slot n)
  | none =>
    match probeSeed f f.seed k with
    | some n => some (.slot n)
    | none => (camFind f k).map .cam

def entAt (f : Flow) (l : FlowLoc) : Option FlowEnt :=
  match l with
  | .slot n => mfind f.slots n
  | .cam n => mfind f.cam n

/-- Every valid entry. -/
def allEnts (f : Flow) : List FlowEnt := f.slots.map (·.2) ++ f.cam.map (·.2)

def validCount (f : Flow) : Nat := f.slots.length + f.cam.length

def flowIdOf (e : FlowEnt) : Nat := fld e.ctx.c0 51 32

/-- An entry's context with VALID set, its SPACE and its GEN (R182). -/
def stampCtx (space : Nat) (gen : Bool) (c : Ctx) : Ctx :=
  { c with c0 := (c.c0 &&& word 0x07FFFFFFFFFFFFFF) ||| word (2 ^ 63 + at' (b2n gen) 62 + at' space 59) }

def genOf (e : FlowEnt) : Bool := bit e.ctx.c0 62

/-! ### Placement (R188) -/

/-- The free slots of a bucket. -/
def freeSlots (f : Flow) (b : Nat) : List Nat := ((List.range 4).map (4 * b + ·)).filter fun n => (slotOf f n).isNone

/-- The free slot an insert takes: the candidate bucket with more free slots, half 0 on a tie (R188). -/
def roomFor (f : Flow) (seed : Word) (k : Key) : Option Nat :=
  let c := candidates seed k
  let a := freeSlots f c.1
  let b := freeSlots f c.2
  if a.length < b.length then b.head? else a.head?

/-- The bucket of its key, other than the one it is in, under a seed. -/
def otherBucket (seed : Word) (b : Nat) (k : Key) : Nat :=
  let c := candidates seed k
  if c.1 = b then c.2 else c.1

/-- One bucket of the search: the slots whose occupants can move, each with where it would go. -/
def movesFrom (f : Flow) (seed : Word) (gen : Bool) (b : Nat) : List (Nat × Nat) :=
  ((List.range 4).map (4 * b + ·)).filterMap fun n =>
    match slotOf f n with
    | some e => if genOf e == gen then some (n, otherBucket seed b e.key) else none
    | none => none

/-- One level of the breadth-first search for a displacement path. A frontier entry is a full bucket with the slots to
vacate, nearest last; the answer is the path with its free slot. -/
def searchLevel (f : Flow) (seed : Word) (gen : Bool) (seen : List Nat) :
    List (Nat × List Nat) → Option (List Nat × Nat) ⊕ (List (Nat × List Nat) × List Nat)
  | [] => .inr ([], seen)
  | (b, path) :: r =>
    let ms := movesFrom f seed gen b
    match ms.findSome? fun m => ((freeSlots f m.2).head?).map fun fs => (m.1 :: path, fs) with
    | some hit => .inl (some hit)
    | none =>
      let fresh := ms.filter fun m => !seen.contains m.2
      match searchLevel f seed gen (seen ++ fresh.map (·.2)) r with
      | .inl h => .inl h
      | .inr (next, seen') => .inr (fresh.map (fun m => (m.2, m.1 :: path)) ++ next, seen')

/-- A displacement path of at most `depth` moves (R188). -/
def searchPath (f : Flow) (seed : Word) (gen : Bool) : Nat → List Nat → List (Nat × List Nat) → Option (List Nat × Nat)
  | 0, _, _ => none
  | depth + 1, seen, frontier =>
    if frontier.isEmpty then none
    else match searchLevel f seed gen seen frontier with
      | .inl h => h
      | .inr (next, seen') => searchPath f seed gen depth seen' next

/-- The moves of a path are made, each into the slot then free; the slot left free at its end. -/
def makeMoves : List Nat → Nat → Flow → Flow × Nat
  | [], free, f => (f, free)
  | src :: r, free, f =>
    match slotOf f src with
    | some e => makeMoves r src { f with slots := merase (minsert f.slots free e) src }
    | none => makeMoves r src f

/-- The lowest free CAM entry. -/
def freeCam (f : Flow) : Option Nat := (List.range 256).find? fun n => (mfind f.cam n).isNone

/-- An entry is placed in the slots under a seed and a generation: where, with the table and the moves made. -/
def placeSlots (seed : Word) (gen : Bool) (e : FlowEnt) (f : Flow) : Option (Nat × Flow × Nat) :=
  match roomFor f seed e.key with
  | some n => some (n, { f with slots := minsert f.slots n e }, 0)
  | none =>
    let c := candidates seed e.key
    match searchPath f seed gen 16 [c.1, c.2] [(c.1, []), (c.2, [])] with
    | none => none
    | some (path, free) =>
      let (f1, n) := makeMoves path free f
      some (n, { f1 with slots := minsert f1.slots n e }, path.length)

/-- The seed and the generation that an insert uses (R188, R192). -/
def placing (f : Flow) : Word × Bool :=
  match f.newSeed with
  | some sd => (sd, !f.gen)
  | none => (f.seed, f.gen)

/-- A fresh insert (R188): the place, the table, the displacement moves; none where there is no room. -/
def placeEntry (k : Key) (c : Ctx) (f : Flow) : Option (FlowLoc × Flow × Nat) :=
  let (seed, gen) := placing f
  let e : FlowEnt := { key := k, ctx := stampCtx k.space gen c }
  match placeSlots seed gen e f with
  | some (n, f1, moves) => some (.slot n, f1, moves)
  | none => (freeCam f).map fun n => (.cam n, { f with cam := minsert f.cam n e }, 0)

/-! ### Migration (R193) -/

/-- One slot of a pair is migrated (R193): the table and the moves counted; none where there is no room. -/
def migrateSlot (sd : Word) (n : Nat) (f : Flow) : Option (Flow × Nat) :=
  match slotOf f n with
  | none => some (f, 0)
  | some e =>
    if genOf e != f.gen then some (f, 0)
    else
      let e' : FlowEnt := { e with ctx := stampCtx e.key.space (!f.gen) e.ctx }
      let c := candidates sd e.key
      if c.1 = n / 4 ∨ c.2 = n / 4 then some ({ f with slots := minsert f.slots n e' }, 0)
      else
        match roomFor f sd e.key with
        | some m => some ({ f with slots := merase (minsert f.slots m e') n }, 1)
        | none => (freeCam f).map fun m => ({ f with cam := minsert f.cam m e', slots := merase f.slots n }, 1)

/-- The slots of a list are migrated in turn: the table, the moves, and whether all found room. -/
def migrateSlots (sd : Word) : List Nat → Flow → Nat → Flow × Nat × Bool
  | [], f, k => (f, k, true)
  | n :: r, f, k =>
    match migrateSlot sd n f with
    | none => (f, k, false)
    | some (f1, j) => migrateSlots sd r f1 (k + j)

/-- The eight slots of a bucket pair. -/
def pairSlots (p : Nat) : List Nat := (List.range 4).map (4 * p + ·) ++ (List.range 4).map (4 * (131072 + p) + ·)

/-- After the last pair every CAM entry is offered to the slots as a fresh insert (R193). -/
def offerCam (sd : Word) (gen : Bool) : List (Nat × FlowEnt) → Flow → Nat → Flow × Nat
  | [], f, k => (f, k)
  | (n, e) :: r, f, k =>
    match placeSlots sd gen { e with ctx := stampCtx e.key.space gen e.ctx } f with
    | some (_, f1, moves) => offerCam sd gen r { f1 with cam := merase f1.cam n } (k + moves)
    | none => offerCam sd gen r f k

end Sys2Proof.Machine
end

