-- ==== Sys2Proof/Machine/ParseIsa.lean ====
section
/-! DEFINITION. The instructions of the parse engines: their words, their checks, encoder and decoder (R163-R165). -/

namespace Sys2Proof.Machine

/-- The seven register operations of two sources (R165, opcodes 0x01-0x07). -/
inductive AluOp where
  | add | sub | and | or | xor | shl | shr
  deriving DecidableEq, Repr

/-- A parse instruction (R165). -/
inductive PInstr where
  | alu (op : AluOp) (rd ra rb : Nat)
  | mov (rd ra : Nat)
  | addi (rd ra imm : Nat)
  | andi (rd ra imm : Nat)
  | ori (rd ra imm : Nat)
  | shli (rd ra n : Nat)
  | shri (rd ra n : Nat)
  | ldi (rd imm : Nat)
  | ldih (rd imm : Nat)
  | extr (rd ra shift len : Nat)
  | cmp (ra rb : Nat)
  | cmpi (ra imm : Nat)
  | b (cond target : Nat)
  | ld (rd size : Nat) (frame : Bool) (off : Nat)
  | ldx (rd ra size : Nat)
  | adv (n : Nat)
  | advr (ra : Nat)
  | hdr (code : Nat)
  | lenck (ra imm : Nat)
  | rng (rd ra bank : Nat)
  | ffs (rd ra : Nat)
  | matchp (rd group : Nat)
  | keyw (k ra : Nat)
  | metaf (field ra : Nat) (cur : Bool)
  | done
  | exc (reason : Nat)
  | drop
  deriving DecidableEq, Repr

/-- The opcode of a register operation. -/
def aluCode : AluOp → Nat
  | .add => 1 | .sub => 2 | .and => 3 | .or => 4 | .xor => 5 | .shl => 6 | .shr => 7

/-- A format A word (R163). -/
def fmtA (op rd ra rb fn : Nat) : Nat := op * 2 ^ 26 + rd * 2 ^ 22 + ra * 2 ^ 18 + rb * 2 ^ 14 + fn

/-- A format B word (R163). -/
def fmtB (op rd ra imm : Nat) : Nat := op * 2 ^ 26 + rd * 2 ^ 22 + ra * 2 ^ 18 + imm

/-- A format W word (R163). -/
def fmtW (op rd sz : Nat) (base : Bool) (off : Nat) : Nat :=
  op * 2 ^ 26 + rd * 2 ^ 22 + sz * 2 ^ 20 + b2n base * 2 ^ 19 + off * 2 ^ 10

/-- A format J word (R163). -/
def fmtJ (op cond target : Nat) : Nat := op * 2 ^ 26 + cond * 2 ^ 22 + target

/-- The word of an instruction (R163, R165). -/
def encodeP : PInstr → Nat
  | .alu op rd ra rb => fmtA (aluCode op) rd ra rb 0
  | .mov rd ra => fmtA 0x08 rd ra 0 0
  | .addi rd ra imm => fmtB 0x09 rd ra imm
  | .andi rd ra imm => fmtB 0x0A rd ra imm
  | .ori rd ra imm => fmtB 0x0B rd ra imm
  | .shli rd ra n => fmtB 0x0C rd ra n
  | .shri rd ra n => fmtB 0x0D rd ra n
  | .ldi rd imm => fmtB 0x0E rd 0 imm
  | .ldih rd imm => fmtB 0x0F rd 0 imm
  | .extr rd ra shift len => fmtA 0x10 rd ra 0 (shift * 2 ^ 8 + len)
  | .cmp ra rb => fmtA 0x11 0 ra rb 0
  | .cmpi ra imm => fmtB 0x12 0 ra imm
  | .b cond target => fmtJ 0x13 cond target
  | .ld rd size frame off => fmtW 0x14 rd size frame off
  | .ldx rd ra size => fmtA 0x15 rd ra 0 size
  | .adv n => fmtB 0x16 0 0 n
  | .advr ra => fmtA 0x17 0 ra 0 0
  | .hdr code => fmtB 0x18 0 0 code
  | .lenck ra imm => fmtB 0x19 0 ra imm
  | .rng rd ra bank => fmtB 0x1A rd ra bank
  | .ffs rd ra => fmtA 0x1B rd ra 0 0
  | .matchp rd group => fmtB 0x1C rd 0 group
  | .keyw k ra => fmtB 0x1D 0 ra k
  | .metaf field ra cur => fmtB 0x1E 0 ra (b2n cur * 2 ^ 4 + field)
  | .done => fmtB 0x1F 0 0 0
  | .exc reason => fmtB 0x20 0 0 reason
  | .drop => fmtB 0x21 0 0 0

/-- Every field lies in the range its instruction states (R163-R165). -/
def PInstr.wf : PInstr → Bool
  | .alu _ rd ra rb => rd < 16 && ra < 16 && rb < 16
  | .mov rd ra => rd < 16 && ra < 16
  | .addi rd ra imm => rd < 16 && ra < 16 && imm < 2 ^ 18
  | .andi rd ra imm => rd < 16 && ra < 16 && imm < 2 ^ 18
  | .ori rd ra imm => rd < 16 && ra < 16 && imm < 2 ^ 18
  | .shli rd ra n => rd < 16 && ra < 16 && n < 64
  | .shri rd ra n => rd < 16 && ra < 16 && n < 64
  | .ldi rd imm => rd < 16 && imm < 2 ^ 18
  | .ldih rd imm => rd < 16 && imm < 2 ^ 18
  | .extr rd ra shift len => rd < 16 && ra < 16 && shift < 64 && len < 64
  | .cmp ra rb => ra < 16 && rb < 16
  | .cmpi ra imm => ra < 16 && imm < 2 ^ 18
  | .b cond target => cond ≤ 6 && target < 8192
  | .ld rd size _ off => rd < 16 && size < 4 && off < 512
  | .ldx rd ra size => rd < 16 && ra < 16 && size < 4
  | .adv n => n < 16384
  | .advr ra => ra < 16
  | .hdr code => code < 256
  | .lenck ra imm => ra < 16 && imm < 2 ^ 18
  | .rng rd ra bank => rd < 16 && ra < 16 && bank < 4
  | .ffs rd ra => rd < 16 && ra < 16
  | .matchp rd group => rd < 16 && group < 64
  | .keyw k ra => k < 5 && ra < 16
  | .metaf field ra cur => field < 6 && ra < 16 && (!cur || ra == 0)
  | .done => true
  | .exc reason => 0x80 ≤ reason && reason < 256
  | .drop => true

/-- The instruction of a register operation opcode. -/
def aluOf (op : Nat) : AluOp :=
  if op = 1 then .add else if op = 2 then .sub else if op = 3 then .and else if op = 4 then .or
  else if op = 5 then .xor else if op = 6 then .shl else .shr

/-- The fields of a word read by its opcode alone, none for an unlisted opcode. -/
def fieldsP (w : Nat) : Option PInstr :=
  let op := w / 2 ^ 26
  let rd := w / 2 ^ 22 % 16
  let ra := w / 2 ^ 18 % 16
  let rb := w / 2 ^ 14 % 16
  let fn := w % 2 ^ 14
  let imm := w % 2 ^ 18
  if 1 ≤ op ∧ op ≤ 7 then some (.alu (aluOf op) rd ra rb)
  else if op = 0x08 then some (.mov rd ra)
  else if op = 0x09 then some (.addi rd ra imm)
  else if op = 0x0A then some (.andi rd ra imm)
  else if op = 0x0B then some (.ori rd ra imm)
  else if op = 0x0C then some (.shli rd ra imm)
  else if op = 0x0D then some (.shri rd ra imm)
  else if op = 0x0E then some (.ldi rd imm)
  else if op = 0x0F then some (.ldih rd imm)
  else if op = 0x10 then some (.extr rd ra (fn / 2 ^ 8) (fn % 2 ^ 8))
  else if op = 0x11 then some (.cmp ra rb)
  else if op = 0x12 then some (.cmpi ra imm)
  else if op = 0x13 then some (.b rd (w % 2 ^ 13))
  else if op = 0x14 then some (.ld rd (w / 2 ^ 20 % 4) (w / 2 ^ 19 % 2 == 1) (w / 2 ^ 10 % 512))
  else if op = 0x15 then some (.ldx rd ra fn)
  else if op = 0x16 then some (.adv imm)
  else if op = 0x17 then some (.advr ra)
  else if op = 0x18 then some (.hdr imm)
  else if op = 0x19 then some (.lenck ra imm)
  else if op = 0x1A then some (.rng rd ra imm)
  else if op = 0x1B then some (.ffs rd ra)
  else if op = 0x1C then some (.matchp rd imm)
  else if op = 0x1D then some (.keyw imm ra)
  else if op = 0x1E then some (.metaf (imm % 16) ra (imm / 16 % 2 == 1))
  else if op = 0x1F then some .done
  else if op = 0x20 then some (.exc imm)
  else if op = 0x21 then some .drop
  else none

/-- The instruction of a word: none for an unlisted opcode, a field out of its range, or a set reserved or unused bit
(R163, R164). A set unused bit shows as a word that its instruction's own word differs from. -/
def decodeP (w : Nat) : Option PInstr :=
  match fieldsP w with
  | some i => if i.wf && encodeP i == w then some i else none
  | none => none

end Sys2Proof.Machine
end

