-- ==== Sys2Proof/Machine/Ready.lean ====
section
/-! DEFINITION. GLB_READY as a function of the state, and the end of every command: GLB_READY_CHANGED follows. -/

namespace Sys2Proof.Machine

/-- TIME of GLB_READY: PD07 ON, and no bridge outstanding (R281, R300). -/
def timeReady (s : State) : Bool := on s 7 && s.tmu.saved.isNone

/-- Module time as admission and reports use it: none while TIME is clear (R240). -/
def now? (s : State) : Option Nat := if timeReady s then some s.tmu.ns else none

/-- LINE_TX (R47). -/
def lineTx (s : State) : Bool :=
  on s 8 && on s 10 && s.line.laserCal && !s.pwr.txDisable && !s.line.rogueCut && s.line.loop.isNone && s.pf.st != .pf7

/-- PARSE (R155, R366). -/
def parseReady (s : State) : Bool := on s 39 && (on s 35 || on s 36 || on s 37 || on s 38) && s.prs.committed

/-- FLOWTABLE (R202, R366). -/
def flowReady (s : State) : Bool := on s 40 && s.flw.inited

/-- CIPHER (R315, R366). -/
def cipherReady (s : State) : Bool := on s 46 && s.cph.inited

/-- LINE_SYNC as the state machine sees it: not that of a loopback (R57). -/
def pfSync (s : State) : Bool := s.frm.lineSync && s.line.loop.isNone && on s 11

/-- TIN (R354, R366). -/
def tinReady (s : State) : Bool := s.tin.link && s.tin.dev.isSome

/-- HOSTDMA (R366, R380). -/
def dmaReady (s : State) : Bool := on s 4 && on s 5 && s.dma.inited

/-- TSI (R366). -/
def tsiReady (s : State) : Bool :=
  ((List.range 16).any fun k => on s (19 + k) && s.cir.inited.getLsbD k) &&
    s.cir.slices.all fun e => on s (19 + e.1) || (e.2.page0.isEmpty && e.2.page1.isEmpty)

/-- COUNTERS (R366). -/
def countersReady (s : State) : Bool := on s 48 && s.cnt.inited

/-- MAILBOX (R366). -/
def mailboxReady (s : State) : Bool := s.fw.mailbox && on s 6 && on s 2

/-- GLB_READY (R366), bit 0 first. -/
def readyBits (s : State) : List Bool :=
  [ s.pwr.supplyGood && !s.pwr.warn,
    s.fw.running && on s 2,
    mailboxReady s,
    dmaReady s,
    quadReady s 0, quadReady s 1, quadReady s 2, quadReady s 3,
    flowReady s,
    parseReady s,
    schedReady s,
    cipherReady s,
    timeReady s,
    timeReady s && s.tmu.st == .locked,
    on s 9 && s.line.lineRx && s.line.loop.isNone,
    lineTx s,
    pfSync s,
    s.pf.st == .pf5,
    tsiReady s,
    on s 18 && (cport s 0).up, on s 18 && (cport s 1).up, on s 18 && (cport s 2).up, on s 18 && (cport s 3).up,
    countersReady s,
    tinReady s,
    on s 49 && on s 7 ]

/-- GLB_READY as the host reads it (R366). -/
def glbReady (s : State) : BitVec 64 :=
  BitVec.ofNat 64 ((readyBits s).foldr (fun b n => b2n b + 2 * n) 0)

/-- Every bit of GLB_READY that changed sets its bit of GLB_READY_CHANGED, and raises vector 0 under the mask (R365).
The register is in PD06. -/
def settle (s s' : State) : State :=
  let d := glbReady s ^^^ glbReady s'
  if d = 0 || !on s' 6 then s'
  else
    let t := { s' with glb := { s'.glb with changed := s'.glb.changed ||| d } }
    if d &&& s'.glb.mask = 0 then t else raise 0 t

/-- The end of a command that leaves the module in `s'`. -/
def done (s s' : State) : Res := .next (settle s (pauseFollows s'))

end Sys2Proof.Machine
end

