-- ==== Sys2Proof/Machine/Held.lean ====
section
/-! DEFINITION. Every frame that the module holds, and what a step or a bridge of module time, or a cause of attribution,
does to them (R240, R254, R293, R494, R499, R152). -/

namespace Sys2Proof.Machine

/-- A line frame with its packet changed. -/
def LineFrame.mapP (f : Packet → Packet) (x : LineFrame) : LineFrame := { x with packet := f x.packet }

/-- A core's unit with its packet changed. -/
def CoreUnit.mapP (f : Packet → Packet) (u : CoreUnit) : CoreUnit :=
  match u.work with
  | .inline d i x => { u with work := .inline d i (x.mapP f) }
  | .la _ => u

/-- A burst with the frames that end in it changed. -/
def Burst.mapP (f : Packet → Packet) (b : Burst) : Burst :=
  { b with items := b.items.map fun i => { i with frame := i.frame.map f } }

def mapVals {α : Type} (f : α → α) (m : Map α) : Map α := m.map fun e => (e.1, f e.2)

/-- Every entry of a table is changed; those that come to the default leave it. -/
def mapTab {α : Type} [DecidableEq α] (d : α) (f : α → α) (m : Map α) : Map α :=
  (mapVals f m).filter fun e => decide (e.2 ≠ d)

/-- Every frame that the module holds is changed by `f`, wherever it is. -/
def mapPackets (f : Packet → Packet) (s : State) : State :=
  { s with
    prs := { s.prs with
      engines := mapVals (fun e => { e with packet := f e.packet }) s.prs.engines
      inLine := s.prs.inLine.map f, inClient := s.prs.inClient.map f, inRecirc := s.prs.inRecirc.map f }
    flw := { s.flw with inLine := s.flw.inLine.map f, inClient := s.flw.inClient.map f }
    sch := { s.sch with
      inLine := s.sch.inLine.map f, inClient := s.sch.inClient.map f
      queues := mapVals (fun q => { q with frames := q.frames.map f }) s.sch.queues }
    prt := { s.prt with ports := mapVals (fun p => { p with tx := p.tx.map f }) s.prt.ports }
    dma := { s.dma with
      rx := mapVals (fun r => { r with
        delivery := r.delivery.map f, resv := r.resv.map fun v => { v with packet := f v.packet } }) s.dma.rx }
    cir := { s.cir with circuits := mapVals (fun c => { c with
        ingress := c.ingress.map f, egressQ := c.egressQ.map f, done := c.done.map fun e => (e.1, f e.2) }) s.cir.circuits }
    frm := { s.frm with toCipher := s.frm.toCipher.map (·.mapP f) }
    cph := { s.cph with
      cores := mapVals (·.mapP f) s.cph.cores
      upWait := s.cph.upWait.map (·.mapP f)
      order := s.cph.order.map fun o => { o with out := o.out.map (·.mapP f) } }
    up := { s.up with
      frags := mapVals (fun o => { o with packet := f o.packet }) s.up.frags
      built := s.up.built.map (·.mapP f), onAir := s.up.onAir.map (·.mapP f) } }

/-- The port node that an accepted frame leaves by. -/
def portOfFrame (s : State) (p : Packet) : Nat := portOf s (p.queue.getD 0)

/-- An attribution condition holds for every accepted frame of the ports named (R254). -/
def markCauses (at' : Nat → Bool) (g : Causes → Causes) (s : State) : State :=
  mapPackets (fun p => if p.promise.isSome && at' (portOfFrame s p) then { p with causes := g p.causes } else p) s

/-- LINE_FAULT holds for the grant streams (R254, row 3). -/
def markLineFault (s : State) : State := markCauses (· < 64) (fun c => { c with lineFault := true }) s

/-- Any accepted frame is held. -/
def anyPromise (s : State) : Bool :=
  (buffered s).any (·.promise.isSome) || s.up.built.any fun b => b.items.any fun i =>
    match i.frame with
    | some p => p.promise.isSome
    | none => false

/-! ### Performance entities (R150, R153) -/

/-- The section, the circuits, the grant streams, as ENTITY codes (R153). -/
def entities : List Nat := 0 :: ((List.range 256).map (0x1000 + ·) ++ (List.range 64).map (0x2000 + ·))

def perf (s : State) (e : Nat) : Perf := mget perfReset s.perf e

def setPerf (e : Nat) (x : Perf) (s : State) : State := { s with perf := mput perfReset s.perf e x }

/-- The current bins of every entity change (R152). -/
def mapBins (f : Bin → Bin) (s : State) : State :=
  entities.foldl (fun t e => let x := perf t e; setPerf e { x with cur15 := f x.cur15, cur24 := f x.cur24 } t) s

/-! ### Steps and bridges -/

/-- A module time moved by a step. -/
def moveNs (delta : Int) (t : Nat) : Nat := wrap 64 ((t : Int) + delta)

/-- A frame held across a step of Δ: an accepted one keeps the time it has left (R240). -/
def shiftFrame (delta : Int) (p : Packet) : Packet :=
  if p.promise.isSome then
    { p with promise := p.promise.map (moveNs delta), deadline := p.deadline.map (moveNs delta), stepped := true
             timeJump := true }
  else { p with timeJump := true }

/-- Strobes that a forward step passes over (R494). -/
def strobesPassed (period a b : Nat) : Nat := if period = 0 then 0 else (b - 1) / (period * 1000000) - a / (period * 1000000)

/-- The rest of a step of Δ ns, module time having been `b − Δ`: deadlines, promises and ledger entries move, bins become
SUSPECT, the peel marks its next dump (R240, R152, R494, R499). -/
def shiftHeld (delta : Int) (s : State) : State :=
  let s0 := if anyPromise s then ev 0x0815 s else s
  let s1 := mapPackets (shiftFrame delta) s0
  let s2 := { s1 with
    sch := { s1.sch with queues := mapTab queueReset (fun q =>
      if q.lastKey = 0 then q else { q with lastKey := moveNs delta q.lastKey }) s1.sch.queues }
    frm := { s1.frm with reasm := mapVals (fun r => { r with timeJump := true }) s1.frm.reasm } }
  let s3 := mapBins (fun b => { b with suspect := true }) s2
  let s4 := { s3 with cnt := { s3.cnt with stepped := true } }
  if 0 < delta then count 0x0C44 0 (strobesPassed s.cnt.period (moveNs (-delta) s.tmu.ns) s.tmu.ns) s4 else s4

/-- What a bridge of module time does to what is held (R300, R499, R152, R494). -/
def bridgeHeld (s : State) : State :=
  let s1 := mapPackets (fun p => { p with timeJump := true }) s
  let s2 := { s1 with frm := { s1.frm with reasm := mapVals (fun r => { r with timeJump := true }) s1.frm.reasm } }
  let s3 := mapBins (fun b => { b with suspect := true }) s2
  { s3 with cnt := { s3.cnt with bridged := true } }

end Sys2Proof.Machine
end

