-- ==== Sys2Proof/Machine/RingOps.lean ====
section
/-! DEFINITION. Host DMA rings: control fields, completions, transmit reports, errors (R375-R397). -/

namespace Sys2Proof.Machine

/-! ### Rings and their control fields (R376-R380) -/

def txRing (s : State) (n : Nat) : Ring := mget txRingReset s.dma.tx n

def rxRing (s : State) (n : Nat) : Ring := mget rxRingReset s.dma.rx n

def setTx (n : Nat) (r : Ring) (s : State) : State :=
  { s with dma := { s.dma with tx := mput txRingReset s.dma.tx n r } }

def setRx (n : Nat) (r : Ring) (s : State) : State :=
  { s with dma := { s.dma with rx := mput rxRingReset s.dma.rx n r } }

def ringOf (s : State) (rx : Bool) (n : Nat) : Ring := if rx then rxRing s n else txRing s n

def setRing (rx : Bool) (n : Nat) (r : Ring) (s : State) : State := if rx then setRx n r s else setTx n r s

def ringDescSize (r : Ring) : Nat := 64 * 2 ^ fld r.ctrl 7 4

def ringCplSize (r : Ring) : Nat := 64 * 2 ^ fld r.ctrl 11 8

def ringVector (r : Ring) : Nat := fld r.ctrl 22 12

/-- GROUP of a receive ring (R378). -/
def ringGroup (r : Ring) : Nat := fld r.ctrl 26 23

/-- MODE FRAMES of a receive ring (R378). -/
def ringFrames (r : Ring) : Bool := !bit r.ctrl 1

/-- The ring is RUNNING or DRAINING (R380). -/
def ringLive (r : Ring) : Bool := r.st == .running || r.st == .draining

/-- Host memory can be reached: the link is up and PD04 and PD05 are ON (R374, R397). -/
def hostMem (s : State) : Bool := s.pcie.linkUp && on s 4 && on s 5

/-- Written, unconsumed completions and reserved slots (R386). -/
def cplUsed (r : Ring) : Nat := (r.prod - r.head).toNat + r.reserved

/-! ### Completions (R382) -/

/-- A 32-byte record goes to the completion ring, then the writeback word, then the vector. -/
def writeCpl (rx : Bool) (n : Nat) (bytes : List Byte) (s : State) : State :=
  if hostMem s then
    let r := ringOf s rx n
    let r' := { r with prod := r.prod + 1 }
    let s1 := emit (.hostWrite (r.cplBase.toNat + 32 * (r.prod.toNat % ringCplSize r)) (pad 32 bytes)) (setRing rx n r' s)
    let s2 := emit (.hostWrite r.wbAddr.toNat (natLe 4 r'.prod.toNat ++ natLe 4 r'.done.toNat)) s1
    if ringVector r = 0 then s2 else raise (ringVector r) s2
  else s

/-- A completion of a ring that may still write one (R380, R396). -/
def writeLive (rx : Bool) (n : Nat) (bytes : List Byte) (s : State) : State :=
  if ringLive (ringOf s rx n) then writeCpl rx n bytes s else s

/-- FLOW_ID of a context, 0xFFFFF for none (R387). -/
def flowId : Option Ctx → Nat
  | some c => fld c.c0 51 32
  | none => 0xFFFFF

/-- A transmit completion (R387). -/
def txCpl (desc status egress tag : Nat) (outcome : Word) (flow arrival segs notDone reason : Nat) : List Byte :=
  natLe 4 desc ++ natLe 1 status ++ natLe 1 egress ++ natLe 2 tag ++ natLe 8 outcome.toNat ++ natLe 4 flow
    ++ natLe 4 (arrival % 2 ^ 32) ++ natLe 2 segs ++ natLe 2 notDone ++ natLe 1 reason ++ [0, 0, 0]

/-- Completion slots of a transmit ring given back (R386). -/
def releaseSlots (ring k : Nat) (s : State) : State :=
  let r := txRing s ring
  if r.st = .stopped then s else setTx ring { r with reserved := r.reserved - k } s

/-! ### Transmit reports (R388, R389) -/

/-- The severity of a STATUS (R389): EXCEPTION, DISCARDED, DONE. -/
def statusSeverity (st : Nat) : Nat := if st = 3 then 2 else if st = 2 then 1 else 0

/-- The severity of an outcome word (R389): REJECTED, EXPIRED, LATE, KEPT. -/
def outcomeSeverity (o : Option Word) : Nat :=
  match o with
  | none => 0
  | some w => let k := fld w 63 61; if k = 1 then 4 else if k = 4 then 3 else if k = 3 then 2 else 1

/-- The first segment, in order of index, with the greatest value of `f`. -/
def worstSeg (f : SegEnd → Nat) : List SegEnd → Option SegEnd
  | [] => none
  | x :: r => match worstSeg f r with
    | none => some x
    | some y => if f y < f x || (f y == f x && x.index ≤ y.index) then some x else some y

/-- A segment whose status was not DONE, or whose outcome was not KEPT (R387). -/
def segNotDone (e : SegEnd) : Bool :=
  e.status != 0 || (match e.outcome with | some w => fld w 63 61 != 2 | none => false)

/-- The one completion of a segmented send whose segments have all ended (R389). -/
def finishSend (x : SegSend) (s : State) : State :=
  let a := worstSeg (fun e => statusSeverity e.status) x.ends
  let o := worstSeg (fun e => outcomeSeverity e.outcome) x.ends
  let dflt : SegEnd := { index := 0, status := 0, outcome := none, egress := 0xFF, flow := 0xFFFFF, reason := 0 }
  let e := a.getD dflt
  let w := ((o.getD dflt).outcome).getD 0
  writeLive false x.ring (txCpl x.desc e.status e.egress x.tag w e.flow x.arrival x.total
    (x.ends.filter segNotDone).length e.reason) (releaseSlots x.ring 1 s)

/-- A segment ends: gathered until every segment has ended (R389). -/
def segEnds (t : TxInfo) (e : SegEnd) (s : State) : State :=
  match s.dma.sends.find? fun x => x.ring == t.ring && x.desc == t.descIndex with
  | none => s
  | some x =>
    let x' := { x with ends := x.ends ++ [e] }
    let others := s.dma.sends.filter fun y => !(y.ring == t.ring && y.desc == t.descIndex)
    if x'.ends.length < x.total then { s with dma := { s.dma with sends := others ++ [x'] } }
    else finishSend x' { s with dma := { s.dma with sends := others } }

/-- The handling of a host frame ends (R386, R388): its completion is written where R388 asks for one, and the slots it
does not need are given back. `outcome` is the outcome word of a timed frame. -/
def txFinal (p : Packet) (status egress : Nat) (outcome : Option Word) (reason : Nat) (s : State) : State :=
  match p.tx with
  | none => s
  | some t =>
    if t.segmented then
      segEnds t { index := t.segIndex, status := status, outcome := outcome, egress := egress
                  flow := flowId p.ctx, reason := reason } s
    else
      let k := if t.acceptReport && p.promise.isNone then 2 else 1
      let s1 := releaseSlots t.ring k s
      if outcome.isSome || t.report || status == 2 || status == 3 then
        writeLive false t.ring (txCpl t.descIndex status egress (if t.stamp then t.stampTag else 0) (outcome.getD 0)
          (flowId p.ctx) p.arrival 1 (b2n false) (if status = 3 then reason else 0)) s1
      else s1

/-- The early ACCEPTED report of a host frame whose descriptor asks for it (R256, R388). -/
def txAccepted (p : Packet) (egress : Nat) (outcome : Word) (s : State) : State :=
  match p.tx with
  | some t =>
    if t.acceptReport && !t.segmented then
      writeLive false t.ring (txCpl t.descIndex 1 egress (if t.stamp then t.stampTag else 0) outcome
        (flowId p.ctx) p.arrival 1 0 0) (releaseSlots t.ring 1 s)
    else s
  | none => s

/-! ### Errors (R396, R397) -/

/-- The marker completion of a ring that enters ERROR (R396). -/
def markerCpl (rx : Bool) (r : Ring) : List Byte :=
  if rx then natLe 4 r.done.toNat ++ [0, 0, 0, 0x20] else natLe 4 r.done.toNat ++ natLe 1 0x14

/-- The frames fetched from a transmit ring go on unreported (R396, R397): they name no ring from now on. -/
def orphan (n : Nat) (s : State) : State :=
  let t := mapPackets (fun p => { p with tx := p.tx.map fun x => if x.ring = n then { x with ring := 2048 } else x }) s
  { t with dma := { t.dma with sends := t.dma.sends.filter fun x => x.ring != n } }

/-- A ring enters ERROR with a cause (R396): a marker is written when a slot is free and host memory can be reached. The
reserved receive frames are handed back for their discard. -/
def ringError (rx : Bool) (n cause : Nat) (marker : Bool) (s : State) : State :=
  let r := ringOf s rx n
  if ringLive r then
    let s1 := ev 0x0A0F s
    let s2 := if marker && cplUsed r < ringCplSize r then writeCpl rx n (markerCpl rx r) s1 else s1
    let r2 := ringOf s2 rx n
    let s3 := setRing rx n { r2 with st := .error, err := cause, waiting := false, reserved := 0 } s2
    if rx then s3 else orphan n s3
  else s

end Sys2Proof.Machine
end

