-- ==== Sys2Proof/Machine/Outcome.lean ====
section
/-! DEFINITION. How a frame ends: the outcome of a promise, its attribution and its record, the tin's taps, latency
samples (R252-R256, R339, R499-R501, R546). -/

namespace Sys2Proof.Machine

/-! ### The taps (R10, R339) -/

/-- The OBJECT code of a circuit and of a grant stream (R345). -/
def objCircuit (c : Nat) : Nat := 0x1000 + c

def objStream (g : Nat) : Nat := 0x2000 + g

def tap (s : State) (slot : Nat) : TapAcc := mget tapReset s.tin.accs slot

/-- A count for an object is added to the accumulators of the slots that the tap map gives it (R339, R340). -/
def tapAdd (obj : Nat) (f : TapAcc → TapAcc) (s : State) : State :=
  if s.tin.link then
    (List.range 64).foldl (fun t k =>
      if nth t.tin.map k 0 = obj then
        { t with tin := { t.tin with accs := mput tapReset t.tin.accs k (f (tap t k)) } }
      else t) s
  else s

/-! ### Histograms (R499-R501) -/

def histEng (s : State) (e : Nat) : Hist := mget histReset s.cnt.hists e

def setHistEng (e : Nat) (h : Hist) (s : State) : State :=
  { s with cnt := { s.cnt with hists := mput histReset s.cnt.hists e h } }

/-- The bin of a sample (R501). -/
def histBin (x : Nat) : Nat := min 31 (Nat.log2 x - 6)

/-- One sample is binned; MAX and the threshold follow (R500, R501). -/
def histSample (e x : Nat) (s : State) : State :=
  let h := histEng s e
  let k := histBin x
  let s1 := setHistEng e { h with
    bins := mput 0 h.bins k (mget 0 h.bins k + 1), max := max h.max x } s
  if bit h.config 8 && fld h.config 7 3 ≤ k then
    let s2 := ev 0x0C47 s1
    if fld h.config 19 9 = 0 then s2 else raise (fld h.config 19 9) s2
  else s1

/-- The engine that a frame feeds (R182, R499), enabled and with PD48 ON. -/
def histOf (s : State) (p : Packet) : Option Nat :=
  match p.ctx with
  | some c =>
    let e := fld c.c2 62 57
    if bit c.c2 63 && on s 48 && bit (histEng s e).config 0 then some e else none
  | none => none

/-- How the frame of a sample ended: passed its boundary without a promise, KEPT, LATE, EXPIRED. -/
inductive Fate where
  | passed | kept | late | expired
  deriving DecidableEq, Repr

/-- The sample a frame gives under its engine's MEASURE (R499). `t` is its boundary time and `late` its LATENESS. -/
def sampleOf (measure : Nat) (p : Packet) (fate : Fate) (t late : Nat) : Option Nat :=
  if measure = 0 then (if fate = .expired then none else some (t - p.arrival))
  else if measure = 1 then (if fate = .late ∨ fate = .expired then some late else none)
  else if fate = .kept then some (p.promise.getD 0 - t)
  else none

/-- A frame's latency sample, or its skip where module time jumped (R499). -/
def takeLatency (p : Packet) (fate : Fate) (t late : Nat) (s : State) : State :=
  match histOf s p with
  | none => s
  | some e =>
    match sampleOf (fld (histEng s e).config 2 1) p fate t late with
    | none => s
    | some x => if p.timeJump then ev 0x0C45 s else histSample e x s

/-! ### Outcome words and records (R254-R256) -/

/-- An outcome word (R255). -/
def outcomeWord (kind reason attr : Nat) (stepped look : Bool) (late time : Nat) : Word :=
  word (at' kind 61 + at' reason 58 + at' attr 56 + at' (b2n stepped) 55 + at' (b2n look) 54
    + at' (min late 0x3FFFFF) 32 + time % 2 ^ 32)

/-- The attribution of a LATE or EXPIRED outcome (R254): 0 MODULE, 1 HEAD_END, 2 LINE_FAULT, 3 LOCAL_POWER. -/
def attribution (port : Nat) (c : Causes) (byModule : Bool) : Nat :=
  if byModule then 0
  else if c.localPower then 3
  else if c.lineFault then 2
  else if port < 64 then 1
  else 0

/-- The OUTCOME_RING that takes a frame's record (R256), none for 0xFFF. -/
def admPort (s : State) (n : Nat) : AdmPort := mget admPortReset s.adm.ports n

def setAdmPort (n : Nat) (x : AdmPort) (s : State) : State :=
  { s with adm := { s.adm with ports := mput admPortReset s.adm.ports n x } }

def outcomeRing (s : State) (p : Packet) (port : Nat) : Option Nat :=
  let own := (admPort s (64 + p.index)).outRing
  let r := if p.firstKind == .client && own != 0xFFF then own else (admPort s port).outRing
  if r = 0xFFF then none else some r

/-- A 32-byte outcome record (R256). -/
def outcomeRecord (p : Packet) (port : Nat) (w : Word) : List Byte :=
  let user := match p.ctx with
    | some c => fld c.c2 31 0
    | none => 0
  natLe 8 w.toNat ++ natLe 4 (match p.ctx with | some c => fld c.c0 51 32 | none => 0) ++ natLe 4 (p.queue.getD 0)
    ++ natLe 8 p.arrival ++ natLe 4 user ++ natLe 1 port ++ [0, 0, 0]

/-- The record of a timed frame from no host ring is written to its RUNNING OUTCOMES ring with room, or counted (R256,
R395). -/
def writeRecord (p : Packet) (port : Nat) (w : Word) (s : State) : State :=
  match outcomeRing s p port with
  | none => ev 0x0814 s
  | some r =>
    let x := rxRing s r
    if hostMem s && x.st == .running && bit x.ctrl 1 && decide (cplUsed x < ringCplSize x) then
      ev 0x0A0E (writeCpl true r (outcomeRecord p port w) s)
    else ev 0x0814 s

/-- An outcome word reaches whoever offered the frame (R256). -/
def reportOutcome (p : Packet) (port egress : Nat) (w : Word) (s : State) : State :=
  if p.tx.isSome then txFinal p 0 egress (some w) 0 s else writeRecord p port w s

/-- The tap count of an outcome at a metered grant stream (R254, R339); attribution MODULE is not pushed. -/
def tapOutcome (port : Nat) (fate : Fate) (attr : Nat) (s : State) : State :=
  if port < 64 then
    match fate with
    | .passed => s
    | .kept => tapAdd (objStream port) (fun a => { a with kept := a.kept + 1 }) s
    | .late | .expired =>
      if attr = 1 then tapAdd (objStream port) (fun a => { a with brokenHe := a.brokenHe + 1 }) s
      else if attr = 2 then tapAdd (objStream port) (fun a => { a with brokenLf := a.brokenLf + 1 }) s
      else if attr = 3 then tapAdd (objStream port) (fun a => { a with brokenLp := a.brokenLp + 1 }) s
      else s
  else s

/-- The event of an outcome (R258). -/
def outcomeEvent (fate : Fate) (attr : Nat) : Nat :=
  match fate with
  | .passed => 0
  | .kept => 0x0808
  | .expired => 0x080C
  | .late => if attr = 1 then 0x0809 else if attr = 2 then 0x080A else if attr = 3 then 0x080B else 0x0819

/-- A promise of a grant stream broken with attribution HEAD_END or LINE_FAULT marks the stream (R150). -/
def promiseBroken (port : Nat) (fate : Fate) (attr : Nat) (s : State) : State :=
  if port < 64 && (fate == .late || fate == .expired) && (attr == 1 || attr == 2) then
    let e := objStream port
    { s with perf := mput perfReset s.perf e { mget perfReset s.perf e with broken := true } }
  else s

/-- An accepted timed frame ends at its port at time `t` (R252-R256, R546): KEPT or LATE when its last bit passes, EXPIRED
when it is discarded. `byModule` marks a discard of row 1 of R254. -/
def promiseEnds (p : Packet) (port t : Nat) (expired byModule : Bool) (s : State) : State :=
  let pr := p.promise.getD 0
  let fate : Fate := if expired then .expired else if t ≤ pr then .kept else .late
  let attr := if fate = .kept then 0 else attribution port p.causes (expired && byModule)
  let late := if fate = .kept then 0 else t - pr
  let kind := match fate with
    | .passed => 0
    | .kept => 2
    | .late => 3
    | .expired => 4
  let w := outcomeWord kind 0 attr p.stepped p.lookahead late pr
  reportOutcome p port (if expired then 0xFF else port) w
    (takeLatency p fate t late (promiseBroken port fate attr (tapOutcome port fate attr (ev (outcomeEvent fate attr) s))))

/-- A frame's last bit passes its outgoing boundary at port node `port` at time `t` (R252). -/
def framePasses (p : Packet) (port t : Nat) (s : State) : State :=
  if p.promise.isSome then promiseEnds p port t false false s
  else txFinal p 0 port none 0 (takeLatency p .passed t 0 s)

end Sys2Proof.Machine
end

