-- ==== Sys2Proof/Machine/Versions.lean ====
section
/-! DEFINITION. Version slots, their references, and where a frame goes when it leaves the data path early: its discard,
the exception ring group, a circuit, parse (R20, R139, R155, R175, R196-R199, R392). -/

namespace Sys2Proof.Machine

/-! ### Version slots (R175, R196-R199) -/

def version (s : State) (n : Nat) : Version := if n = 0 then s.prs.v0 else s.prs.v1

def setVersion (n : Nat) (v : Version) (s : State) : State :=
  if n = 0 then { s with prs := { s.prs with v0 := v } } else { s with prs := { s.prs with v1 := v } }

/-- A program word, a comparator and a pattern held by no version (R175). -/
def pwordReset : PWord := { w := 0, h0 := false, h1 := false }

def compReset : Comparator := { lo := 0, hi := 0, h0 := false, h1 := false }

def patReset : Pattern :=
  { value := [], mask := [], length := 0, group := 0, start := 0, stop := 0, h0 := false, h1 := false }

def pword (s : State) (a : Nat) : PWord := mget pwordReset s.prs.prog a

def comparator (s : State) (n : Nat) : Comparator := mget compReset s.prs.comps n

def pattern (s : State) (n : Nat) : Pattern := mget patReset s.prs.pats n

/-- The version slot holds the entry (R175). -/
def PWord.heldBy (x : PWord) (v : Nat) : Bool := if v = 0 then x.h0 else x.h1

def Comparator.heldBy (x : Comparator) (v : Nat) : Bool := if v = 0 then x.h0 else x.h1

def Pattern.heldBy (x : Pattern) (v : Nat) : Bool := if v = 0 then x.h0 else x.h1

def PWord.hold (v : Nat) (b : Bool) (x : PWord) : PWord := if v = 0 then { x with h0 := b } else { x with h1 := b }

def Comparator.hold (v : Nat) (b : Bool) (x : Comparator) : Comparator :=
  if v = 0 then { x with h0 := b } else { x with h1 := b }

def Pattern.hold (v : Nat) (b : Bool) (x : Pattern) : Pattern := if v = 0 then { x with h0 := b } else { x with h1 := b }

/-- A pool with the slot's hold of every entry set by `f`; what no version holds is free (R175). -/
def reholdPools (v : Nat) (f : Bool → Bool → Bool) (s : State) : State :=
  let keepW (e : Nat × PWord) := e.2.h0 || e.2.h1
  let keepC (e : Nat × Comparator) := e.2.h0 || e.2.h1
  let keepP (e : Nat × Pattern) := e.2.h0 || e.2.h1
  { s with prs := { s.prs with
    prog := (mapVals (fun x => x.hold v (f (x.heldBy v) (x.heldBy (1 - v)))) s.prs.prog).filter keepW
    comps := (mapVals (fun x => x.hold v (f (x.heldBy v) (x.heldBy (1 - v)))) s.prs.comps).filter keepC
    pats := (mapVals (fun x => x.hold v (f (x.heldBy v) (x.heldBy (1 - v)))) s.prs.pats).filter keepP } }

/-- The current version's slot (R196). -/
def currentSlot (s : State) : Option Nat :=
  if s.prs.v0.st = .current then some 0 else if s.prs.v1.st = .current then some 1 else none

def buildingSlot (s : State) : Option Nat :=
  if s.prs.v0.st = .building then some 0 else if s.prs.v1.st = .building then some 1 else none

/-- A FREE slot becomes BUILDING as a copy of the current version, or empty (R197). -/
def openBatch (s : State) : State × Nat × Nat :=
  let n := (s.prs.lastBatch + 1) % 2 ^ 32
  match currentSlot s with
  | none => (setVersion 0 { versionReset with st := .building, batch := n } s, 0, n)
  | some c =>
    let v := 1 - c
    let cur := version s c
    if cur.faulty then (setVersion v { versionReset with st := .building, batch := n } s, v, n)
    else
      (setVersion v { cur with st := .building, batch := n, faulty := false, refs := 0, commitAt := none }
        (reholdPools v (fun _ other => other) s), v, n)

/-- A slot becomes FREE, with the entries only it held; a BATCH_OPEN that waits for it completes (R197, R199). -/
def freeVersion (v : Nat) (s : State) : State :=
  let s1 := ev 0x050F (setVersion v versionReset (reholdPools v (fun _ _ => false) s))
  if waiting s1 .batchOpen then
    let (s2, slot, n) := openBatch s1
    finishWait .batchOpen 0 [word slot, word n] s2
  else s1

/-- A packet that bears the slot's stamp leaves flow lookup or is discarded before (R199). -/
def releaseRef (v : Nat) (s : State) : State :=
  let x := version s v
  let y := { x with refs := x.refs - 1 }
  let s1 := setVersion v y s
  if y.st = .draining ∧ y.refs = 0 then freeVersion v s1 else s1

/-- The packet gives its reference back (R199). -/
def dropRef (p : Packet) (s : State) : State :=
  match p.version with
  | some v => releaseRef v s
  | none => s

/-- A batch becomes CURRENT, and the former current version DRAINING (R198). -/
def commitSlot (v : Nat) (s : State) : State :=
  let old := currentSlot s
  let s1 := setVersion v { version s v with st := .current, commitAt := none } s
  let s2 := ev 0x050D { s1 with prs := { s1.prs with committed := true, lastBatch := (version s v).batch } }
  match old with
  | none => s2
  | some o =>
    let s3 := setVersion o { version s2 o with st := .draining } s2
    if (version s3 o).refs = 0 then freeVersion o s3 else s3

/-! ### Discards -/

/-- A frame is discarded in the module before its outgoing boundary, at present module time: an accepted timed frame is
EXPIRED, any other host frame reported DISCARDED, its reference given back (R199, R388, R546). -/
def discardFrame (p : Packet) (byModule : Bool) (s : State) : State :=
  let s1 := dropRef p s
  if p.promise.isSome then promiseEnds p (portOfFrame s p) s.tmu.ns true byModule s1
  else txFinal p 2 0xFF none 0 s1

def discardFrames (l : List Packet) (byModule : Bool) (s : State) : State :=
  l.foldl (fun t p => discardFrame p byModule t) s

/-! ### Delivery queues and exceptions (R392) -/

/-- A frame goes to a ring's delivery queue through checks 4 and 5 of R211, and is marked with its quadrant. The second
part says whether it was placed. -/
def toDelivery (ring : Nat) (p : Packet) (s : State) : State × Bool :=
  let r := rxRing s ring
  let drop (e : Nat) := (setRx ring { r with bad := r.bad + 1 } (ev e s), false)
  match chooseQuad s with
  | none => (offDomainDiscard 0x08 0 0 1 s, false)
  | some k =>
    if 4096 < cellsOf r.delivery + cells p then drop 0x0A0C
    else if freeCells s k ≤ s.sch.reserve + cells p then drop 0x0704
    else (setRx ring { r with delivery := r.delivery ++ [{ p with quadrant := k }] } s, true)

/-- The lowest RUNNING FRAMES ring whose EXC_KINDS holds the kind (R392). -/
def kindCode : Kind → Nat
  | .line => 0
  | .client => 1
  | .host => 2
  | .firmware => 3
  | .recirc => 4

def exceptionRing (s : State) (k : Kind) : Option Nat :=
  if on s 5 then
    (s.dma.rx.find? fun e => e.2.st == .running && ringFrames e.2 && bit e.2.ctrl (27 + kindCode k)).map (·.1)
  else none

/-- A frame leaves the data path for the host exception ring group with a reason (R14, R392). -/
def toException (reason : Nat) (p : Packet) (s : State) : State :=
  let s1 := dropRef p s
  let q := { p with version := none, reason := reason, delivery := .exception, queue := none }
  match exceptionRing s1 p.kind with
  | none => txFinal p 2 0xFF none 0 (ev 0x0A0D s1)
  | some r =>
    let (s2, placed) := toDelivery r q s1
    if placed then txFinal p 3 0xFF none reason s2 else txFinal p 2 0xFF none 0 s2

/-! ### Circuits (R139) -/

/-- The runs of a page of the slice that holds a circuit. -/
def slice' (s : State) (n : Nat) : Slice := mget sliceReset s.cir.slices n

def setSlice (n : Nat) (x : Slice) (s : State) : State :=
  { s with cir := { s.cir with slices := mput sliceReset s.cir.slices n x } }

def Slice.page (x : Slice) (n : Nat) : List Run := if n = 0 then x.page0 else x.page1

def Slice.setPage (n : Nat) (l : List Run) (x : Slice) : Slice := if n = 0 then { x with page0 := l } else { x with page1 := l }

/-- The runs of a circuit in one direction of a page, in ascending FIRST order (R133). -/
def runsOf (s : State) (page c : Nat) (up : Bool) : List Run :=
  (((slice' s (c % 16)).page page).filter fun r => r.circuit == c && r.up == up).mergeSort fun a b => a.first ≤ b.first

/-- Blocks of a circuit in one direction of a page. -/
def blocksOf (s : State) (page c : Nat) (up : Bool) : Nat := ((runsOf s page c up).map (·.count)).sum

/-- Payload bytes per line frame (R133). -/
def payloadBytes (n : Nat) : Nat := 48 * n - 4

/-- The Ethernet frame with its FCS that GFP carries, of at least 64 bytes (R136). -/
def gfpLen (p : Packet) : Nat := max 60 p.bytes.length + 4

/-- A frame enters a circuit's ingress queue, or is discarded over the limit of R139. A slice that is not ON takes none
(R20). -/
def toCircuit (c : Nat) (p : Packet) (s : State) : State :=
  let s1 := dropRef p s
  let x := circ s c
  let p := { p with version := none, circuit := some c, delivery := .circuit }
  let limit := x.q * payloadBytes (blocksOf s s.cir.active c true)
  if !on s (19 + c % 16) then txFinal p 2 0xFF none 0 (offDomainDiscard 0x06 1 0 1 s1)
  else
    match chooseQuad s with
    | none => txFinal p 2 0xFF none 0 (offDomainDiscard 0x06 1 0 1 s1)
    | some k =>
      if limit < ((x.ingress.map fun f => gfpLen f + 8).sum) + gfpLen p + 8 then txFinal p 2 0xFF none 0 (ev 0x040F s1)
      else setCirc c { circ s1 c with ingress := x.ingress ++ [{ p with quadrant := k }] } s1

/-! ### Parse (R14, R20, R155) -/

/-- A packet is offered to parse over an interface of R487; while PARSE is clear it is discarded there (R20, R155). -/
def offerParse (block i inst : Nat) (p : Packet) (s : State) : State :=
  if parseReady s then
    match p.kind with
    | .recirc => { s with prs := { s.prs with inRecirc := s.prs.inRecirc ++ [p] } }
    | .line => { s with prs := { s.prs with inLine := s.prs.inLine ++ [p] } }
    | _ => { s with prs := { s.prs with inClient := s.prs.inClient ++ [p] } }
  else discardFrame p false (offDomainDiscard block i inst 1 s)

end Sys2Proof.Machine
end

