-- ==== Sys2Proof/Machine/Parse.lean ====
section
/-! DEFINITION. Parse: dispatch, the engines and their instructions, outcomes, release in order (R155-R178). -/

namespace Sys2Proof.Machine

/-! ### Engines (R160) -/

def engine? (s : State) (e : Nat) : Option Engine := mfind s.prs.engines e

def setEngine (e : Nat) (x : Engine) (s : State) : State :=
  { s with prs := { s.prs with engines := minsert s.prs.engines e x } }

/-- Register n of an engine. -/
def Engine.reg (x : Engine) (n : Nat) : Word := nth x.g n 0

def Engine.setReg (n : Nat) (w : Word) (x : Engine) : Engine := { x with g := x.g.set n w }

/-- A bit of PFLAGS is set (R171). -/
def Engine.flag (n : Nat) (x : Engine) : Engine := { x with pflags := x.pflags ||| BitVec.ofNat 8 (2 ^ n) }

def Engine.stop (x : Engine) : Engine := { x with ended := some .stopped }

/-- The program stops with PARSE_TRUNCATED and a reason (R170, R171, R174). -/
def Engine.truncated (reason : Nat) (x : Engine) : Engine := { (x.flag 0).stop with trunc := reason }

/-- The engine has an instruction to execute: not ended, not waiting, within the step budget (R170). -/
def Engine.running (x : Engine) : Bool := x.ended.isNone && x.wait.isNone && x.steps < 96

/-- The instruction at an engine's address, none for a word that fails R164. -/
def fetchP (s : State) (x : Engine) : Option PInstr :=
  let w := pword s x.pc
  if x.pc < 8192 && w.heldBy x.slot then
    match decodeP w.w.toNat with
    | some (.b c t) => if (pword s t).heldBy x.slot then some (.b c t) else none
    | i => i
  else none

/-! ### Outcome and release (R158, R172, R173) -/

/-- The severities of R173: 0 LOOKUP, 1 EXCEPTION, 2 DROP. -/
def actionSeverity (a : Nat) : Nat := if a = 1 then 0 else if a = 2 then 2 else 1

/-- The flags set, each with its reason and the severity of its action in the version (R171-R174). -/
def flagList (v : Version) (x : Engine) : List (Nat × Nat) :=
  (if x.pflags.getLsbD 0 then [(x.trunc, actionSeverity (nth v.actions 0 0))] else [])
    ++ (if x.pflags.getLsbD 1 then [(4, actionSeverity (nth v.actions 1 0))] else [])
    ++ (if x.pflags.getLsbD 2 then [(5, actionSeverity (nth v.actions 2 0))] else [])
    ++ (if x.pflags.getLsbD 3 then [(6, 1)] else [])
    ++ (if x.pflags.getLsbD 4 then [(7, 1)] else [])

/-- The packet's outcome: its severity, and its reason when EXCEPTION (R173). -/
def parseOutcome (v : Version) (x : Engine) : Nat × Nat :=
  let fl := flagList v x
  let prog := match x.ended with
    | some (.exc _) => 1
    | some .drop => 2
    | _ => 0
  let sev := max prog ((fl.map (·.2)).foldl max 0)
  let reason := match fl with
    | [] => (match x.ended with | some (.exc r) => r | _ => 0)
    | (r, _) :: _ => r
  (sev, reason)

/-- A packet whose program has ended leaves parse (R172, R173). -/
def leaveParse (x : Engine) (s : State) : State :=
  let p := { x.packet with key := x.key, facts := x.facts, pflags := x.pflags }
  let o := parseOutcome (version s x.slot) x
  if o.1 = 2 then discardFrame p false (ev 0x0509 s)
  else if o.1 = 1 then toException o.2 p (ev 0x050A s)
  else if flowReady s then
    match x.side with
    | .line => { s with flw := { s.flw with inLine := s.flw.inLine ++ [p] } }
    | .client => { s with flw := { s.flw with inClient := s.flw.inClient ++ [p] } }
  else discardFrame p false (offDomainDiscard 0x05 0 0 1 s)

def orderOf (s : State) (sd : Side) : List Nat :=
  match sd with
  | .line => s.prs.orderLine
  | .client => s.prs.orderClient

def setOrder (sd : Side) (l : List Nat) (s : State) : State :=
  match sd with
  | .line => { s with prs := { s.prs with orderLine := l } }
  | .client => { s with prs := { s.prs with orderClient := l } }

/-- Packets leave parse in dispatch order: the ended ones at the front go (R158). -/
def releaseFront (sd : Side) : List Nat → State → State
  | [], s => setOrder sd [] s
  | e :: r, s =>
    match engine? s e with
    | some x =>
      if x.ended.isSome then
        releaseFront sd r (leaveParse x { s with prs := { s.prs with engines := merase s.prs.engines e } })
      else setOrder sd (e :: r) s
    | none => releaseFront sd r s

def releaseEnded (sd : Side) (s : State) : State := releaseFront sd (orderOf s sd) s

/-- An engine's state after an instruction, with the events counted; an ended packet leaves in its order. -/
def putEngine (e : Nat) (x : Engine) (evs : List Nat) (s : State) : State :=
  let t := evs.foldl (fun u n => ev n u) (setEngine e x s)
  if x.ended.isSome then releaseEnded x.side t else t

/-- What an instruction does to its engine, and the events it counts. -/
abbrev PEffect := State → Engine → Engine × List Nat

/-- An engine executes the instruction at its address when it is the one that `sel` names: one step (R165, R170). -/
def runP (e : Nat) (sel : PInstr → Option PEffect) (s : State) : State :=
  match engine? s e with
  | none => s
  | some x =>
    if x.running then
      match fetchP s x with
      | none => s
      | some i =>
        match sel i with
        | none => s
        | some f =>
          let r := f s { x with steps := x.steps + 1, pc := x.pc + 1 }
          putEngine e r.1 r.2 s
    else s

/-- An effect on the engine alone. -/
def plain (f : Engine → Engine) : PEffect := fun _ x => (f x, [])

/-! ### Loads, lengths, comparators, patterns (R166, R167, R169) -/

/-- Bytes at addresses a, a+1, ... taken in order (R167): the value so far, whether one lay at or past END, and whether
one lay beyond the window, which stops the load. -/
def loadBytes (p : Packet) (fin : Nat) : Nat → Nat → Nat → Bool → Nat × Bool × Bool
  | 0, _, acc, past => (acc, past, false)
  | n + 1, a, acc, past =>
    if fin ≤ a then loadBytes p fin n (a + 1) (acc * 256) true
    else if 512 ≤ a then (acc, past, true)
    else loadBytes p fin n (a + 1) (acc * 256 + (nth p.bytes a 0).toNat) past

/-- A load of 2^size bytes (R167). -/
def loadAt (rd size a : Nat) : PEffect := fun _ x =>
  let (v, past, window) := loadBytes x.packet x.fin (2 ^ size) a 0 false
  let fresh := past && !x.pflags.getLsbD 2
  let y := if past then x.flag 2 else x
  let evs := if fresh then [0x0505] else []
  if window then (y.truncated 3, evs ++ [0x0503]) else (y.setReg rd (word v), evs)

/-- The length check of R169. -/
def lenCheck (ra imm : Nat) : PEffect := fun _ x =>
  let d : Int := signed 64 (((x.reg ra).toNat + wrap 64 (signed 18 imm)) % 2 ^ 64)
  let e : Int := (x.cur : Int) + d
  let conflict (y : Engine) : Engine × List Nat := (y.flag 1, [0x0504])
  if d < 0 then conflict { x with fin := min x.fin x.cur }
  else if e = x.fin then (x, [])
  else if (x.fin : Int) < e then conflict x
  else if x.packet.bytes.length ≤ 64 then ({ x with fin := e.toNat }, [])
  else conflict { x with fin := e.toNat }

/-- The hit mask of a comparator bank (R166). -/
def rangeMask (s : State) (slot bank v : Nat) : Word :=
  word (((List.range 64).map fun j =>
    let c := comparator s (64 * bank + j)
    if c.heldBy slot && c.lo ≤ v && v ≤ c.hi then 2 ^ j else 0).sum)

/-- A pattern hits at a start (R166). -/
def patHit (bytes : List Byte) (p : Pattern) (st : Nat) : Bool :=
  st + p.length ≤ min bytes.length 2048 &&
    (List.range p.length).all fun i => (nth bytes (st + i) 0 ^^^ nth p.value i 0) &&& nth p.mask i 0 == 0

/-- The first start at which a pattern hits. -/
def patFirst (bytes : List Byte) (p : Pattern) : Option Nat :=
  ((List.range (min (p.stop + 1) 2048)).filter fun st => p.start ≤ st && patHit bytes p st).head?

/-- The result of a pattern group: the hit with the lowest start, the lowest pattern on a tie (R166). -/
def matchResult (s : State) (slot group : Nat) (bytes : List Byte) : Word :=
  let hits := (s.prs.pats.filter fun e => e.2.heldBy slot && e.2.group == group).filterMap fun e =>
    (patFirst bytes e.2).map fun st => (st, e.1)
  match hits.foldl (fun best h =>
    match best with
    | none => some h
    | some b => if h.1 < b.1 || (h.1 == b.1 && h.2 < b.2) then some h else best) none with
  | none => 0
  | some (st, n) => word (2 ^ 63 + at' n 16 + st)

/-- The matcher's result reaches a register; Z says no hit, LT is 0 (R165, R166). -/
def giveMatch (s : State) (rd group : Nat) (x : Engine) : Engine :=
  let r := matchResult s x.slot group x.packet.bytes
  { x.setReg rd r with z := r == 0, lt := false, wait := none }

/-- A branch condition (R165). -/
def condHolds (x : Engine) (c : Nat) : Bool :=
  if c = 0 then true
  else if c = 1 then x.z
  else if c = 2 then !x.z
  else if c = 3 then x.lt
  else if c = 4 then !x.lt
  else if c = 5 then !x.z && !x.lt
  else x.z || x.lt

/-- Index of the lowest set bit, 64 if none. -/
def lowestBit (w : Word) : Nat := ((List.range 64).find? fun n => w.getLsbD n).getD 64

/-- A meta field written, cut to its width (R168). -/
def setFact (field : Nat) (v : Word) (m : Meta) : Meta :=
  if field = 0 then { m with l3off := v.toNat % 2 ^ 14 }
  else if field = 1 then { m with l4off := v.toNat % 2 ^ 14 }
  else if field = 2 then { m with l4kind := v.toNat % 4 }
  else if field = 3 then { m with prio := v.toNat % 8 }
  else if field = 4 then { m with user := v.toNat % 2 ^ 32 }
  else { m with carry := v }

/-- A register operation of two sources (R165). -/
def aluFn (op : AluOp) (a b : Word) : Word :=
  match op with
  | .add => a + b
  | .sub => a - b
  | .and => a &&& b
  | .or => a ||| b
  | .xor => a ^^^ b
  | .shl => a <<< (b.toNat % 64)
  | .shr => a >>> (b.toNat % 64)

def aluStep (want : AluOp) (i : PInstr) : Option PEffect :=
  match i with
  | .alu op rd ra rb =>
    if op = want then some (plain fun x => x.setReg rd (aluFn op (x.reg ra) (x.reg rb))) else none
  | _ => none

/-! ### Dispatch (R156, R160-R162, R199) -/

/-- The source word of R161. -/
def sourceWord (p : Packet) : Word :=
  word (at' (kindCode p.kind) 56 + at' (kindCode p.firstKind) 48 + p.index % 2 ^ 20)

def factsReset : Meta := { l3off := 0, l4off := 0, l4kind := 0, prio := 0, user := 0, carry := 0 }

/-- The state of an engine at entry (R160). -/
def engineEntry (sd : Side) (p : Packet) (slot : Nat) : Engine :=
  let carry : Word := if p.kind = .recirc then p.facts.carry else 0
  { side := sd, packet := p, slot := slot
    g := List.replicate 13 0 ++ [carry, word p.bytes.length, sourceWord p]
    cur := 0, fin := p.bytes.length, z := false, lt := false, hdrs := [], steps := 0, key := List.replicate 5 0
    facts := factsReset, pflags := 0, trunc := 0, pc := 0, matched := false, wait := none, ended := none }

/-- The next packet of a side, and the state without it; recirculated packets come first (R21). -/
def nextPacket (sd : Side) (s : State) : Option (Packet × State) :=
  match sd with
  | .line =>
    match s.prs.inRecirc with
    | p :: r => some (p, { s with prs := { s.prs with inRecirc := r } })
    | [] => match s.prs.inLine with
      | p :: r => some (p, { s with prs := { s.prs with inLine := r } })
      | [] => none
  | .client => match s.prs.inClient with
    | p :: r => some (p, { s with prs := { s.prs with inClient := r } })
    | [] => none

/-- The packet is stamped: with the current version on its first pass, raising its references (R14, R199). -/
def stampPacket (p : Packet) (s : State) : Option (Nat × Packet × State) :=
  match p.version with
  | some v => some (v, p, s)
  | none => (currentSlot s).map fun v =>
    (v, { p with version := some v }, setVersion v { version s v with refs := (version s v).refs + 1 } s)

/-- PARSE_DISPATCH (R156): a waiting packet enters an idle engine of an ON cluster. -/
def execParseDispatch (sd : Side) (engine : Nat) (s : State) : Res :=
  if engine < 128 && on s (35 + engine / 32) && parseReady s && (engine? s engine).isNone then
    match nextPacket sd s with
    | none => done s s
    | some (p, s1) =>
      match stampPacket p s1 with
      | none => done s s
      | some (v, p, s2) =>
        let x := engineEntry sd p v
        let s3 := setOrder sd (orderOf s2 sd ++ [engine]) s2
        if (version s3 v).faulty then done s (putEngine engine ((x.flag 4).stop) [0x0507] s3)
        else
          match nth (version s3 v).entry (kindCode p.kind) none with
          | none => done s (putEngine engine { x with ended := some (.exc 8) } [0x0508] s3)
          | some a => done s (putEngine engine { x with pc := a } (if p.kind = .recirc then [0x050C] else []) s3)
  else done s s

/-! ### Instructions (R165) -/

/-- ADD: gRD := gRA + gRB. -/
def execPAdd (engine : Nat) (s : State) : Res := done s (runP engine (aluStep .add) s)

/-- SUB: gRD := gRA - gRB. -/
def execPSub (engine : Nat) (s : State) : Res := done s (runP engine (aluStep .sub) s)

/-- AND. -/
def execPAnd (engine : Nat) (s : State) : Res := done s (runP engine (aluStep .and) s)

/-- OR. -/
def execPOr (engine : Nat) (s : State) : Res := done s (runP engine (aluStep .or) s)

/-- XOR. -/
def execPXor (engine : Nat) (s : State) : Res := done s (runP engine (aluStep .xor) s)

/-- SHL: gRD := gRA shifted left by gRB[5:0]. -/
def execPShl (engine : Nat) (s : State) : Res := done s (runP engine (aluStep .shl) s)

/-- SHR: gRD := gRA shifted right, logical, by gRB[5:0]. -/
def execPShr (engine : Nat) (s : State) : Res := done s (runP engine (aluStep .shr) s)

def stepMov : PInstr → Option PEffect
  | .mov rd ra => some (plain fun x => x.setReg rd (x.reg ra))
  | _ => none

/-- MOV: gRD := gRA. -/
def execPMov (engine : Nat) (s : State) : Res := done s (runP engine stepMov s)

def stepAddi : PInstr → Option PEffect
  | .addi rd ra imm => some (plain fun x => x.setReg rd (x.reg ra + word imm))
  | _ => none

/-- ADDI: gRD := gRA + IMM. -/
def execPAddi (engine : Nat) (s : State) : Res := done s (runP engine stepAddi s)

def stepAndi : PInstr → Option PEffect
  | .andi rd ra imm => some (plain fun x => x.setReg rd (x.reg ra &&& word imm))
  | _ => none

/-- ANDI: gRD := gRA AND IMM. -/
def execPAndi (engine : Nat) (s : State) : Res := done s (runP engine stepAndi s)

def stepOri : PInstr → Option PEffect
  | .ori rd ra imm => some (plain fun x => x.setReg rd (x.reg ra ||| word imm))
  | _ => none

/-- ORI: gRD := gRA OR IMM. -/
def execPOri (engine : Nat) (s : State) : Res := done s (runP engine stepOri s)

def stepShli : PInstr → Option PEffect
  | .shli rd ra n => some (plain fun x => x.setReg rd (x.reg ra <<< n))
  | _ => none

/-- SHLI: gRD := gRA shifted left by IMM[5:0]. -/
def execPShli (engine : Nat) (s : State) : Res := done s (runP engine stepShli s)

def stepShri : PInstr → Option PEffect
  | .shri rd ra n => some (plain fun x => x.setReg rd (x.reg ra >>> n))
  | _ => none

/-- SHRI: gRD := gRA shifted right, logical, by IMM[5:0]. -/
def execPShri (engine : Nat) (s : State) : Res := done s (runP engine stepShri s)

def stepLdi : PInstr → Option PEffect
  | .ldi rd imm => some (plain fun x => x.setReg rd (word imm))
  | _ => none

/-- LDI: gRD := IMM. -/
def execPLdi (engine : Nat) (s : State) : Res := done s (runP engine stepLdi s)

def stepLdih : PInstr → Option PEffect
  | .ldih rd imm => some (plain fun x => x.setReg rd (x.reg rd <<< 18 ||| word imm))
  | _ => none

/-- LDIH: gRD := (gRD shifted left by 18) OR IMM. -/
def execPLdih (engine : Nat) (s : State) : Res := done s (runP engine stepLdih s)

def stepExt : PInstr → Option PEffect
  | .extr rd ra shift len => some (plain fun x => x.setReg rd ((x.reg ra >>> shift) &&& word (2 ^ (len + 1) - 1)))
  | _ => none

/-- EXT: gRD := (gRA shifted right by FN[13:8]) AND (2^(FN[5:0] + 1) - 1). -/
def execPExt (engine : Nat) (s : State) : Res := done s (runP engine stepExt s)

def stepCmp : PInstr → Option PEffect
  | .cmp ra rb => some (plain fun x => { x with z := x.reg ra == x.reg rb, lt := decide (x.reg ra < x.reg rb) })
  | _ => none

/-- CMP: Z := (gRA = gRB); LT := (gRA < gRB), unsigned. -/
def execPCmp (engine : Nat) (s : State) : Res := done s (runP engine stepCmp s)

def stepCmpi : PInstr → Option PEffect
  | .cmpi ra imm => some (plain fun x => { x with z := x.reg ra == word imm, lt := decide (x.reg ra < word imm) })
  | _ => none

/-- CMPI: Z := (gRA = IMM); LT := (gRA < IMM), unsigned. -/
def execPCmpi (engine : Nat) (s : State) : Res := done s (runP engine stepCmpi s)

def stepB : PInstr → Option PEffect
  | .b cond target => some (plain fun x => if condHolds x cond then { x with pc := target } else x)
  | _ => none

/-- B: if COND holds, next := TARGET. -/
def execPB (engine : Nat) (s : State) : Res := done s (runP engine stepB s)

def stepLd : PInstr → Option PEffect
  | .ld rd size frame off => some fun s x => loadAt rd size ((if frame then 0 else x.cur) + off) s x
  | _ => none

/-- LD (R167): gRD := SZ bytes at base + OFF. -/
def execPLd (engine : Nat) (s : State) : Res := done s (runP engine stepLd s)

def stepLdx : PInstr → Option PEffect
  | .ldx rd ra size => some fun s x => loadAt rd size ((x.cur + (x.reg ra).toNat) % 2 ^ 64) s x
  | _ => none

/-- LDX (R167): gRD := bytes at CUR + gRA, the sum modulo 2^64. -/
def execPLdx (engine : Nat) (s : State) : Res := done s (runP engine stepLdx s)

def stepAdv : PInstr → Option PEffect
  | .adv n => some (plain fun x => { x with cur := min 16383 (x.cur + n) })
  | _ => none

/-- ADV: CUR := CUR + IMM[13:0], saturating at 16,383. -/
def execPAdv (engine : Nat) (s : State) : Res := done s (runP engine stepAdv s)

def stepAdvr : PInstr → Option PEffect
  | .advr ra => some (plain fun x => { x with cur := min 16383 (x.cur + (x.reg ra).toNat) })
  | _ => none

/-- ADVR: CUR := CUR + gRA, saturating at 16,383. -/
def execPAdvr (engine : Nat) (s : State) : Res := done s (runP engine stepAdvr s)

def stepHdr : PInstr → Option PEffect
  | .hdr code => some fun _ x =>
    if 16 ≤ x.hdrs.length then (x.truncated 1, [0x0501]) else ({ x with hdrs := x.hdrs ++ [(code, x.cur)] }, [])
  | _ => none

/-- HDR (R170): a header is recorded, or the 17th stops the program. -/
def execPHdr (engine : Nat) (s : State) : Res := done s (runP engine stepHdr s)

def stepLenck : PInstr → Option PEffect
  | .lenck ra imm => some (lenCheck ra imm)
  | _ => none

/-- LENCK (R169). -/
def execPLenck (engine : Nat) (s : State) : Res := done s (runP engine stepLenck s)

def stepRng : PInstr → Option PEffect
  | .rng rd ra bank => some fun s x => (x.setReg rd (rangeMask s x.slot bank ((x.reg ra).toNat % 2 ^ 16)), [])
  | _ => none

/-- RNG (R166): gRD := hit mask of a comparator bank for gRA[15:0]. -/
def execPRng (engine : Nat) (s : State) : Res := done s (runP engine stepRng s)

def stepFfs : PInstr → Option PEffect
  | .ffs rd ra => some (plain fun x =>
    { x.setReg rd (word (lowestBit (x.reg ra))) with z := x.reg ra == 0, lt := false })
  | _ => none

/-- FFS: gRD := index of the lowest set bit of gRA, or 64; Z := (gRA = 0); LT := 0. -/
def execPFfs (engine : Nat) (s : State) : Res := done s (runP engine stepFfs s)

def stepMatch : PInstr → Option PEffect
  | .matchp rd group => some fun s x =>
    if x.matched || 17 ≤ x.steps then (giveMatch s rd group x, [])
    else ({ x with wait := some (rd, group, x.steps - 1) }, [])
  | _ => none

/-- MATCH (R166): the first hit of a pattern group. Results are ready 32 cycles after dispatch, the first instruction
running at 16; a MATCH before they are waits for MATCH_RESULTS_READY. -/
def execPMatch (engine : Nat) (s : State) : Res := done s (runP engine stepMatch s)

/-- MATCH_RESULTS_READY (R166): the scan of an engine's packet is complete; a waiting MATCH takes its result and counts
the cycles it waited, at least 1 and at most what is left of the 32 (a free value, log 3). -/
def execMatchResultsReady (engine : Nat) (s : State) : Res :=
  match engine? s engine with
  | none => done s s
  | some x =>
    match x.wait with
    | none => done s (setEngine engine { x with matched := true } s)
    | some (rd, group, before) =>
      let (r, s1) := draw s
      let n := 1 + r.toNat % (16 - before)
      done s (count 0x050B 0 n (setEngine engine (giveMatch s rd group { x with matched := true }) s1))

def stepKeyw : PInstr → Option PEffect
  | .keyw k ra => some (plain fun x => { x with key := x.key.set k (x.reg ra) })
  | _ => none

/-- KEYW: K(IMM[2:0]) := gRA. -/
def execPKeyw (engine : Nat) (s : State) : Res := done s (runP engine stepKeyw s)

def stepMeta : PInstr → Option PEffect
  | .metaf field ra cur => some (plain fun x =>
    { x with facts := setFact field (if cur then word x.cur else x.reg ra) x.facts })
  | _ => none

/-- META (R168): a meta field := gRA, or CUR. -/
def execPMeta (engine : Nat) (s : State) : Res := done s (runP engine stepMeta s)

def stepDone : PInstr → Option PEffect
  | .done => some (plain fun x => { x with ended := some .done })
  | _ => none

/-- DONE (R173): outcome LOOKUP. -/
def execPDone (engine : Nat) (s : State) : Res := done s (runP engine stepDone s)

def stepExc : PInstr → Option PEffect
  | .exc reason => some (plain fun x => { x with ended := some (.exc reason) })
  | _ => none

/-- EXC (R173): outcome EXCEPTION with a reason. -/
def execPExc (engine : Nat) (s : State) : Res := done s (runP engine stepExc s)

def stepDrop : PInstr → Option PEffect
  | .drop => some (plain fun x => { x with ended := some .drop })
  | _ => none

/-- DROP (R173): outcome DROP. -/
def execPDrop (engine : Nat) (s : State) : Res := done s (runP engine stepDrop s)

/-- PARSE_TRUNC_STEPS (R170): the 97th instruction is not executed, and the program stops. -/
def execParseTruncSteps (engine : Nat) (s : State) : Res :=
  match engine? s engine with
  | none => done s s
  | some x =>
    if x.ended.isNone && x.wait.isNone && 96 ≤ x.steps then done s (putEngine engine (x.truncated 2) [0x0502] s)
    else done s s

/-- BAD_INSTRUCTION (R171): a word that fails R164 stops the program. -/
def execBadInstruction (engine : Nat) (s : State) : Res :=
  match engine? s engine with
  | none => done s s
  | some x =>
    if x.running && (fetchP s x).isNone then done s (putEngine engine ((x.flag 3).stop) [0x0506] s) else done s s

end Sys2Proof.Machine
end

