-- ==== Sys2Proof/Machine/Flow.lean ====
section
/-! DEFINITION. Flow lookup and its actions, the flow commands, the rehash, the tag commands (R179-R195, R201-R204,
R432). -/

namespace Sys2Proof.Machine

def setFlow (f : Flow) (s : State) : State := { s with flw := f }

/-! ### Lookup and actions (R183-R186, R201) -/

def clsCode : Cls → Nat
  | .bestEffort => 0
  | .assured => 1
  | .timed => 2
  | .control => 3

def clsOf (n : Nat) : Cls := if n = 0 then .bestEffort else if n = 1 then .assured else if n = 2 then .timed else .control

/-- A frame goes on to admission, on its side; admission that is not ready takes none (R20, R186). -/
def toAdmission (sd : Side) (p : Packet) (s : State) : State :=
  if schedReady s then
    match sd with
    | .line => { s with sch := { s.sch with inLine := s.sch.inLine ++ [p] } }
    | .client => { s with sch := { s.sch with inClient := s.sch.inClient ++ [p] } }
  else discardFrame p false (offDomainDiscard 0x06 0 0 1 s)

/-- The context of a match is applied (R183, R201). -/
def applyCtx (sd : Side) (c : Ctx) (p : Packet) (s : State) : State :=
  let action := fld c.c0 58 56
  let p := { p with ctx := some c }
  let toQueue (p : Packet) := { p with queue := some (fld c.c0 31 14), cls := clsOf (fld c.c0 55 54) }
  if action = 0 then toAdmission sd { toQueue p with version := none } (dropRef p s)
  else if action = 1 then
    if p.firstKind = .line then toException 0x13 p (ev 0x0610 s) else toCircuit (fld c.c0 13 6) p s
  else if action = 2 then
    if p.kind = .recirc then toException 0x12 p (ev 0x060F s) else toAdmission sd (toQueue p) (ev 0x060E s)
  else if action = 3 then toAdmission sd { toQueue p with version := none } (dropRef p s)
  else if action = 4 then toException 0x11 p s
  else discardFrame p false (ev 0x0604 s)

/-- The miss action and MISS_BASE of a packet's space in its version (R185). -/
def missOf (p : Packet) (s : State) : Nat × Nat :=
  match p.version with
  | some v => nth (version s v).miss (kindCode p.kind) (0, 0)
  | none => (0, 0)

/-- The miss action of a packet's space in its version (R185). -/
def applyMiss (sd : Side) (p : Packet) (s : State) : State :=
  let m := missOf p s
  let p := { p with ctx := none }
  if m.1 = 1 then
    toAdmission sd { p with queue := some (m.2 + p.facts.prio), cls := .bestEffort, version := none } (dropRef p s)
  else if m.1 = 2 then discardFrame p false (ev 0x0604 s)
  else toException 0x10 p s

def lookupPacket (sd : Side) (p : Packet) (s : State) : State :=
  let k : Key := { space := kindCode p.kind, k := p.key }
  match flowFind s.flw k with
  | none => applyMiss sd p (ev 0x0603 s)
  | some l =>
    match entAt s.flw l with
    | none => applyMiss sd p (ev 0x0603 s)
    | some e => applyCtx sd e.ctx p (ev (match l with | .slot _ => 0x0601 | .cam _ => 0x0602) s)

/-- FLOW_LOOKUP (R181): the oldest packet of a side is looked up and goes on. -/
def execFlowLookup (sd : Side) (s : State) : Res :=
  if flowReady s then
    match sd with
    | .line =>
      match s.flw.inLine with
      | [] => done s s
      | p :: r => done s (lookupPacket .line p { s with flw := { s.flw with inLine := r } })
    | .client =>
      match s.flw.inClient with
      | [] => done s s
      | p :: r => done s (lookupPacket .client p { s with flw := { s.flw with inClient := r } })
  else done s s

/-! ### Rehash (R192-R195) -/

def startRehash (sd : Word) (s : State) : State :=
  ev 0x060B (setFlow { s.flw with newSeed := some sd, p := 0, stalled := false } s)

/-- Firmware works on the tables. -/
def fwWorks (s : State) : Bool := on s 2 && s.fw.running

/-- AUTO_REHASH_START (R192): with 192 CAM entries or more, automatic rehash on, and none running. -/
def execAutoRehashStart (s : State) : Res :=
  if on s 40 && s.flw.inited && fwWorks s && s.flw.auto && s.flw.newSeed.isNone && 192 ≤ s.flw.cam.length then
    let (sd, s1) := draw s
    done s (startRehash sd s1)
  else done s s

/-- The rehash ends: the CAM is offered, the new seed is in use under its generation, the command's result goes out. -/
def endRehash (sd : Word) (s : State) : State :=
  let (f, k) := offerCam sd (!s.flw.gen) s.flw.cam s.flw 0
  let s1 := count 0x060A 0 k (setFlow { f with seed := sd, newSeed := none, gen := !f.gen, stalled := false } s)
  finishWait .rehash 0 [sd] (ev 0x060D s1)

/-- Bucket pair P is migrated; a stall is counted and reported once (R193, R195). -/
def migratePair (sd : Word) (s : State) : State :=
  let f := s.flw
  let (f1, k, room) := migrateSlots sd (pairSlots f.p) f 0
  let s1 := count 0x060A 0 k (setFlow f1 s)
  if room then
    let s2 := setFlow { s1.flw with p := f.p + 1, stalled := false } s1
    if f.p + 1 = 131072 then endRehash sd s2 else s2
  else
    let s2 := setFlow { s1.flw with stalled := true } s1
    if f.stalled && k = 0 then s2 else evReport 0x060C [word f.p] s2

/-- REHASH_MIGRATE_PAIR (R193). -/
def execRehashMigratePair (s : State) : Res :=
  match s.flw.newSeed with
  | some sd => if on s 40 && fwWorks s && !s.flw.stalled then done s (migratePair sd s) else done s s
  | none => done s s

/-- REHASH_RETRY (R195): a stalled rehash tries its pair again. -/
def execRehashRetry (s : State) : Res :=
  match s.flw.newSeed with
  | some sd => if on s 40 && fwWorks s && s.flw.stalled then done s (migratePair sd s) else done s s
  | none => done s s

/-- FLOW_TABLE_INIT (R202): slots, CAM and tag map are cleared; the first time since supply good a seed is drawn (R180). -/
def execFlowTableInit (s : State) : Res :=
  if on s 40 && !s.flw.inited then
    let (sd, s1) := if s.flw.seeded then (s.flw.seed, s) else draw s
    done s (setFlow { s1.flw with slots := [], cam := [], tags := [], seed := sd, seeded := true, inited := true } s1)
  else done s s

/-! ### Group 0x06 (R432) -/

/-- A key given in w1 [2:0] and w2-w6. -/
def keyArg (ws : List Word) : Key := { space := fld (arg ws 1) 2 0, k := slice' ws }
where
  slice' (ws : List Word) : List Word := (ws.drop 2).take 5

def keyRange (ws : List Word) : Bool := onlyBits (arg ws 1) 7 && fld (arg ws 1) 2 0 ≤ 4

/-- A context given in w7-w9; VALID, GEN and SPACE are ignored. -/
def ctxArg (ws : List Word) : Ctx := { c0 := arg ws 7, c1 := arg ws 8, c2 := arg ws 9 }

/-- Every field of a context lies in the range of R182. -/
def ctxRange (c : Ctx) : Bool :=
  fld c.c0 58 56 ≤ 5 && fld c.c0 55 54 ≤ 2 && fld c.c0 53 52 == 0 && fld c.c0 51 32 ≤ 1048574 && fld c.c0 5 0 == 0
    && fld c.c1 26 22 == 0 && fld c.c2 56 32 == 0

/-- The action sends to QUEUE (R184). -/
def toQueueAction (c : Ctx) : Bool := let a := fld c.c0 58 56; a == 0 || a == 2 || a == 3

/-- The refusals of R184, R208 and R140 for a context in a space. -/
def ctxRefusal (s : State) (space : Nat) (c : Ctx) : Option (Nat × Option Nat) :=
  let action := fld c.c0 58 56
  let q := fld c.c0 31 14
  let port := portOf s q
  let tag := fld c.c1 46 27
  if action = 1 ∧ space = 0 then some (0x8006, none)
  else if !toQueueAction c then none
  else if action = 0 ∧ (port = 84 ∨ port = 85) then some (0x8006, none)
  else if action = 2 ∧ port ≠ 85 then some (0x8006, none)
  else if action = 3 ∧ port ≠ 84 then some (0x8006, none)
  else if fld c.c0 55 54 = 2 ∧ fld c.c1 21 0 = 0 ∧ space ≠ 2 then some (0x8006, none)
  else if fld c.c0 55 54 ≠ clsCode (queue s q).cls then some (0x8006, none)
  else if port < 64 then
    if controlHeld s && tag == controlTag s then some (0x8005, none)
    else match tagEntry s tag with
      | some w => if tagUp w then none else some (0x8006, none)
      | none => some (0x8006, none)
  else none

def flowIdUsed (s : State) (id : Nat) (except : Option Key) : Bool :=
  (allEnts s.flw).any fun e => flowIdOf e == id && some e.key != except

/-- FLOW_INSERT (R188-R190). -/
def cmdFlowInsert : IfCmd where
  opcode := 0x0601
  len := lenIs 10
  domains := fun ws => if toQueueAction (ctxArg ws) then [40, 41] else [40]
  range := fun _ ws => keyRange ws && ctxRange (ctxArg ws)
  check := fun s ws =>
    let k := keyArg ws
    let c := ctxArg ws
    match ctxRefusal s k.space c with
    | some r => some r
    | none =>
      if (flowFind s.flw k).isSome then some (0x8601, none)
      else if flowIdUsed s (fld c.c0 51 32) none then some (0x8602, none)
      else if (placeEntry k c s.flw).isNone then some (0x8007, some 0x0608)
      else none
  effect := fun _ ws s =>
    match placeEntry (keyArg ws) (ctxArg ws) s.flw with
    | none => (s, .done)
    | some (.slot _, f, moves) => (ev 0x0606 (count 0x060A 0 moves (setFlow f s)), .done)
    | some (.cam n, f, moves) => (ev 0x0607 (ev 0x0606 (count 0x060A 0 moves (setFlow f s))), .note 0x4601 n)

def execFlowInsert (ch : Nat) (s : State) : Res := done s (runIf cmdFlowInsert ch s)

/-- Every copy of a key's entry is changed, or removed. -/
def mapKey (k : Key) (f : FlowEnt → Option FlowEnt) (t : Flow) : Flow :=
  let go (m : Map FlowEnt) : Map FlowEnt := m.filterMap fun e =>
    if e.2.key = k then (f e.2).map fun x => (e.1, x) else some e
  { t with slots := go t.slots, cam := go t.cam }

/-- FLOW_MODIFY (R190): the context is rewritten; key, SPACE and GEN stay. -/
def cmdFlowModify : IfCmd where
  opcode := 0x0602
  len := lenIs 10
  domains := fun ws => if toQueueAction (ctxArg ws) then [40, 41] else [40]
  range := fun _ ws => keyRange ws && ctxRange (ctxArg ws)
  check := fun s ws =>
    let k := keyArg ws
    let c := ctxArg ws
    match ctxRefusal s k.space c with
    | some r => some r
    | none =>
      if (flowFind s.flw k).isNone then some (0x8603, none)
      else if flowIdUsed s (fld c.c0 51 32) (some k) then some (0x8602, none)
      else none
  effect := fun _ ws s =>
    let k := keyArg ws
    (setFlow (mapKey k (fun e => some { e with ctx := stampCtx k.space (genOf e) (ctxArg ws) }) s.flw) s, .done)

def execFlowModify (ch : Nat) (s : State) : Res := done s (runIf cmdFlowModify ch s)

def notFound (s : State) (ws : List Word) : Option (Nat × Option Nat) :=
  if (flowFind s.flw (keyArg ws)).isNone then some (0x8603, none) else none

/-- FLOW_DELETE (R190): VALID is cleared in every copy. -/
def cmdFlowDelete : IfCmd where
  opcode := 0x0603
  len := lenIs 7
  domains := fun _ => [40]
  range := fun _ ws => keyRange ws
  check := notFound
  effect := fun _ ws s => (ev 0x0609 (setFlow (mapKey (keyArg ws) (fun _ => none) s.flw) s), .done)

def execFlowDelete (ch : Nat) (s : State) : Res := done s (runIf cmdFlowDelete ch s)

/-- FLOW_READ (R432). -/
def cmdFlowRead : IfCmd where
  opcode := 0x0604
  len := lenIs 7
  domains := fun _ => [40]
  range := fun _ ws => keyRange ws
  check := notFound
  effect := fun _ ws s =>
    match flowFind s.flw (keyArg ws) with
    | none => (s, .done)
    | some l =>
      match entAt s.flw l with
      | none => (s, .done)
      | some e =>
        let place := match l with
          | .slot n => n
          | .cam n => 2 ^ 20 + n
        (s, .data [e.ctx.c0, e.ctx.c1, e.ctx.c2, word place])

def execFlowRead (ch : Nat) (s : State) : Res := done s (runIf cmdFlowRead ch s)

/-- Tag-map entries that the host holds: all but the control tag's (R187). -/
def hostTags (s : State) : Nat :=
  (s.flw.tags.filter fun e => !(controlHeld s && e.1 == controlTag s)).length

/-- TAG_SET (R187, R319). -/
def cmdTagSet : IfCmd where
  opcode := 0x0605
  len := lenIs 2
  domains := fun ws => if tagEncrypt (arg ws 1) then [40, 46] else [40]
  range := fun _ ws =>
    let w := arg ws 1
    fld w 37 0 == 0 && fld w 63 44 ≤ 1048574 && bit w 43 && tagTarget w ≤ 1
  check := fun s ws =>
    let w := arg ws 1
    let tag := fld w 63 44
    if controlHeld s && tag == controlTag s then some (0x8005, none)
    else if (tagEntry s tag).isNone && 4095 ≤ hostTags s then some (0x8007, none)
    else if tagEncrypt w && (mfind s.cph.pairs tag).isNone && (freePair s).isNone then some (0x8007, none)
    else none
  effect := fun _ ws s => (writeTag (fld (arg ws 1) 63 44) (arg ws 1) s, .done)

def execTagSet (ch : Nat) (s : State) : Res := done s (runIf cmdTagSet ch s)

/-- TAG_REMOVE (R187). -/
def cmdTagRemove : IfCmd where
  opcode := 0x0606
  len := lenIs 2
  domains := fun _ => [40]
  range := fun _ ws => onlyBits (arg ws 1) 0xFFFFF && fld (arg ws 1) 19 0 ≤ 1048574
  check := fun s ws =>
    let tag := fld (arg ws 1) 19 0
    if controlHeld s && tag == controlTag s then some (0x8005, none)
    else if (tagEntry s tag).isNone then some (0x8603, none)
    else none
  effect := fun _ ws s => (removeTag (fld (arg ws 1) 19 0) s, .done)

def execTagRemove (ch : Nat) (s : State) : Res := done s (runIf cmdTagRemove ch s)

/-- REHASH (R192): the seed is given or drawn. -/
def cmdRehash : IfCmd where
  opcode := 0x0607
  len := lenIs 3
  domains := fun _ => [40]
  range := fun _ ws => onlyBits (arg ws 1) 1
  check := fun s _ => if s.flw.newSeed.isSome then some (0x8003, none) else none
  effect := fun _ ws s =>
    let (sd, s1) := if bit (arg ws 1) 0 then (arg ws 2, s) else draw s
    (startRehash sd s1, .pend .rehash)

def execRehash (ch : Nat) (s : State) : Res := done s (runIf cmdRehash ch s)

/-- AUTO_REHASH (R192, R432). -/
def cmdAutoRehash : IfCmd where
  opcode := 0x0608
  len := lenIs 2
  domains := fun _ => [40]
  range := fun _ ws => onlyBits (arg ws 1) 1
  effect := fun _ ws s => (setFlow { s.flw with auto := bit (arg ws 1) 0 } s, .done)

def execAutoRehash (ch : Nat) (s : State) : Res := done s (runIf cmdAutoRehash ch s)

/-- FLOW_TABLE_READ (R432). -/
def cmdFlowTableRead : IfCmd where
  opcode := 0x0609
  len := lenIs 1
  domains := fun _ => [40]
  effect := fun _ _ s =>
    let f := s.flw
    (s, .data [f.seed, f.newSeed.getD 0,
      word (b2n f.gen + at' (b2n f.newSeed.isSome) 1 + at' (b2n f.stalled) 2 + at' (f.p % 2 ^ 18) 3),
      word (validCount f + at' f.cam.length 32)])

def execFlowTableRead (ch : Nat) (s : State) : Res := done s (runIf cmdFlowTableRead ch s)

end Sys2Proof.Machine
end

