-- ==== Sys2Proof/Machine/Shapers.lean ====
section
/-! DEFINITION. Shapers, the calendar, policers, and the fair-queuing tags (R214-R226). -/

namespace Sys2Proof.Machine

/-! ### Accounting length (R214) -/

/-- The module encrypts what leaves with this tag (R187). -/
def tagEncrypted (s : State) (tag : Nat) : Bool :=
  match tagEntry s tag with
  | some w => tagEncrypt w
  | none => false

/-- The channel tag of a frame that leaves through a grant stream (R182). -/
def frameTag (p : Packet) : Nat :=
  match p.ctx with
  | some c => fld c.c1 46 27
  | none => 0

/-- The accounting length of a frame at a port node (R214). -/
def acctLen (s : State) (port : Nat) (p : Packet) : Nat :=
  let n := p.bytes.length
  if port < 64 then 8 + (n + 7) / 8 * 8 + (if tagEncrypted s (frameTag p) then 16 else 0)
  else if port < 68 then max n 60 + 24
  else if port < 84 then n + 32
  else n

/-! ### Shapers (R218-R221) -/

/-- A rate that shapes (R219). -/
def shapes (sh : Shaper) : Bool := sh.rate != 0 && sh.rate != 0xFFFFFFFF

/-- What a rate gives in an interval of scheduler time, in 2^-16 byte (R218, R219). -/
def gained (rate dt45 : Nat) : Nat := rate * dt45 * 65536 / 360000000

/-- The level at present, refilled up to BURST (R219). -/
def Shaper.now (s : State) (sh : Shaper) : Int :=
  if shapes sh then min ((sh.burst * 65536 : Nat) : Int) (sh.level + (gained sh.rate (s.sch.time45 - sh.at45) : Nat))
  else sh.level

/-- The shaper brought to the present. -/
def Shaper.refill (s : State) (sh : Shaper) : Shaper := { sh with level := sh.now s, at45 := s.sch.time45 }

/-- Scheduler time in whole ns (R218). -/
def schedNs (s : State) : Nat := (s.sch.time45 + 44) / 45

/-- The eligible time of a debt (R220), the debt in 2^-16 byte. -/
def eligibleAt (now rate debt16 : Nat) : Nat := now + (debt16 * 8000000 + rate * 65536 - 1) / (rate * 65536)

/-- The wheel that takes an eligible time, parked beyond both (R222). -/
def wheelFor (now eligible : Nat) : CalPos :=
  if eligible < now + 262144 then .fine ((eligible + 63) / 64 % 4096)
  else if eligible ≤ now + 1073741824 then .coarse (eligible / 262144 % 4096)
  else .parked

/-- A shaper at present level takes its place (R220-R223): none while it may send, parked at rate 0. -/
def Shaper.place (s : State) (sh : Shaper) : Shaper :=
  if sh.rate = 0xFFFFFFFF then { sh with cal := .none }
  else if sh.rate = 0 then { sh with cal := .parked }
  else if 0 ≤ sh.level then { sh with cal := .none }
  else
    let e := eligibleAt (schedNs s) sh.rate sh.level.natAbs
    { sh with eligible := e, cal := wheelFor (schedNs s) e }

/-- Settings change at once on the level and the eligible time (R221). -/
def Shaper.reshape (s : State) (rate burst : Nat) (sh : Shaper) : Shaper :=
  let x := sh.refill s
  Shaper.place s { x with rate := rate, burst := burst, level := min x.level ((burst * 65536 : Nat) : Int) }

/-- A reset of scope BUCKET (R221): B := 0. -/
def Shaper.clear (s : State) (sh : Shaper) : Shaper := Shaper.place s { sh.refill s with level := 0 }

/-- A frame is charged (R219). -/
def Shaper.charge (s : State) (l : Nat) (sh : Shaper) : Shaper :=
  if shapes sh then
    let x := sh.refill s
    Shaper.place s { x with level := x.level - ((l * 65536 : Nat) : Int) }
  else sh

/-- A node that its shaper lets send: unshaped, or shaped and not in the calendar (R220). -/
def Shaper.open (sh : Shaper) : Bool := sh.rate == 0xFFFFFFFF || (sh.rate != 0 && sh.cal == .none)

/-- The valid settings of a shaper (R219). -/
def shaperRange (w : Word) : Bool :=
  let r := fld w 31 0
  let b := fld w 55 32
  (r == 0 || r == 0xFFFFFFFF || (64 ≤ r && r ≤ 800000000)) && 16415 ≤ b && fld w 63 56 == 0

/-! ### Shaped items -/

/-- An item with a shaper (R205). -/
inductive Item where
  | queue (q : Nat)
  | sub (n : Nat)
  | svc (n : Nat)
  | port (n : Nat)
  deriving DecidableEq, Repr

def shaperOf (s : State) : Item → Shaper
  | .queue q => (queue s q).shaper
  | .sub n => (subNode s n).shaper
  | .svc n => (svcNode s n).shaper
  | .port n => (portNode s n).shaper

/-- A shaper is written; a node that becomes parked is counted (R229). -/
def setShaper (i : Item) (sh : Shaper) (s : State) : State :=
  let old := shaperOf s i
  let s1 := match i with
    | .queue q => setQueue q { queue s q with shaper := sh } s
    | .sub n => setSub n { subNode s n with shaper := sh } s
    | .svc n => setSvc n { svcNode s n with shaper := sh } s
    | .port n => setPort n { portNode s n with shaper := sh } s
  if sh.cal = .parked ∧ old.cal ≠ .parked then ev 0x0706 s1 else s1

/-- Every item whose shaper is not at its default. -/
def items (s : State) : List Item :=
  s.sch.queues.map (fun e => .queue e.1) ++ s.sch.subs.map (fun e => .sub e.1) ++ s.sch.svcs.map (fun e => .svc e.1)
    ++ s.sch.ports.map fun e => .port e.1

/-- The items on the path of a queue that a shaped frame is charged to (R219). -/
def pathOf (s : State) (q : Nat) : List Item :=
  let port := portOf s q
  [.queue q, .sub (queue s q).parent, .svc (svcOf s q)] ++ (if 68 ≤ port then [.port port] else [])

def chargeAll (l : List Item) (n : Nat) (s : State) : State :=
  l.foldl (fun t i => setShaper i ((shaperOf t i).charge t n) t) s

/-! ### Pause that a port obeys (R271-R273) -/

/-- A class of a port is paused: its timer runs and the watchdog has not fired. -/
def pausedPrio (s : State) (n prio : Nat) : Bool :=
  let x := pauseReset' (cport s n) prio
  x.timer && !x.ignoring

/-- The assured and best-effort queues below a service node are paused (R271, R272). -/
def pausedSvc (s : State) (v : Nat) : Bool :=
  let port := (svcNode s v).parent
  if isClient port then
    let c := cport s (port - 64)
    if c.flow = 1 then pausedPrio s (port - 64) 0
    else if c.flow = 2 then pausedPrio s (port - 64) (svcNode s v).pfc
    else false
  else false

/-! ### Fair-queuing tags (R215-R217) -/

/-- A child of a node in one class (R216, R392). -/
inductive Child where
  | queue (q : Nat)
  | sub (n : Nat)
  | svc (n : Nat)
  | ring (n : Nat)
  deriving DecidableEq, Repr

/-- The tags of a node for the assured class, or for the best-effort class. -/
def SNode.tagsOf (cls : Cls) (x : SNode) : Tags := if cls = .assured then x.assured else x.best

def SNode.setTags (cls : Cls) (t : Tags) (x : SNode) : SNode :=
  if cls = .assured then { x with assured := t } else { x with best := t }

def childTags (s : State) (cls : Cls) : Child → Tags
  | .queue q => (queue s q).tags
  | .sub n => (subNode s n).tagsOf cls
  | .svc n => (svcNode s n).tagsOf cls
  | .ring n => (rxRing s n).tags

def setChildTags (cls : Cls) (c : Child) (t : Tags) (s : State) : State :=
  match c with
  | .queue q => setQueue q { queue s q with tags := t } s
  | .sub n => setSub n ((subNode s n).setTags cls t) s
  | .svc n => setSvc n ((svcNode s n).setTags cls t) s
  | .ring n => setRx n { rxRing s n with tags := t } s

/-- A parent: a subscriber, service or port node. -/
inductive Parent where
  | sub (n : Nat)
  | svc (n : Nat)
  | port (n : Nat)
  deriving DecidableEq, Repr

def parentTags (s : State) (cls : Cls) : Parent → Tags
  | .sub n => (subNode s n).tagsOf cls
  | .svc n => (svcNode s n).tagsOf cls
  | .port n => (portNode s n).tagsOf cls

def setParentTags (cls : Cls) (c : Parent) (t : Tags) (s : State) : State :=
  match c with
  | .sub n => setSub n ((subNode s n).setTags cls t) s
  | .svc n => setSvc n ((svcNode s n).setTags cls t) s
  | .port n => setPort n ((portNode s n).setTags cls t) s

/-- The node above a child. -/
def parentOf (s : State) : Child → Parent
  | .queue q => .sub (queue s q).parent
  | .sub n => .svc (subNode s n).parent
  | .svc n => .port (svcNode s n).parent
  | .ring n => .port (68 + ringGroup (rxRing s n))

def weightOf (s : State) : Child → Nat
  | .queue q => (queue s q).weight
  | .sub n => (subNode s n).weight
  | .svc n => (svcNode s n).weight
  | .ring _ => 4095

/-- Tags wrap, and compare by the sign of their difference (R215). -/
def tagBefore (a b : BitVec 48) : Bool := (a - b).msb

/-- A queue may be active: it holds a frame of the class, and neither its shaper, a parking nor a pause stops it
(R216, R27, R271). -/
def queueWants (s : State) (cls : Cls) (x : Queue) : Bool :=
  x.cls == cls && x.enable && !x.parked && !x.frames.isEmpty && x.shaper.open && !pausedSvc s (subNode s x.parent).parent

def nodeOpen (x : SNode) : Bool := x.shaper.open && !x.parked

/-- A subscriber node, and a service node, may be active (R216). -/
def subWants (s : State) (cls : Cls) (n : Nat) : Bool :=
  nodeOpen (subNode s n) && s.sch.queues.any fun e => e.2.parent == n && queueWants s cls e.2

def svcWants (s : State) (cls : Cls) (n : Nat) : Bool :=
  nodeOpen (svcNode s n) && s.sch.queues.any fun e =>
    (subNode s e.2.parent).parent == n && queueWants s cls e.2 && nodeOpen (subNode s e.2.parent)

/-- Every child that may be active, or is marked active, in a class. -/
def allChildren (s : State) (cls : Cls) : List Child :=
  let qs := s.sch.queues.filter fun e => e.2.cls == cls
  let subs := (qs.map fun e => e.2.parent) ++ s.sch.subs.map (·.1)
  let svcs := (subs.map fun n => (subNode s n).parent) ++ s.sch.svcs.map (·.1)
  qs.map (fun e => .queue e.1) ++ subs.dedup.map .sub ++ svcs.dedup.map .svc
    ++ (if cls = .bestEffort then s.dma.rx.map fun e => .ring e.1 else [])

def wants (s : State) (cls : Cls) : Child → Bool
  | .queue q => queueWants s cls (queue s q)
  | .sub n => subWants s cls n
  | .svc n => svcWants s cls n
  | .ring n => !(rxRing s n).delivery.isEmpty

/-- A child that stops being active. -/
def restChild (cls : Cls) (t : State) (c : Child) : State :=
  let g := childTags t cls c
  if g.active && !wants t cls c then setChildTags cls c { g with active := false } t else t

/-- A parent left with no active child takes its largest finish tag as its virtual time (R216). -/
def restParent (cls : Cls) (t : State) (c : Child) : State :=
  let p := parentOf t c
  let busy := (allChildren t cls).any fun d => parentOf t d == p && (childTags t cls d).active
  if busy then t else setParentTags cls p { parentTags t cls p with v := (parentTags t cls p).vmax } t

/-- A child that becomes active: S := max(F, v) (R217). -/
def wakeChild (cls : Cls) (t : State) (c : Child) : State :=
  let g := childTags t cls c
  if !g.active && wants t cls c then
    let v := (parentTags t cls (parentOf t c)).v
    setChildTags cls c { g with active := true, s := if tagBefore g.f v then v else g.f } t
  else t

def followClass (cls : Cls) (s : State) : State :=
  let l := allChildren s cls
  l.foldl (wakeChild cls) (l.foldl (restParent cls) (l.foldl (restChild cls) s))

/-- The tags follow what has changed: frames, shapers, parents, pauses. -/
def followTags (s : State) : State := followClass .bestEffort (followClass .assured s)

/-- A child takes a new parent: newly active there, with its last finish tag zero (R209). -/
def Tags.moved (t : Tags) : Tags := { t with active := false, f := 0 }

/-- A child is served a frame of accounting length l: its tags and its parent's follow (R215, R216). -/
def serveChild (cls : Cls) (l : Nat) (s : State) (c : Child) : State :=
  let g := childTags s cls c
  let f := g.s + BitVec.ofNat 48 ((l * 4096 + weightOf s c - 1) / weightOf s c)
  let p := parentOf s c
  let s1 := setChildTags cls c { g with s := f, f := f } s
  let h := parentTags s1 cls p
  setParentTags cls p { h with v := g.s, vmax := if tagBefore h.vmax f then f else h.vmax } s1

/-! ### Policers (R225, R226) -/

def policer (s : State) (n : Nat) : Policer := mget policerReset s.sch.pols n

def setPolicer (n : Nat) (x : Policer) (s : State) : State :=
  { s with sch := { s.sch with pols := mput policerReset s.sch.pols n x } }

/-- Both buckets refilled to the present (R226). -/
def Policer.refill (s : State) (x : Policer) : Policer :=
  let dt := s.sch.time45 - x.at45
  { x with tc := min (x.cbs * 65536) (x.tc + gained x.cir dt), te := min (x.ebs * 65536) (x.te + gained x.eir dt)
           at45 := s.sch.time45 }

/-- The colours of R226. -/
inductive Colour where
  | green | yellow | red
  deriving DecidableEq, Repr

/-- A frame of b bytes is measured (R226); its colour is counted. -/
def measure (n b : Nat) (s : State) : Colour × State :=
  let x := (policer s n).refill s
  let b16 := b * 65536
  if b16 ≤ x.tc then (.green, ev 0x0720 (setPolicer n { x with tc := x.tc - b16 } s))
  else if b16 ≤ x.te then (.yellow, ev 0x0721 (setPolicer n { x with te := x.te - b16 } s))
  else (.red, ev 0x0722 (setPolicer n x s))

end Sys2Proof.Machine
end

