-- ==== Sys2Proof/Machine/Time.lean ====
section
/-! DEFINITION. Module time: the counter, its discipline, steps, bridging, stamp queues, timing outputs, PPS_IN. -/

namespace Sys2Proof.Machine

/-- Nearest integer of a / b, halves up. -/
def roundDiv (a : Int) (b : Nat) : Int := (2 * a + b) / (2 * b : Nat)

/-- Least integer not below a / b. -/
def ceilDiv (a b : Nat) : Nat := (a + b - 1) / b

/-! ### The counter (R281-R283) -/

/-- INC_NOM, the nominal period 128/45 ns truncated, in 2^-32 ns (R282). -/
def incNom : Nat := 12216795864

/-- INC_BASE by root reference (R282): e in 10^-12. -/
def incBase (s : State) : Int :=
  if s.line.rootLocked then incNom
  else roundDiv (incNom * 1000000000000) (1000000000000 + s.tmu.e).toNat

/-- INC_EFF (R283). -/
def incEff (s : State) : Int := incBase s + roundDiv (incBase s * s.tmu.adj) (65536 * 1000000)

/-- NS and FRAC as one number of 2^-32 ns. -/
def nowFrac (s : State) : Nat := s.tmu.ns * 2 ^ 32 + s.tmu.frac

def setNowFrac (x : Nat) (s : State) : State :=
  { s with tmu := { s.tmu with ns := x / 2 ^ 32 % 2 ^ 64, frac := x % 2 ^ 32 } }

/-! ### Timing outputs (R307-R311) -/

/-- The settings of an output at reset (R307). -/
def toutReset : Tout :=
  { mode := 0, rate := 2, width := 10000, delay := 0, activeLow := false, gate := 2, lastEdge := none }

def tout (s : State) (n : Nat) : Tout := mget toutReset s.tmu.touts n

def setTout (n : Nat) (t : Tout) (s : State) : State :=
  { s with tmu := { s.tmu with touts := mput toutReset s.tmu.touts n t } }

/-- N and D of a RATE (R308). -/
def rateND (r : Nat) : Nat × Nat :=
  nth [(24000, 1001), (24, 1), (25, 1), (30000, 1001), (30, 1), (48000, 1001), (48, 1), (50, 1), (60000, 1001), (60, 1),
    (100, 1), (120000, 1001), (120, 1)] r (25, 1)

/-- How many edges of an output have an edge time in (0, x] ns, edge k at the time R308 gives it. -/
def edgesUpTo (t : Tout) (x : Nat) : Nat :=
  if t.mode = 1 then x / 1000000000
  else if t.mode = 2 then x / 100
  else if t.mode = 3 then x * (rateND t.rate).1 / ((rateND t.rate).2 * 1000000000)
  else 0

/-- Whole ns of the time of edge k (R308). -/
def edgeNs (t : Tout) (k : Nat) : Nat :=
  if t.mode = 1 then k * 1000000000
  else if t.mode = 2 then k * 100
  else k * (rateND t.rate).2 * 1000000000 / (rateND t.rate).1

/-- Module time plus DELAY: an edge is output when module time equals its edge time minus DELAY (R307). -/
def edgeClock (t : Tout) (ns : Nat) : Nat := ((ns : Int) + t.delay).toNat

/-- The GATE condition (R307, R309). -/
def gateOpen (s : State) (t : Tout) : Bool :=
  t.gate == 0 || s.tmu.st == .locked || (t.gate == 2 && s.tmu.st == .holdover)

/-- The output gives edges: not OFF, gate open, PD49 and PD07 ON (R307, R309, R311). -/
def toutRuns (s : State) (t : Tout) : Bool := on s 49 && on s 7 && t.mode != 0 && gateOpen s t

/-- Edges that a forward step from `a` to `b` passes over (R310). -/
def skippedEdges (t : Tout) (a b : Nat) : Nat :=
  let lo := match t.lastEdge with
    | some e => max (edgeClock t a) e
    | none => edgeClock t a
  edgesUpTo t (edgeClock t b) - edgesUpTo t lo

/-- Each edge that a step passes is counted, and TOUT_SKIPPED set (R310). -/
def skipTouts (a b : Nat) (s : State) : State :=
  (List.range 4).foldl (fun t n =>
    let o := tout t n
    let k := if toutRuns t o then skippedEdges o a b else 0
    if k = 0 then t else setTmuEvent 8 (count 0x0C0E 0 k t)) s

/-! ### Stamp queues (R301-R304) -/

def tsqReset : StampQ := { recs := [], lostTotal := 0, lostSince := 0, stepped := false }

def tsq (s : State) (q : Nat) : StampQ := mget tsqReset s.tmu.tsq q

def setTsq (q : Nat) (x : StampQ) (s : State) : State :=
  { s with tmu := { s.tmu with tsq := mput tsqReset s.tmu.tsq q x } }

/-- Records that queue q holds at most (R302). -/
def tsqDepth (q : Nat) : Nat := if q = 4 then 256 else 1024

/-- A stamp record is stored, or dropped when its queue is full (R302, R303). -/
def pushStamp (q tag gs : Nat) (st : StampIn) (s : State) : State :=
  if on s 7 then
    let x := tsq s q
    if x.recs.length < tsqDepth q then
      setTsq q { x with
        recs := x.recs ++ [{ tag := tag % 2 ^ 16, lost := min x.lostSince 0xFFFF, stepped := x.stepped, gs := gs
                             fracHi := st.frac / 2 ^ 16 % 2 ^ 16, ns := st.ns }]
        lostSince := 0, stepped := false } s
    else
      setTmuEvent 5 (ev 0x0C0C (setTsq q { x with lostTotal := x.lostTotal + 1, lostSince := x.lostSince + 1 } s))
  else s

/-- The head word of a record (R303). -/
def stampWord (r : Stamp) : Word :=
  word (at' (r.tag % 2 ^ 16) 48 + at' (r.lost % 2 ^ 16) 32 + at' 1 31 + at' (b2n r.stepped) 30 + at' (r.gs % 64) 24
    + r.fracHi % 2 ^ 16)

/-- The next stored record of every queue carries STEPPED (R293). -/
def markStepped (s : State) : State :=
  (List.range 5).foldl (fun t q => setTsq q { tsq t q with stepped := true } t) s

/-! ### State, uncertainty, steps (R287-R293) -/

def satu32 (n : Nat) : Nat := min n 0xFFFFFFFF

/-- UNCERTAINTY (R288). -/
def uncertainty (s : State) : Nat :=
  let d := s.tmu.disc
  match s.tmu.st with
  | .free => 0xFFFFFFFF
  | .locked | .acquiring =>
    if d.mode = 1 then satu32 d.hostBound
    else match d.theta with
      | some t => satu32 (ceilDiv t.natAbs (2 ^ 32) + 20)
      | none => 0xFFFFFFFF
  | .holdover => satu32 (d.baseUnc + ceilDiv (s.tmu.ns - d.entryNs) 2000000)
  | .bridged => satu32 d.baseUnc

def timeStCode : TimeSt → Nat
  | .free => 0
  | .acquiring => 1
  | .locked => 2
  | .holdover => 3
  | .bridged => 4

/-- ADJ written; it holds from this tick (R283). -/
def setAdj (a : Int) (s : State) : State :=
  let d := s.tmu.disc
  { s with tmu := { s.tmu with adj := a, disc := { d with adjSegs := (d.ticks, a) :: d.adjSegs } } }

/-- The integral of ADJ from tick `lo` to tick `hi` over the segments, newest first. -/
def adjArea (lo : Nat) : Nat → List (Nat × Int) → Int
  | hi, [] => ((hi - lo : Nat) : Int) * 0
  | hi, (t, a) :: r =>
    let from' := max lo t
    ((hi - from' : Nat) : Int) * a + (if t ≤ lo then 0 else adjArea lo (min hi t) r)

/-- The mean of ADJ over the last 16 s, or since PD07 reached ON (R287). -/
def adjMean (s : State) : Int :=
  let d := s.tmu.disc
  let lo := d.ticks - 16 * 351562500
  if d.ticks = lo then s.tmu.adj else roundDiv (adjArea lo d.ticks d.adjSegs) (d.ticks - lo)

/-- The time state changes: TIME_LOCKED, TMU_EVENTS, the counters and the Ifeif event follow (R286, R287, R313). -/
def setTimeSt (new : TimeSt) (s : State) : State :=
  let old := s.tmu.st
  if old = new then s
  else
    let d := s.tmu.disc
    let u := uncertainty s
    let adj := adjMean s
    let s := match new with
      | .holdover => setAdj adj { s with tmu := { s.tmu with disc := { d with baseUnc := u, entryNs := s.tmu.ns, small := 0 } } }
      | .acquiring => { s with tmu := { s.tmu with disc := { d with sigma := 0, small := 0, blank := 0 } } }
      | _ => s
    let s := { s with tmu := { s.tmu with st := new } }
    let s := if old = .locked then setTmuEvent 2 (ev 0x0C04 s) else s
    let s := if new = .locked then setTmuEvent 1 (ev 0x0C03 s) else s
    let s := if new = .holdover then setTmuEvent 3 (ev 0x0C05 s) else s
    let s := if new = .bridged then setTmuEvent 4 (ev 0x0C06 s) else s
    evReport 0x0C07 [word (at' (uncertainty s) 32 + at' (timeStCode old) 3 + timeStCode new)] s

/-- The root leaves the recovered clock: ACQUIRING and LOCKED fall to HOLDOVER (R287). -/
def timeRootLost (s : State) : State :=
  if on s 7 && (s.tmu.st == .acquiring || s.tmu.st == .locked) then setTimeSt .holdover s else s

/-- A step of Δ whole ns (R292, R293). -/
def stepTime (delta : Int) (s : State) : State :=
  let a := s.tmu.ns
  let b := wrap 64 ((a : Int) + delta)
  let s := { s with tmu := { s.tmu with ns := b, disc := { s.tmu.disc with sigma := 0 } } }
  let s := setTmuEvent 0 (ev 0x0C01 s)
  let s := markStepped s
  let s := if 0 < delta then skipTouts a b s else s
  shiftHeld delta s

/-! ### Samples of the line's time (R290, R291) -/

/-- The asymmetry in use, and whether TIME_PARAMS gave it (R290). -/
def asymmetryInUse (s : State) : Int × Bool :=
  match s.tmu.disc.params with
  | some b => let a := be b 4 4; if a = 0x80000000 then (s.tmu.disc.asym, false) else (signed 32 a, true)
  | none => (s.tmu.disc.asym, false)

/-- theta of a line frame in 2^-32 ns (R290): its time of day, and the stamp of its sync. -/
def thetaOf (s : State) (dOff todSec todNs : Nat) (st : StampIn) : Int :=
  let x : Int := (dOff : Int) - 3600000 - s.pf.eqd
  let dDown := roundDiv (x * (1000000000 - (asymmetryInUse s).1) * 2 ^ 32) (225 * 1000000000)
  ((st.ns * 2 ^ 32 + st.frac : Nat) : Int) - (((todSec * 1000000000 + todNs) * 2 ^ 32 : Nat) : Int) - dDown

/-- The sample of a line frame in PF5 is taken or found unusable (R290). `tod` is none where the crust is undecoded, has
TOD_VALID clear or TOD_NS out of range; its last part is TOD_HOLDOVER. -/
def takeSample (tod : Option (Nat × Nat × Bool)) (st : StampIn) (s : State) : State :=
  if s.pf.st != .pf5 then s
  else match tod, s.tmu.disc.params with
    | some (sec, ns, ho), some p =>
      if s.frm.lineSync && s.line.rootLocked && timeReady s then
        let d := s.tmu.disc
        ev 0x0C08 { s with tmu := { s.tmu with disc := { d with
          sum := d.sum + thetaOf s (be p 0 4) sec ns st, samples := d.samples + 1, heHoldover := ho } } }
      else ev 0x0C09 s
    | _, _ => ev 0x0C09 s

/-- ADJ from the last mean and the sum of the means, within 10 ppm (R291). -/
def servoAdj (theta sigma : Int) : Int :=
  max (-655360) (min 655360 (-(roundDiv ((16 * theta + sigma) * 65536) (16 * 1000 * 2 ^ 32))))

/-- A mean lies beyond STEP_THRESHOLD (R291). -/
def beyondThreshold (theta : Int) (s : State) : Bool := s.tmu.disc.threshold * 2 ^ 32 < theta.natAbs

/-- The servo of one mean (R291): a step beyond STEP_THRESHOLD, else the frequency. -/
def servo (theta : Int) (s : State) : State :=
  if beyondThreshold theta s then stepTime (roundDiv (-theta) (2 ^ 32)) s
  else
    let sigma := s.tmu.disc.sigma + theta
    setAdj (servoAdj theta sigma) { s with tmu := { s.tmu with disc := { s.tmu.disc with sigma := sigma } } }

/-- The state machine of R287 on a mean, before the servo acts. -/
def meanState (theta : Int) (s : State) : State :=
  let a := theta.natAbs
  match s.tmu.st with
  | .free | .holdover | .bridged => setTimeSt .acquiring s
  | .acquiring =>
    let n := if a ≤ 50 * 2 ^ 32 then s.tmu.disc.small + 1 else 0
    let t := { s with tmu := { s.tmu with disc := { s.tmu.disc with small := n } } }
    if 10 ≤ n then setTimeSt .locked t else t
  | .locked => if 250 * 2 ^ 32 < a then setTimeSt .acquiring s else s

/-- Firmware disciplines module time: it runs, and the mode is LINE (R287, R291). -/
def servoOn (s : State) : Bool := timeReady s && s.fw.running && on s 2 && s.tmu.disc.mode == 0

/-! ### Access by a requester -/

/-- The requester's path to BAR0 exists (R29, R511, R543). -/
def reaches (s : State) (r : Req) : Bool :=
  match r with
  | .mgmt => on s 2
  | .host => s.pcie.linkUp && on s 4 && !s.pcie.d3hot
  | .jtag => s.pwr.supplyGood && s.pwr.vio

/-- A request of the host meets the function in D3hot (R360). -/
def inD3 (s : State) (r : Req) : Bool := r == .host && s.pcie.linkUp && on s 4 && s.pcie.d3hot

/-- What a read of a block whose domain is not ON returns (R464). -/
def offValue (domain : Nat) : BitVec 64 := BitVec.ofNat 64 (0xBAD00000 + domain)

/-- An access to BAR0 as a row spells it. -/
def bar0 (r : Req) (offset size : Nat) (write : Bool) (v : Word) : Access :=
  { req := r, bar := 0, offset := offset, size := size, write := write, value := v, poisoned := false, descs := [] }

/-- A side-effect read through the fabric: the effect where the block's domain is ON, else held by a wake, or the off-domain
answer. -/
def readSide (r : Req) (offset domain : Nat) (wide : Bool) (f : State → BitVec 64 × State) (s : State) : State :=
  let half (v : BitVec 64) : BitVec 64 := if wide then v else v &&& 0xFFFFFFFF
  if !reaches s r then (if inD3 s r then emit (.unsupported r) s else s)
  else if on s domain then
    let p := f s
    if wide then emit (.readReply r p.1) p.2 else emit (.readReply r (half p.1)) s
  else if holds s domain then holdAccess domain (bar0 r offset (if wide then 8 else 4) false 0) s
  else emit (.readReply r (half (offValue domain))) (offDomainRec r offset false domain s)

/-- A write with a side effect through the fabric: the effect where the block's domain is ON, else held by a wake, or
dropped and recorded (R464). -/
def writeSide (r : Req) (offset domain : Nat) (v : Word) (f : State → State) (s : State) : State :=
  if !reaches s r then s
  else if on s domain then f s
  else if holds s domain then holdAccess domain (bar0 r offset 8 true v) s
  else offDomainRec r offset true domain s

def tmuLatchReset : TmuLatch := { frac := 0, tsq := [] }

def latch (s : State) (r : Req) : TmuLatch := mget tmuLatchReset s.tmu.latches (reqNo r)

def setLatch (r : Req) (l : TmuLatch) (s : State) : State :=
  { s with tmu := { s.tmu with latches := mput tmuLatchReset s.tmu.latches (reqNo r) l } }

/-! ### Rows -/

/-- TIME_TICK (R281): INC_EFF is added to {NS, FRAC}; scheduler time advances by the nominal period of 128/45 ns, in
PD41 (R218). -/
def execTimeTick (s : State) : Res :=
  let s1 := if timeReady s then
      let t := setNowFrac ((nowFrac s : Int) + incEff s).toNat s
      { t with tmu := { t.tmu with disc := { t.tmu.disc with ticks := t.tmu.disc.ticks + 1 } } }
    else s
  let s2 := if on s 41 then { s1 with sch := { s1.sch with time45 := s1.sch.time45 + 128 } } else s1
  done s s2

/-- ALWAYS_ON_COUNTER_TICK (R24): one more period, modulo 2^48. -/
def execAlwaysOnCounterTick (s : State) : Res :=
  if s.pwr.supplyGood then done s { s with pwr := { s.pwr with aon := s.pwr.aon + 1 } } else done s s

/-- TIME_SECOND_MEAN (R291): the mean of a second's usable samples moves the state and steers or steps. -/
def execTimeSecondMean (s : State) : Res :=
  if servoOn s then
    let d := s.tmu.disc
    let s1 := { s with tmu := { s.tmu with disc := { d with sum := 0, samples := 0, lastSamples := d.samples } } }
    if d.samples < 4000 then
      let n := d.blank + 1
      let s2 := { s1 with tmu := { s1.tmu with disc := { s1.tmu.disc with blank := n } } }
      done s (if 2 ≤ n && (s2.tmu.st == .acquiring || s2.tmu.st == .locked) then setTimeSt .holdover s2 else s2)
    else
      let theta := roundDiv d.sum d.samples
      let s2 := { s1 with tmu := { s1.tmu with disc := { s1.tmu.disc with theta := some theta, blank := 0 } } }
      done s (servo theta (meanState theta s2))
  else done s s

/-- TIME_PARAMS (R289): the item is taken in PF5 when its fields are in range; otherwise discarded and counted. -/
def takeTimeParams (c : CtrlIn) (s : State) : State :=
  let body := c.drop 8
  let dOff := be body 0 4
  let asym := be body 4 4
  if s.pf.st != .pf5 then s
  else if be c 0 2 ≠ 0x0381 ∨ be c 4 2 ≠ 32 ∨ body.length ≠ 32 then ev 0x03E0 s
  else if 3600000 ≤ dOff && dOff ≤ 67500000 && (asym = 0x80000000 || (signed 32 asym).natAbs ≤ 100000) then
    ev 0x0C0A { s with tmu := { s.tmu with disc := { s.tmu.disc with params := some body } } }
  else ev 0x0C0B s

def execTimeParams (c : CtrlIn) (s : State) : Res := done s (takeTimeParams c s)

/-- TCXO_ERROR_UPDATE (R282): a measurement of e while the root is locked. -/
def execTcxoErrorUpdate (ppt : Int) (s : State) : Res :=
  if s.line.rootLocked && on s 7 then done s { s with tmu := { s.tmu with e := ppt } } else done s s

/-- AON_NS_UPDATE (R295): a measurement of AON_NS while PD07 is ON and the root locked. -/
def execAonNsUpdate (aonNs : Nat) (s : State) : Res :=
  if s.line.rootLocked && on s 7 then done s { s with tmu := { s.tmu with aonNs := aonNs } } else done s s

/-- TIME_BRIDGED (R300): module time resumes from what PD00 saved and from the always-on counter. -/
def execTimeBridged (s : State) : Res :=
  match s.tmu.saved with
  | some v =>
    if on s 7 then
      let gap := (s.pwr.aon - v.aon).toNat
      let t := v.ns * 2 ^ 32 + v.frac + gap * v.aonNs
      let u := satu32 (v.uncertainty + ceilDiv (gap * v.aonNs) (50000 * 2 ^ 32))
      let s1 := setNowFrac t { s with tmu := { s.tmu with
        saved := none, adj := v.adj, aonNs := v.aonNs
        disc := { s.tmu.disc with baseUnc := u, ticks := 0, adjSegs := [(0, v.adj)] } } }
      let s2 := if s1.tmu.st = .bridged then setTmuEvent 4 (ev 0x0C06 s1) else setTimeSt .bridged s1
      done s (bridgeHeld s2)
    else done s s
  | none => done s s

/-- A read of TMU_NOW latches FRAC for its requester (R284). -/
def readNow (req : Req) (t : State) : BitVec 64 × State :=
  (word t.tmu.ns, setLatch req { latch t req with frac := t.tmu.frac } t)

/-- TMU_NOW_READ (R284); a 32-bit read changes nothing (R362). -/
def execTmuNowRead (req : Req) (wide : Bool) (s : State) : Res := done s (readSide req 0x40000 7 wide (readNow req) s)

/-- A read of TMU_TSQq_HEAD: the oldest record leaves the queue, and its time is latched for the requester (R303). -/
def readHead (req : Req) (queue : Nat) (t : State) : BitVec 64 × State :=
  match (tsq t queue).recs with
  | [] => (0, t)
  | r :: rest =>
    (stampWord r, setLatch req { latch t req with tsq := mput 0 (latch t req).tsq queue (word r.ns) }
      (setTsq queue { tsq t queue with recs := rest } t))

/-- TSQ_HEAD_READ (R303). -/
def execTsqHeadRead (req : Req) (queue : Nat) (wide : Bool) (s : State) : Res :=
  if 5 ≤ queue then done s s
  else done s (readSide req (0x40100 + 0x20 * queue) 7 wide (readHead req queue) s)

/-- TOUT_EDGE (R308-R310): the last edge at or before now goes out, once. -/
def execToutEdge (output : Nat) (s : State) : Res :=
  let o := tout s output
  if output < 4 && toutRuns s o && timeReady s then
    let k := edgesUpTo o (edgeClock o s.tmu.ns)
    let t := edgeNs o k
    let fresh := match o.lastEdge with
      | some e => decide (e < t)
      | none => true
    if k = 0 || !fresh then done s s
    else done s (emit (.toutEdge output (!o.activeLow) t) (setTout output { o with lastEdge := some t } s))
  else done s s

/-- PPS_IN_EDGE (R312): an edge at least 500 ms after the last accepted one is compared with the nearest second. -/
def execPpsInEdge (stamp : StampIn) (s : State) : Res :=
  if on s 7 && s.pwr.vio then
    let since : Int := (stamp.ns : Int) - s.tmu.ppsTime
    if s.tmu.ppsEdges != 0 && 0 ≤ since && since < 500000000 then done s (ev 0x0C10 s)
    else
      let x : Int := (stamp.ns : Int) - s.tmu.ppsDelay
      let diff := x - (x + 500000000) / 1000000000 * 1000000000
      let s1 := ev 0x0C0F { s with tmu := { s.tmu with
        ppsTime := stamp.ns, ppsDiff := diff, ppsEdges := s.tmu.ppsEdges + 1, ppsRunning := true } }
      done s (if s.tmu.ppsTol < diff.natAbs then setTmuEvent 6 (ev 0x0C11 s1) else s1)
  else done s s

/-- PPS_IN_LOST (R312): no edge for 1.5 s after an accepted one, said once. -/
def execPpsInLost (s : State) : Res :=
  if on s 7 && s.tmu.ppsRunning then
    done s (setTmuEvent 7 (ev 0x0C12 { s with tmu := { s.tmu with ppsRunning := false } }))
  else done s s

/-! ### Group 0x0A (R436) -/

/-- TIME_MODE (R287): FREE takes the state to FREE. -/
def cmdTimeMode : IfCmd where
  opcode := 0x0A01
  len := lenIs 2
  domains := fun _ => [7]
  range := fun _ ws => onlyBits (arg ws 1) 3 && fld (arg ws 1) 1 0 ≤ 2
  effect := fun _ ws s =>
    let m := fld (arg ws 1) 1 0
    let s1 := { s with tmu := { s.tmu with disc := { s.tmu.disc with mode := m } } }
    (if m = 2 then setTimeSt .free s1 else s1, .done)

def execTimeMode (ch : Nat) (s : State) : Res := done s (runIf cmdTimeMode ch s)

/-- TIME_STEP (R292): refused beyond STEP_THRESHOLD without FORCE, and outside HOST mode. -/
def cmdTimeStep : IfCmd where
  opcode := 0x0A02
  len := lenIs 2
  force := true
  domains := fun _ => [7]
  check := fun s ws =>
    if s.tmu.disc.threshold < (sfld (arg ws 1) 63 0).natAbs && !bit (arg ws 0) 16 then some (0x8006, some 0x0C02)
    else if s.tmu.disc.mode ≠ 1 then some (0x8005, some 0x0C02)
    else none
  effect := fun _ ws s => (stepTime (sfld (arg ws 1) 63 0) s, .done)

def execTimeStep (ch : Nat) (s : State) : Res := done s (runIf cmdTimeStep ch s)

/-- TIME_ADJ (R283, R292). -/
def cmdTimeAdj : IfCmd where
  opcode := 0x0A03
  len := lenIs 2
  domains := fun _ => [7]
  range := fun _ ws => onlyBits (arg ws 1) 0xFFFFFFFF && (sfld (arg ws 1) 31 0).natAbs ≤ 6553600
  check := fun s _ => if s.tmu.disc.mode ≠ 1 then some (0x8005, none) else none
  effect := fun _ ws s => (setAdj (sfld (arg ws 1) 31 0) s, .done)

def execTimeAdj (ch : Nat) (s : State) : Res := done s (runIf cmdTimeAdj ch s)

/-- TIME_LOCK (R287, R288). -/
def cmdTimeLock : IfCmd where
  opcode := 0x0A04
  len := lenIs 3
  domains := fun _ => [7]
  range := fun _ ws => onlyBits (arg ws 1) 1 && onlyBits (arg ws 2) 0xFFFFFFFF
  check := fun s _ => if s.tmu.disc.mode ≠ 1 then some (0x8005, none) else none
  effect := fun _ ws s =>
    let s1 := { s with tmu := { s.tmu with disc := { s.tmu.disc with hostBound := fld (arg ws 2) 31 0 } } }
    (setTimeSt (if bit (arg ws 1) 0 then .locked else .acquiring) s1, .done)

def execTimeLockCommand (ch : Nat) (s : State) : Res := done s (runIf cmdTimeLock ch s)

/-- STEP_THRESHOLD (R292). -/
def cmdStepThreshold : IfCmd where
  opcode := 0x0A05
  len := lenIs 2
  domains := fun _ => [7]
  range := fun _ ws => onlyBits (arg ws 1) 0x3FFFFFFF && fld (arg ws 1) 29 0 ≤ 1000000000
  effect := fun _ ws s =>
    ({ s with tmu := { s.tmu with disc := { s.tmu.disc with threshold := fld (arg ws 1) 29 0 } } }, .done)

def execStepThreshold (ch : Nat) (s : State) : Res := done s (runIf cmdStepThreshold ch s)

/-- ASYMMETRY (R290). -/
def cmdAsymmetry : IfCmd where
  opcode := 0x0A06
  len := lenIs 2
  domains := fun _ => [7]
  range := fun _ ws => onlyBits (arg ws 1) 0xFFFFFFFF && (sfld (arg ws 1) 31 0).natAbs ≤ 100000
  effect := fun _ ws s =>
    ({ s with tmu := { s.tmu with disc := { s.tmu.disc with asym := sfld (arg ws 1) 31 0 } } }, .done)

def execAsymmetry (ch : Nat) (s : State) : Res := done s (runIf cmdAsymmetry ch s)

/-- TIME_RELEASE (R299). -/
def cmdTimeRelease : IfCmd where
  opcode := 0x0A07
  len := lenIs 1
  effect := fun _ _ s => ({ s with tmu := { s.tmu with released := true } }, .done)

def execTimeRelease (ch : Nat) (s : State) : Res := done s (runIf cmdTimeRelease ch s)

/-- TIME_CLAIM (R299): BUSY while a DOMAIN_SET naming PD07 is pending. -/
def cmdTimeClaim : IfCmd where
  opcode := 0x0A08
  len := lenIs 1
  check := fun s _ => if s.pwr.sets.any fun d => d.domains.getLsbD 7 then some (0x8003, none) else none
  effect := fun _ _ s => ({ s with tmu := { s.tmu with released := false } }, .done)

def execTimeClaim (ch : Nat) (s : State) : Res := done s (runIf cmdTimeClaim ch s)

/-- TOUT_SET (R307): a FRAME WIDTH above half the frame period is refused. -/
def cmdToutSet : IfCmd where
  opcode := 0x0A09
  len := lenIs 4
  domains := fun _ => [49]
  range := fun _ ws =>
    let w1 := arg ws 1
    let rate := fld w1 7 4
    let width := fld (arg ws 2) 28 0
    onlyBits w1 0x7FF && onlyBits (arg ws 2) 0x1FFFFFFF && onlyBits (arg ws 3) 0xFFFFFFFF && rate ≤ 12
      && fld w1 10 9 ≤ 2 && 100 ≤ width && width ≤ 500000000 && (sfld (arg ws 3) 31 0).natAbs ≤ 1000000
      && (fld w1 3 2 != 3 || 2 * width * (rateND rate).1 ≤ (rateND rate).2 * 1000000000)
  effect := fun _ ws s =>
    let w1 := arg ws 1
    let n := fld w1 1 0
    (setTout n { tout s n with
      mode := fld w1 3 2, rate := fld w1 7 4, activeLow := bit w1 8, gate := fld w1 10 9
      width := fld (arg ws 2) 28 0, delay := sfld (arg ws 3) 31 0 } s, .done)

def execToutSet (ch : Nat) (s : State) : Res := done s (runIf cmdToutSet ch s)

/-- PPSIN_SET (R312). -/
def cmdPpsinSet : IfCmd where
  opcode := 0x0A0A
  len := lenIs 3
  domains := fun _ => [7]
  range := fun _ ws =>
    let tol := fld (arg ws 2) 29 0
    onlyBits (arg ws 1) 0xFFFFFFFF && onlyBits (arg ws 2) 0x3FFFFFFF && (sfld (arg ws 1) 31 0).natAbs ≤ 1000000
      && 10 ≤ tol && tol ≤ 1000000000
  effect := fun _ ws s =>
    ({ s with tmu := { s.tmu with ppsDelay := sfld (arg ws 1) 31 0, ppsTol := fld (arg ws 2) 29 0 } }, .done)

def execPpsinSet (ch : Nat) (s : State) : Res := done s (runIf cmdPpsinSet ch s)

/-- BURST_STAMPS (R301). -/
def cmdBurstStamps : IfCmd where
  opcode := 0x0A0B
  len := lenIs 2
  domains := fun _ => [7]
  effect := fun _ ws s => ({ s with tmu := { s.tmu with burstStamps := arg ws 1 } }, .done)

def execBurstStamps (ch : Nat) (s : State) : Res := done s (runIf cmdBurstStamps ch s)

/-- The body of TIME_PARAMS with STEPS_REMOVED raised by 1, modulo 2^16; zeros when none is held (R289, R436). -/
def paramsReported (s : State) : List Byte :=
  match s.tmu.disc.params with
  | some b => b.take 22 ++ natBe 2 ((be b 22 2 + 1) % 65536) ++ b.drop 24
  | none => List.replicate 32 0

/-- TIME_INFO (R436). -/
def cmdTimeInfo : IfCmd where
  opcode := 0x0A0C
  len := lenIs 1
  domains := fun _ => [7]
  effect := fun _ _ s =>
    let a := asymmetryInUse s
    let ps := match s.tmu.disc.theta with
      | some t => roundDiv (t * 1000) (2 ^ 32)
      | none => 0
    (s, .data (bytesWords 4 (paramsReported s)
      ++ [word (wrap 32 a.1 + at' (b2n a.2) 32), word (wrap 64 ps), word (s.tmu.disc.lastSamples % 2 ^ 32)]))

def execTimeInfo (ch : Nat) (s : State) : Res := done s (runIf cmdTimeInfo ch s)

end Sys2Proof.Machine
end

