-- ==== Sys2Proof/Machine/Sched.lean ====
section
/-! DEFINITION. The buffer checks of a non-timed frame, the selection at a port node, the reservation of receive
descriptors, and the calendar (R206, R211-R228, R248, R249, R274, R392-R394). -/

namespace Sys2Proof.Machine

/-! ### Enqueue (R211, R224, R226) -/

/-- What a policer makes of a non-timed frame (R211 check 2, R224): the frame goes on, yellow or not, or is dropped. -/
def police (p : Packet) (s : State) : Option Packet × State :=
  match p.ctx with
  | none => (some p, s)
  | some c =>
    -- a first pass toward port node 85 bypasses the policers (R201)
    if !bit c.c1 63 || fld c.c0 58 56 == 2 then (some p, s)
    else
      let n := fld c.c1 62 47
      if (policer s n).parked then (none, ev 0x0705 s)
      else
        match measure n p.bytes.length s with
        | (.green, t) => (some { p with yellow := false }, t)
        | (.yellow, t) => if (policer s n).yellowDrop then (none, ev 0x0723 t) else (some { p with yellow := true }, t)
        | (.red, t) => (none, t)

/-- Occupancy of a queue in cells. -/
def occupancy (x : Queue) : Nat := cellsOf x.frames

/-- A frame joins its queue. -/
def joinQueue (q : Nat) (p : Packet) (s : State) : State :=
  followTags (setQueue q { queue s q with frames := (queue s q).frames ++ [p] } s)

/-- A non-timed frame meets the buffer checks in order (R211). -/
def enqueue (p : Packet) (s : State) : State :=
  let q := p.queue.getD 0
  let x := queue s q
  if !x.enable then discardFrame p false (ev 0x0701 s)
  else if x.parked then discardFrame p false (ev 0x0705 s)
  else
    match police p s with
    | (none, t) => discardFrame p false t
    | (some p, t) =>
      let n := cells p
      if p.yellow && x.yellow < occupancy x + n then discardFrame p false (ev 0x0703 t)
      else if x.limit < occupancy x + n then discardFrame p false (ev 0x0702 t)
      else
        match chooseQuad t with
        | none => discardFrame p false (offDomainDiscard 0x08 0 0 1 t)
        | some k =>
          if freeCells t k ≤ t.sch.reserve + n then discardFrame p false (ev 0x0704 t)
          else joinQueue q { p with quadrant := k } t

/-- The frame that waits for admission on a side, and the state without it. -/
def admissionHead (sd : Side) (s : State) : Option (Packet × State) :=
  match sd with
  | .line => match s.sch.inLine with
    | [] => none
    | p :: r => some (p, { s with sch := { s.sch with inLine := r } })
  | .client => match s.sch.inClient with
    | [] => none
    | p :: r => some (p, { s with sch := { s.sch with inClient := r } })

/-- BUFFER_ENQUEUE (R211): the oldest waiting frame of a side, when it is not timed. -/
def execBufferEnqueue (side : Side) (s : State) : Res :=
  if schedReady s then
    match admissionHead side s with
    | some (p, t) => done s (if p.cls = .timed then s else enqueue p t)
    | none => done s s
  else done s s

/-! ### Reservation at a host group (R393, R394) -/

/-- The fewest descriptors whose lengths reach n bytes (R393). -/
def descsFor : Nat → List (Nat × Nat) → Option Nat
  | 0, _ => some 0
  | _ + 1, [] => none
  | n + 1, d :: r => (descsFor (n + 1 - d.2) r).map (· + 1)

/-- The ring is RUNNING in FRAMES mode in the group (R393). -/
def ringServes (s : State) (ring group : Nat) : Bool :=
  let r := rxRing s ring
  on s 5 && r.st == .running && ringFrames r && ringGroup r == group

/-- A frame finds descriptors and a completion slot (R393). -/
def canReserve (s : State) (ring group : Nat) (p : Packet) : Bool :=
  let r := rxRing s ring
  ringServes s ring group && cplUsed r < ringCplSize r &&
    match descsFor p.bytes.length r.posted with
    | some k => k ≤ 16
    | none => false

/-- A frame needs more than 16 descriptors, with 16 posted (R393). -/
def tooLong (s : State) (ring group : Nat) (p : Packet) : Bool :=
  let l := (rxRing s ring).posted
  ringServes s ring group && 16 ≤ l.length && ((l.take 16).map (·.2)).sum < p.bytes.length

/-- The reservation is made (R393). -/
def reserve (ring : Nat) (p : Packet) (s : State) : State :=
  let r := rxRing s ring
  let k := (descsFor p.bytes.length r.posted).getD 0
  setRx ring { r with
    posted := r.posted.drop k, next := r.next + BitVec.ofNat 32 k, reserved := r.reserved + 1
    resv := r.resv ++ [{ packet := p, bufs := r.posted.take k, index := r.next }] } s

/-- The head frame of a holder, with its ring. -/
def headOf (s : State) : HeadSrc → Option (Packet × Nat)
  | .queue q => match (queue s q).frames, (queue s q).ring with
    | p :: _, some r => some (p, r)
    | _, _ => none
  | .delivery r => (rxRing s r).delivery.head?.map fun p => (p, r)
  | .circuit c => (circ s c).egressQ.head?.map fun p => (p, (circ s c).ring)

/-- The holders of head frames for a host group. -/
def headsAt (s : State) (port : Nat) : List HeadSrc :=
  ((s.cir.circuits.filter fun e => e.2.egress == some port && !e.2.egressQ.isEmpty).map fun e => .circuit e.1)
    ++ ((s.sch.queues.filter fun e => !e.2.frames.isEmpty && portOf s e.1 == port).map fun e => .queue e.1)
    ++ (s.dma.rx.filter fun e => !e.2.delivery.isEmpty && 68 + ringGroup e.2 == port).map fun e => .delivery e.1

/-- A circuit's oldest egress frame is taken, and its place in release order. -/
def popCircuit (c : Nat) (s : State) : State :=
  let t := setCirc c { circ s c with egressQ := (circ s c).egressQ.drop 1 } s
  { t with cir := { t.cir with relOrder := t.cir.relOrder.erase c } }

/-- The head frame leaves its holder. -/
def popHead (h : HeadSrc) (s : State) : State :=
  match h with
  | .queue q => followTags (setQueue q { queue s q with frames := (queue s q).frames.drop 1 } s)
  | .delivery r => followTags (setRx r { rxRing s r with delivery := (rxRing s r).delivery.drop 1 } s)
  | .circuit c => popCircuit c s

/-- A discard attributed LINE_FAULT (R254 row 3). -/
def discardLine (p : Packet) (s : State) : State :=
  discardFrame { p with causes := { p.causes with lineFault := true } } false s

/-- A receive ring counts a frame dropped (R376). -/
def ringDrop (r : Nat) (s : State) : State := setRx r { rxRing s r with bad := (rxRing s r).bad + 1 } s

/-- One head frame for a host group is judged: too long, able to reserve, or waiting (R393, R394). A wait that starts is
a cause of row 3 of R254 for the group's accepted frames. -/
def judgeHead (port : Nat) (s : State) (h : HeadSrc) : State :=
  match headOf s h with
  | none => s
  | some (p, r) =>
    let ended := { s with dma := { s.dma with waits := s.dma.waits.filter (· != h) } }
    if tooLong s r (port - 68) p then discardLine p (ev 0x0A0B (ringDrop r (popHead h ended)))
    else if canReserve s r (port - 68) p then ended
    else if s.dma.waits.contains h then s
    else markCauses (· == port) (fun c => { c with lineFault := true })
      (ev 0x0A09 { s with dma := { s.dma with waits := s.dma.waits ++ [h] } })

/-- Every head frame for a host group is judged; a group whose DMA is not ON makes nothing wait (R20). -/
def judgeHeads (port : Nat) (s : State) : State :=
  if isGroup port && on s 5 then (headsAt s port).foldl (judgeHead port) s else s

/-- A head frame may go to its host group: it reserves, or the group's DMA is not ON and it will be discarded (R20). -/
def headMayGo (s : State) (port : Nat) (h : HeadSrc) : Bool :=
  if isGroup port then
    !on s 5 || (match headOf s h with | some (p, r) => canReserve s r (port - 68) p | none => false)
  else true

/-! ### Gates (R248, R249) -/

def gate (s : State) (n : Nat) : Gate := mget gateReset s.adm.gates n

def setGate (n : Nat) (g : Gate) (s : State) : State :=
  { s with adm := { s.adm with gates := mput gateReset s.adm.gates n g } }

/-- The entry that holds a position of the cycle, and the time left of it. -/
def entryAt : List Word → Nat → Nat → Option (Nat × Nat)
  | [], _, _ => none
  | w :: r, k, pos => if pos < fld w 31 0 then some (k, fld w 31 0 - pos) else entryAt r (k + 1) (pos - fld w 31 0)

/-- Time until a gate closes, over the entries that follow: none when none of them closes it. -/
def closesIn (bitNo : Nat) : List Word → Nat → Option Nat
  | [], _ => none
  | w :: r, t => if bit w bitNo then closesIn bitNo r (t + fld w 31 0) else some t

/-- A gate at a module time: closed (none), or open and when it closes (R248, R249). -/
def gateState (g : GateList) (bitNo ns : Nat) : Option (Option Nat) :=
  if g.entries.isEmpty || g.cycle = 0 then some none
  else
    let pos := (((ns : Int) - g.base) % (g.cycle : Int)).toNat
    match entryAt g.entries 0 pos with
    | none => some none
    | some (k, left) =>
      if bit (nth g.entries k 0) bitNo then some (closesIn bitNo (g.entries.drop (k + 1) ++ g.entries.take k) left)
      else none

/-- The lanes of a port in the port mode, none for an unused port (R259). -/
def portLanes (s : State) (n : Nat) : List Nat :=
  let m := s.prt.mode
  if m = 1 then (if n < 4 then [n] else [])
  else if m = 2 then (if n = 0 then [0, 1] else if n = 2 then [2, 3] else [])
  else if m = 3 then (if n = 0 then [0, 1, 2, 3] else [])
  else []

/-- A client lane at reset. -/
def lane (s : State) (n : Nat) : Lane := mget laneReset s.line.lanes n

def setLane (n : Nat) (x : Lane) (s : State) : State :=
  { s with line := { s.line with lanes := mput laneReset s.line.lanes n x } }

/-- A lane of the port carries a far-end loopback, which discards the MAC's transmit data (R58). -/
def farEnd (s : State) (n : Nat) : Bool := (portLanes s n).any fun k => (lane s k).loop == 2

/-- A frame is discarded toward a port whose CLIENT bit is clear (R58, R262). -/
def downDiscard (n : Nat) (s : State) : State :=
  count 0x090F n 1 (if farEnd s n then ev 0x0903 s else s)

/-- Rate C of a port mode in bytes per us (R259). -/
def modeRate (m : Nat) : Nat := if m = 1 then 12500 else if m = 2 then 25000 else if m = 3 then 50000 else 0

/-- Bytes on the wire until the last FCS bit of a frame, behind the frames that wait to be sent. -/
def bytesToSend (s : State) (n : Nat) (p : Packet) : Nat :=
  ((cport s n).tx.map fun f => max 60 f.bytes.length + 24).sum + max 60 p.bytes.length + 12

/-- What a gate says of a frame: it starts, it waits for the gate, or it is held back at the guard band (R249). -/
inductive GateSays where
  | go | closed | held
  deriving DecidableEq, Repr

def gateSays (s : State) (port cls : Nat) (p : Packet) : GateSays :=
  if isClient port then
    let n := port - 64
    match gateState (gate s n).active (61 + cls) s.tmu.ns with
    | none => .closed
    | some none => .go
    | some (some d) => if bytesToSend s n p * 1000 ≤ d * modeRate s.prt.mode then .go else .held
  else .go

/-! ### Picking a frame (R212, R216, R246) -/

/-- The child with the smallest start tag; the first of the list on a tie (R216). -/
def minChild (s : State) (cls : Cls) (l : List Child) : Option Child :=
  l.foldl (fun best c =>
    match best with
    | none => some c
    | some b => if tagBefore (childTags s cls c).s (childTags s cls b).s then some c else best) none

/-- The active queues of a subscriber node whose head may go. -/
def queuesOf (s : State) (cls : Cls) (port n : Nat) : List Child :=
  (s.sch.queues.filter fun e => e.2.parent == n && e.2.cls == cls && e.2.tags.active && headMayGo s port (.queue e.1)).map
    fun e => .queue e.1

def subsOf (s : State) (cls : Cls) (port v : Nat) : List Child :=
  (s.sch.subs.filter fun e => e.2.parent == v && (e.2.tagsOf cls).active && !(queuesOf s cls port e.1).isEmpty).map
    fun e => .sub e.1

/-- The children of a port node: its service nodes, then the delivery queues of its rings (R392). -/
def childrenOf (s : State) (cls : Cls) (port : Nat) : List Child :=
  ((s.sch.svcs.filter fun e => e.2.parent == port && (e.2.tagsOf cls).active && !(subsOf s cls port e.1).isEmpty).map
    fun e => .svc e.1)
    ++ (if cls = .bestEffort && isGroup port then
        (s.dma.rx.filter fun e => 68 + ringGroup e.2 == port && e.2.tags.active && headMayGo s port (.delivery e.1)).map
          fun e => .ring e.1
      else [])

/-- The path of children that fair queuing selects at a port node, from the queue or delivery queue up (R216). -/
def fairPath (s : State) (cls : Cls) (port : Nat) : List Child :=
  match minChild s cls (childrenOf s cls port) with
  | some (.svc v) =>
    match minChild s cls (subsOf s cls port v) with
    | some (.sub n) =>
      match minChild s cls (queuesOf s cls port n) with
      | some c => [c, .sub n, .svc v]
      | none => []
    | _ => []
  | some c => [c]
  | none => []

/-- A frame past its tolerance, to be dropped (R253). -/
def pastTolerance (s : State) (x : Queue) (p : Packet) : Bool :=
  x.lateDrop && p.promise.getD 0 + 1000 * x.tolerance ≤ s.tmu.ns

/-- The timed queue with the smallest head key, the lowest number on a tie (R246). -/
def timedPick (s : State) (port : Nat) : Option (Nat × Packet) :=
  (s.sch.queues.filter fun e => e.2.cls == .timed && !e.2.parked && portOf s e.1 == port).foldl (fun best e =>
    match e.2.frames with
    | [] => best
    | p :: _ =>
      if pastTolerance s e.2 p || !headMayGo s port (.queue e.1) then best
      else match best with
        | none => some (e.1, p)
        | some b => if p.promise.getD 0 < b.2.promise.getD 0 then some (e.1, p) else best) none

/-- The first circuit in release order that is bound to the port and may go (R138, R212). -/
def circuitPick (s : State) (port : Nat) : Option (Nat × Packet) :=
  (s.cir.relOrder.find? fun c => (circ s c).egress == some port && headMayGo s port (.circuit c)).bind fun c =>
    (circ s c).egressQ.head?.map fun p => (c, p)

/-! ### What a selected frame does (R18-R21, R32, R262, R301, R393) -/

/-- The credits of a port node's destination (R18, R487). -/
def portKey (port : Nat) : Nat :=
  if port < 64 then ifaceKey 0x07 0 0
  else if port < 68 then ifaceKey 0x07 1 (port - 64)
  else if port < 84 then ifaceKey 0x07 2 (port - 68)
  else ifaceKey 0x07 3 (port - 84)

/-- The domain of a port node's destination (R20). -/
def portDom (port : Nat) : Nat := if port < 64 then 12 else if port < 68 then 18 else if port < 84 then 5
  else if port = 84 then 2 else 39

/-- A stamp request of a frame that leaves through no client port (R301). -/
def noStamp (p : Packet) (s : State) : State :=
  match p.tx with
  | some t => if t.stamp then ev 0x0C0D s else s
  | none => s

/-- A selected frame reaches its port node's destination. -/
def leave (port : Nat) (ring : Nat) (p : Packet) (s : State) : State :=
  let s1 := if on s (portDom port) then spend (portKey port) (beats p) s else s
  if port < 68 then
    let n := port - 64
    if !on s 18 then discardLine p (offDomainDiscard 0x07 1 n 1 s1)
    else if !(cport s n).up then discardLine p (downDiscard n s1)
    else setCport n { cport s1 n with tx := (cport s1 n).tx ++ [p] } s1
  else if port < 84 then
    if !on s 5 then discardLine p (offDomainDiscard 0x07 2 (port - 68) 1 s1)
    else reserve ring p (noStamp p s1)
  else if port = 84 then
    if !on s 2 then discardFrame p false (offDomainDiscard 0x07 3 0 1 s1)
    else txFinal p 0 84 none 0 (noStamp p s1)
  else if !on s 39 then discardFrame p false (offDomainDiscard 0x07 3 1 1 s1)
  else offerParse 0x07 4 1 { p with kind := .recirc, queue := none } s1

/-- A class's held-back mark at a client port's gate is set, counted once, or cleared (R249). -/
def gateHold (port cls : Nat) (held : Bool) (s : State) : State :=
  if isClient port then
    let g := gate s (port - 64)
    if held then
      if g.waiting.contains cls then s else ev 0x0811 (setGate (port - 64) { g with waiting := cls :: g.waiting } s)
    else setGate (port - 64) { g with waiting := g.waiting.filter (· != cls) } s
  else s

/-- A frame selected by fair queuing: tags, charges, and on to its destination (R215, R219). -/
def sendFair (cls : Cls) (port : Nat) (path : List Child) (p : Packet) (s : State) : State :=
  let l := acctLen s port p
  let s1 := path.foldl (serveChild cls l) s
  match path.head? with
  | some (.queue q) =>
    let ring := (queue s q).ring.getD 0
    leave port ring p (popHead (.queue q) (chargeAll (pathOf s q) l s1))
  | some (.ring r) => leave port r p (popHead (.delivery r) (chargeAll [.port port] l s1))
  | _ => s

/-- The head frame of a fair path. -/
def pathHead (s : State) (path : List Child) : Option Packet :=
  match path.head? with
  | some (.queue q) => (queue s q).frames.head?
  | some (.ring r) => (rxRing s r).delivery.head?
  | _ => none

/-- The port node's own shaper lets it send (R207). -/
def portOpen (s : State) (port : Nat) : Bool := port < 68 || (nodeOpen (portNode s port))

/-- One class by fair queuing: the frame, or none that may be sent; the state marks a frame held at a guard band. -/
def tryFair (cls : Cls) (code port : Nat) (s : State) : Option State × State :=
  let path := fairPath s cls port
  match pathHead s path with
  | none => (none, s)
  | some p =>
    if !portOpen s port then (none, s)
    else match gateSays s port code p with
      | .go => (some (sendFair cls port path p (gateHold port code false s)), s)
      | .closed => (none, s)
      | .held => (none, gateHold port code true s)

/-- Assured frames, then best effort (R212). -/
def fairClasses (port : Nat) (s : State) : State :=
  match tryFair .assured 1 port s with
  | (some u, _) => u
  | (none, t) =>
    match tryFair .bestEffort 0 port t with
    | (some u, _) => u
    | (none, t') => t'

/-- Timed frames, then assured, then best effort (R212). -/
def tryClasses (port : Nat) (s : State) : State :=
  match timedPick s port with
  | none => fairClasses port s
  | some (q, p) =>
    match gateSays s port 2 p with
    | .go => leave port ((queue s q).ring.getD 0) p (popHead (.queue q) (gateHold port 2 false s))
    | .closed => fairClasses port s
    | .held => fairClasses port (gateHold port 2 true s)

/-- One selection at a port node other than a grant stream's (R212): circuits first. -/
def select (port : Nat) (s : State) : State :=
  match circuitPick s port with
  | some (c, p) => leave port (circ s c).ring p (popHead (.circuit c) s)
  | none => tryClasses port s

/-- The destination can take a frame: it is not ON, or a credit is left; port node 85 draws on 64 places of parse
(R17, R20, R21). -/
def destOpen (s : State) (port : Nat) : Bool :=
  (!on s (portDom port) || hasCredit s (portKey port)) && (port != 85 || s.prs.inRecirc.length < 64)

/-- SCHEDULER_SELECTION (R216): a port node serves its next frame. Grant streams are served at their build points
(R213). -/
def execSchedulerSelection (port : Nat) (s : State) : Res :=
  if schedReady s && 64 ≤ port && port ≤ 85 then
    let s1 := judgeHeads port s
    done s (if destOpen s1 port then select port s1 else s1)
  else done s s

/-! ### Calendar (R222) -/

/-- A node's fine slot has begun. -/
def fineDue (s : State) (slot : Nat) (sh : Shaper) : Bool :=
  sh.cal == .fine slot && (sh.eligible + 63) / 64 * 64 ≤ schedNs s

/-- CALENDAR_RELEASE (R222): every node of a fine slot that has begun is released. -/
def execCalendarRelease (slot : Nat) (s : State) : Res :=
  if schedReady s then
    done s (followTags ((items s).foldl (fun t i =>
      let sh := shaperOf t i
      if fineDue t slot sh then ev 0x070A (setShaper i { sh with cal := .none } t) else t) s))
  else done s s

/-- COARSE_SLOT_START (R222): the nodes of a coarse slot that begins move to the fine wheel. -/
def execCoarseSlotStart (slot : Nat) (s : State) : Res :=
  if schedReady s then
    done s ((items s).foldl (fun t i =>
      let sh := shaperOf t i
      if sh.cal = .coarse slot ∧ sh.eligible < schedNs t + 262144 then
        setShaper i { sh with cal := wheelFor (schedNs t) sh.eligible } t
      else t) s)
  else done s s

/-- COARSE_REVOLUTION (R222): parked nodes with a rate whose time lies within the coarse span enter the wheels. -/
def execCoarseRevolution (s : State) : Res :=
  if schedReady s then
    done s ((items s).foldl (fun t i =>
      let sh := shaperOf t i
      if sh.cal = .parked ∧ shapes sh then setShaper i { sh with cal := wheelFor (schedNs t) sh.eligible } t else t) s)
  else done s s

end Sys2Proof.Machine
end

