-- ==== Sys2Proof/Machine/AdmOps.lean ====
section
/-! DEFINITION. Service curves, the deadline ledger, the look-ahead, control items (R230-R234, R242-R244, R140). -/

namespace Sys2Proof.Machine

/-- ceil of a quotient, 0 for a zero divisor. -/
def ceilQ (a b : Nat) : Nat := if b = 0 then 0 else (a + b - 1) / b

/-! ### Control items toward the head end (R140) -/

/-- A CONTROL item is placed in the upstream queue of the control tag. -/
def sendControl (group type : Nat) (body : List Byte) (s : State) : State :=
  let item := natBe 1 group ++ natBe 1 type ++ natBe 2 s.up.ctlSeq.toNat ++ natBe 2 body.length ++ [0, 0] ++ body
  { s with up := { s.up with control := s.up.control ++ [item], ctlSeq := s.up.ctlSeq + 1 } }

/-! ### Settings that curves take (R139, R231-R233) -/

def gsContract (s : State) (g : Nat) : GsContract := mget gsContractReset s.adm.contracts g

def setGsContract (g : Nat) (x : GsContract) (s : State) : State :=
  { s with adm := { s.adm with contracts := mput gsContractReset s.adm.contracts g x } }

/-- The PCI Express share of a host group in 1,000 b/s (R207). -/
def share (s : State) (g : Nat) : Nat := mget 12500000 s.sch.shares g

/-- FRAG_RESERVE of a grant stream (R231). -/
def fragReserve (s : State) (g : Nat) : Nat :=
  if s.sch.queues.any fun e => e.2.enable && (e.2.cls == .assured || e.2.cls == .bestEffort) && portOf s e.1 == g
  then 16408 else 0

/-- The circuits bound to an egress port node. -/
def boundCircuits (s : State) (port : Nat) : List Nat :=
  (s.cir.circuits.filter fun e => e.2.egress == some port).map (·.1)

/-- Payload rate of a circuit in 1,000 b/s (R133, R139). -/
def circuitRate (s : State) (c : Nat) : Nat := payloadBytes (blocksOf s s.cir.active c false) * 64

/-- A of R232: accounted bytes per line frame of a bound circuit. -/
def circuitCharge (s : State) (c : Nat) : Nat := (7 * payloadBytes (blocksOf s s.cir.active c false) + 5) / 6

/-- The lengths in ns of the runs of a gate list during which the timed gate is open, and of the closed time that follows
each, over one cycle that starts where the gate opens. -/
def openRuns : List Word → Nat → Nat → List (Nat × Nat)
  | [], o, c => if o = 0 then [] else [(o, c)]
  | w :: r, o, c =>
    if bit w 63 then (if c = 0 then openRuns r (o + fld w 31 0) 0
      else (if o = 0 then openRuns r (fld w 31 0) 0 else (o, c) :: openRuns r (fld w 31 0) 0))
    else openRuns r o (c + fld w 31 0)

/-- The entries rotated to start at an opening of the timed gate: an open entry after a closed one. -/
def fromOpening (l : List Word) : List Word :=
  match (List.range l.length).find? fun k =>
    bit (nth l k 0) 63 && !bit (nth l ((k + l.length - 1) % l.length) 0) 63 with
  | some k => l.drop k ++ l.take k
  | none => l

/-- The timed gate of a list never closes. -/
def alwaysOpen (g : GateList) : Bool := g.entries.isEmpty || g.cycle = 0 || g.entries.all fun w => bit w 63

/-- Usable time per cycle and the longest gap between usable times, in units of 1/(2C) us (R232): each open run less the
guard band; a run no longer than the guard joins the gap. -/
def usable (unit guard : Nat) (runs : List (Nat × Nat)) : Nat × Nat :=
  let l := runs.map fun r => (r.1 * unit, r.2 * unit)
  let total := ((l.map fun r => r.1 - guard)).sum
  -- gap after each usable run: its guard, the closed time, and every following run that is not usable
  let n := l.length
  let gapFrom (k : Nat) : Nat :=
    let rest := (List.range n).map fun j => nth l ((k + 1 + j) % n) (0, 0)
    let dead := rest.takeWhile fun r => r.1 ≤ guard
    guard + (nth l k (0, 0)).2 + (dead.map fun r => r.1 + r.2).sum
  let gaps := ((List.range n).filter fun k => guard < (nth l k (0, 0)).1).map gapFrom
  (total, gaps.foldl max 0)

/-! ### The largest timed frame (R230-R233) -/

/-- The window of a contract (R231), none when it is below zero. -/
def window (s : State) (g : Nat) (c : Contract) : Nat := c.minBurst * 2400 - fragReserve s g

/-- The largest MAX_TIMED that the port's rule allows, under a gate list and a contract (R230-R232). -/
def maxAllowed (s : State) (port : Nat) (gl : GateList) (ct : Option Contract) : Nat :=
  if port < 64 then (match ct with | some c => min 16415 (window s port c) | none => 16415)
  else if port < 68 then
    if alwaysOpen gl then 16415
    else
      -- twice its transmission time fits in the longest open interval: the frame and its guard band
      let longest := ((openRuns (fromOpening gl.entries) 0 0).map (·.1)).foldl max 0
      min 16415 (longest * modeRate s.prt.mode / 2000)
  else 16415

/-- MAX_TIMED in use (R230, R234). -/
def maxTimed (s : State) (port : Nat) (gl : GateList) (ct : Option Contract) : Nat :=
  let m := maxAllowed s port gl ct
  match (admPort s port).maxTimed with
  | some x => min x m
  | none => m

/-! ### Curves (R231-R234) -/

/-- A rate rounded down to 1,000 b/s and lowered by 200 ppm (R234). -/
def lowered (kbps : Nat) : Nat := kbps * 9998 / 10000

def streamCurve (s : State) (g : Nat) (ct : Option Contract) : Option Curve :=
  match ct with
  | none => none
  | some c =>
    let w := window s g c
    let m := maxTimed s g gateListReset ct
    if w < 64 || m < 64 then none
    else some { rate := lowered (c.rate * (w + 8 - m) / (c.minBurst * 2400)), lat := c.lat * 1000 + 8000 }

def clientCurve (s : State) (port : Nat) (gl : GateList) : Option Curve :=
  let c := modeRate s.prt.mode
  let bc := ((boundCircuits s port).map (circuitCharge s)).sum
  let net := c * 8000 - bc * 64
  if c = 0 then none
  else if alwaysOpen gl then
    some { rate := lowered net, lat := ceilQ ((16407 + bc) * 1000) c + 1000 }
  else
    let m := maxTimed s port gl none
    let unit := c / 500
    let (o, gap) := usable unit (2 * m) (openRuns (fromOpening gl.entries) 0 0)
    if m < 64 || o = 0 then none
    else some { rate := lowered (net * o / (gl.cycle * unit))
                lat := ceilQ (gap + 2 * (16407 + bc)) unit + 1000 }

def groupCurve (s : State) (port : Nat) : Option Curve :=
  let x := share s (port - 68)
  some { rate := lowered x, lat := ceilQ (16415 * 8000000) x + (admPort s port).hostLat * 1000 }

/-- The curve of a port under a gate list and a contract. -/
def curveWith (s : State) (port : Nat) (gl : GateList) (ct : Option Contract) : Option Curve :=
  if port < 64 then streamCurve s port ct
  else if port < 68 then clientCurve s port gl
  else groupCurve s port

/-- The derived curve of a port node (R230). -/
def curveOf (s : State) (port : Nat) : Option Curve :=
  curveWith s port (gate s (port - 64)).active (gsContract s port).cur

/-- The curve that an accepted change will bring, when one is pending (R234). -/
def nextCurve (s : State) (port : Nat) : Option Curve :=
  if port < 64 then
    match (gsContract s port).next with
    | some (c, _) => curveWith s port gateListReset c
    | none => none
  else if port < 68 then
    match (gate s (port - 64)).next with
    | some (gl, _) => curveWith s port gl none
    | none => none
  else none

/-- The lower rate and the larger latency of two curves (R234); a curve that does not exist changes nothing. -/
def combine (a : Curve) (b : Option Curve) : Curve :=
  match b with
  | some b => { rate := min a.rate b.rate, lat := max a.lat b.lat }
  | none => a

/-- The curve that a change has replaced, while it counts. -/
def oldCurve (s : State) (port : Nat) : Option Curve := ((admPort s port).old).join

/-- The curve that admission uses (R234). -/
def usedCurve (s : State) (port : Nat) : Option Curve :=
  (curveOf s port).map fun c => combine (combine c (nextCurve s port)) (oldCurve s port)

/-- MAX_TIMED that admission uses: what every curve in use allows (R234). -/
def usedMaxTimed (s : State) (port : Nat) : Nat :=
  let now := maxTimed s port (gate s (port - 64)).active (gsContract s port).cur
  if port < 64 then
    match (gsContract s port).next with
    | some (some c, _) => min now (maxTimed s port gateListReset (some c))
    | _ => now
  else if port < 68 then
    match (gate s (port - 64)).next with
    | some (gl, _) => min now (maxTimed s port gl none)
    | none => now
  else now

/-- MAX_AHEAD of a port in ns. -/
def aheadNs (s : State) (port : Nat) : Nat := (admPort s port).maxAhead * 1000

/-- A change that takes effect alters the port's curve: the curve used before counts until MAX_AHEAD after it (R234). -/
def keepCurve (port : Nat) (before after : State) : State :=
  match usedCurve before port with
  | none => after
  | some c =>
    if curveOf before port = curveOf after port then after
    else setAdmPort port { admPort after port with old := some (some c), until' := after.tmu.ns + aheadNs after port } after

/-- Every port's curve is kept across a change. -/
def keepCurves (before after : State) : State := (List.range 84).foldl (fun t p => keepCurve p before t) after

/-! ### The ledger (R242, R243) -/

/-- The accepted, unsent frames of a port node: key and accounting length. -/
def ledger (s : State) (port : Nat) : List (Nat × Nat) :=
  (s.sch.queues.filter fun e => portOf s e.1 == port).flatMap fun e =>
    e.2.frames.filterMap fun p => p.promise.map fun k => (k, acctLen s port p)

def ledgerBusy (s : State) (port : Nat) : Bool := !(ledger s port).isEmpty

/-- The bucket of a module time (R242). -/
def bucketOf (base t : Nat) : Nat := min 4095 ((t - base) / 1000)

/-- W up to and including bucket k. -/
def workTo (l : List (Nat × Nat)) (base k : Nat) : Nat :=
  ((l.filter fun e => bucketOf base e.1 ≤ k).map (·.2)).sum

/-- The earliest x at which cap(x) reaches n bytes (R242). -/
def capReaches (c : Curve) (now n : Nat) : Nat := now + c.lat + ceilQ (n * 8000000) c.rate

/-- Work n fits by module time x: n ≤ cap(x). -/
def fits (c : Curve) (now n x : Nat) : Bool := c.rate != 0 && capReaches c now n ≤ x

/-- The checks at the non-empty buckets after bucket k. -/
def laterOk (c : Curve) (now base : Nat) (l : List (Nat × Nat)) (len k : Nat) : Bool :=
  (l.map fun e => bucketOf base e.1).all fun j => j ≤ k || fits c now (workTo l base j + len) (base + 1000 * j)

/-- The ledger inequality of R242 for a frame with deadline d. -/
def ledgerOk (c : Curve) (now : Nat) (l : List (Nat × Nat)) (len d : Nat) : Bool :=
  let base := now / 1000 * 1000
  if base + 4096000 ≤ d then fits c now (workTo l base 4095 + len) (base + 4096000)
  else fits c now (workTo l base (bucketOf base d) + len) d && laterOk c now base l len (bucketOf base d)

/-- The smallest feasible d* of a frame refused by the ledger, none within the horizon (R242). -/
def feasible (c : Curve) (now : Nat) (l : List (Nat × Nat)) (len d : Nat) : Option Nat :=
  let base := now / 1000 * 1000
  if c.rate = 0 || base + 4096000 ≤ d then none
  else (List.range 4096).findSome? fun k =>
    if k < bucketOf base d then none
    else
      let x := max (max d (base + 1000 * k)) (capReaches c now (workTo l base k + len))
      if x < base + 1000 * (k + 1) && laterOk c now base l len k then some x else none

/-! ### Look-ahead at a grant stream (R244) -/

/-- Line frames from the one now received to frame f, as a signed 32-bit difference. -/
def framesTo (s : State) (f : Nat) : Int := signed 32 (wrap 32 ((f : Int) - s.frm.frame.toNat))

/-- Symbols from t_rx of the line frame now received to the first preamble symbol of a grant (R106). -/
def grantSymbols (s : State) (g : Grant) : Int :=
  framesTo s g.frame * 14062500 + 3600000 + g.delay + g.start

/-- Module time, in units of 2^-32 / 225 ns, of a symbol counted from t_rx of the line frame now received. -/
def symbolTime (s : State) (sym : Int) : Int := ((s.frm.rxNs * 2 ^ 32 + s.frm.rxFrac) * 225 : Nat) + sym * 2 * 2 ^ 32

/-- The instant at which a known burst reaches the work n (R244), over the grants in order; `done` is the usable crumb of
those before. -/
def reachIn (s : State) (fr mt n : Nat) : List Grant → Nat → Option Int
  | [], _ => none
  | g :: r, before =>
    let u := g.length * 2400 + 8 - fr - mt
    if n ≤ before + u then
      let cw := (fr + (n - before) + 2399) / 2400
      some (symbolTime s (grantSymbols s g + ((g.pre + 256 + 2290 + cw * 11250 : Nat) : Int)))
    else reachIn s fr mt n r (before + u)

/-- The known packet bursts of a stream whose build point lies after now, in order. -/
def knownBursts (s : State) (gs now : Nat) : List Grant :=
  (s.up.grants.filter fun g => g.gs == gs && !g.circuit && !g.proofing && !g.discovery
    && ((now * 2 ^ 32 * 225 : Nat) : Int) < symbolTime s (grantSymbols s g) - ((8000 * 2 ^ 32 * 225 : Nat) : Int)).mergeSort
      fun a b => a.frame < b.frame || (a.frame == b.frame && a.start ≤ b.start)

/-- The candidate promise of a frame with deadline d (R244). -/
def candidate (s : State) (port now len d : Nat) : Nat :=
  if port < 64 then
    let l := ledger s port
    let w := ((l.filter fun e => e.1 ≤ d).map (·.2)).sum
    match reachIn s (fragReserve s port) (usedMaxTimed s port) (w + len) (knownBursts s port now) 0 with
    | none => d
    | some c =>
      let q : Int := 1000 * 2 ^ 32 * 225
      if c < ((d * 2 ^ 32 * 225 : Nat) : Int) then min d ((c + q - 1) / q * 1000).toNat else d
  else d

end Sys2Proof.Machine
end

