-- ==== Sys2Proof/Machine/Admission.lean ====
section
/-! DEFINITION. Admission of timed frames, contracts, gate lists, and group 0x08 (R230-R258, R434). -/

namespace Sys2Proof.Machine

/-! ### The decision (R238-R246) -/

/-- Why admission refuses a timed frame (R255), with its code and its event (R258). -/
inductive RejReason where
  | late | unplaceable | contract | policed | beyondPolicy
  deriving DecidableEq, Repr

def RejReason.code : RejReason → Nat
  | .late => 1
  | .unplaceable => 2
  | .contract => 3
  | .policed => 4
  | .beyondPolicy => 5

def RejReason.event : RejReason → Nat
  | .late => 0x0803
  | .unplaceable => 0x0804
  | .contract => 0x0805
  | .policed => 0x0806
  | .beyondPolicy => 0x0807

/-- The deadline of a timed frame (R238), none for a host frame with neither a deadline nor a budget (R239). -/
def deadlineOf (now : Nat) (p : Packet) : Option Nat :=
  let budget := match p.ctx with
    | some c => fld c.c1 21 0
    | none => 0
  match p.tx with
  | some t =>
    if t.deadlineValid then some ((now : Int) + signed 32 (wrap 32 ((t.deadline : Int) - now))).toNat
    else if budget = 0 then none
    else some (p.arrival + budget)
  | none => some (p.arrival + budget)

/-- A timed frame is refused (R241): counted, reported, gone. `feasible` is none for "None". -/
def reject (p : Packet) (port : Nat) (r : RejReason) (feasible : Option Nat) (s : State) : State :=
  let w := outcomeWord 1 r.code 0 false false 0 (feasible.getD 0xFFFFFFFF)
  reportOutcome p port 0xFF w (dropRef p (ev r.event s))

/-- The earliest time of a policed frame (R241 check 5). -/
def policedUntil (x : Policer) (now b : Nat) : Option Nat :=
  if x.cir = 0 then none else some (now + ceilQ ((b * 65536 - x.tc) * 8000000) (x.cir * 65536))

/-- The causes that already hold for a frame as it is accepted (R254). -/
def causesNow (s : State) (port : Nat) : Causes :=
  { localPower := s.pwr.warn
    lineFault :=
      if port < 64 then s.line.los || s.cir.lof || s.pf.st == .pf6 || s.pwr.txDisable || s.pf.held
      else if port < 68 then !(cport s (port - 64)).up
      else !s.pcie.linkUp || (headsAt s port).any fun h => s.dma.waits.contains h }

/-- A frame that passes every check is accepted with its key as its promise (R246), and placed. -/
def accept (p : Packet) (port key d k : Nat) (s : State) : State :=
  let q := p.queue.getD 0
  let x := queue s q
  let p := { p with promise := some key, deadline := some d, lookahead := key < d, quadrant := k
                    causes := causesNow s port }
  let w := outcomeWord 0 0 0 false p.lookahead 0 key
  let s1 := ev 0x0801 (setQueue q { x with frames := x.frames ++ [p], lastKey := key } s)
  let s2 := if p.lookahead then ev 0x0802 s1 else s1
  if p.tx.isSome then txAccepted p 0xFF w s2 else if x.acceptReport then writeRecord p port w s2 else s2

/-- Checks 6 to 8 (R241, R242, R246). -/
def placeTimed (p : Packet) (port now d : Nat) (c : Curve) (s : State) : State :=
  let q := p.queue.getD 0
  let x := queue s q
  let n := cells p
  let len := acctLen s port p
  match chooseQuad s with
  | none => reject p port .beyondPolicy none s
  | some k =>
    if x.limit < occupancy x + n || freeCells s k < n then reject p port .beyondPolicy none s
    else if !ledgerOk c now (ledger s port) len d then
      reject p port .late (feasible c now (ledger s port) len d) s
    else
      let key := max (candidate s port now len d) x.lastKey
      if d < key then reject p port .late (some x.lastKey) s
      else accept p port key d k s

/-- Check 5: the subscriber's timed policer (R241, R226, R224). -/
def policeTimed (p : Packet) (port now d : Nat) (c : Curve) (s : State) : State :=
  let n := (subNode s (queue s (p.queue.getD 0)).parent).policer
  if n = 0x1FFFF then placeTimed p port now d c s
  else if (policer s n).parked then reject p port .policed none (ev 0x0705 s)
  else
    match measure n p.bytes.length s with
    | (.green, t) => placeTimed p port now d c t
    | (_, t) => reject p port .policed (policedUntil (policer t n) now p.bytes.length) t

/-- A timed frame goes through the checks in order (R241). -/
def decide' (p : Packet) (s : State) : State :=
  let q := p.queue.getD 0
  let x := queue s q
  let port := portOf s q
  match deadlineOf s.tmu.ns p with
  | none => toException 0x20 p (ev 0x0818 s)
  | some d =>
    match usedCurve s port, now? s with
    | some c, some now =>
      if !(admPort s port).enable || (port < 64 && s.pf.st != .pf5) then reject p port .contract none s
      else if x.parked then reject p port .beyondPolicy none (ev 0x0705 s)
      else if !x.enable then reject p port .beyondPolicy none s
      else if usedMaxTimed s port < acctLen s port p then reject p port .unplaceable none s
      else if now + aheadNs s port < d then reject p port .beyondPolicy none s
      else policeTimed p port now d c s
    | _, _ => reject p port .contract none s

/-- ADMISSION_DECISION (R241): the oldest waiting frame of a side, when it is timed. -/
def execAdmissionDecision (side : Side) (s : State) : Res :=
  if schedReady s then
    match admissionHead side s with
    | some (p, t) => done s (if p.cls = .timed then decide' p t else s)
    | none => done s s
  else done s s

/-- TIMED_LATE_DROP (R253): the frames of a queue with LATE_DROP past their tolerance are discarded. -/
def execTimedLateDrop (queue' : Nat) (s : State) : Res :=
  if schedReady s && timeReady s then
    let x := queue s queue'
    let late := x.frames.takeWhile (pastTolerance s x)
    done s (discardFrames late false (setQueue queue' { x with frames := x.frames.drop late.length } s))
  else done s s

/-! ### Contracts (R235-R237) -/

/-- A CONTROL item of the contracts group that firmware can take: PF5, its header as R140 and R235 ask. -/
def contractItem (c : CtrlIn) (type len : Nat) : Bool :=
  be c 0 1 == 2 && be c 1 1 == type && be c 4 2 == len && c.length == 8 + len

/-- Notice of a reduction in line frames (R236). -/
def noticeFrames (s : State) (g : Nat) : Nat := ceilQ (aheadNs s g) 125000 + 8

/-- A reduction with its notice: the old contract counts in the account until the notice ends, and short notice is
counted (R236, R237). -/
def takeReduction (g fe : Nat) (cur : Contract) (s : State) : State :=
  let n := noticeFrames s g
  let until' := max fe (s.frm.frame.toNat + n)
  let short := framesTo s fe < n
  let s1 := setGsContract g { gsContract s g with old := some (cur, until'), short := short } s
  if short then ev 0x080F s1 else s1

/-- The terms of an offer lie in their ranges (R235). -/
def offerRange (g rate lat b : Nat) : Bool :=
  g < 64 && 64 ≤ rate && rate ≤ 191846400 && 1 ≤ lat && lat ≤ 4000 && 1 ≤ b && b ≤ 1249

/-- Firmware takes contract items: it runs, in PF5 (R140, R236). -/
def takesContracts (s : State) : Bool := fwWorks s && s.pf.st == .pf5

/-- CONTRACT_OFFER (R236): accepted, and in force from F_e. -/
def execContractOffer (item : CtrlIn) (s : State) : Res :=
  if !takesContracts s then done s s
  else
    let b := item.drop 8
    let g := be b 0 1
    let c : Contract := { number := be b 2 2, rate := be b 4 4, lat := be b 8 2, minBurst := be b 10 2 }
    let fe := be b 12 4
    if contractItem item 0x81 16 && offerRange g c.rate c.lat c.minBurst && 2 ≤ framesTo s fe then
      let s1 := match (gsContract s g).cur with
        | some x =>
          if c.rate < x.rate || c.minBurst < x.minBurst || x.lat < c.lat then takeReduction g fe x s else s
        | none => s
      let s2 := setGsContract g { gsContract s1 g with next := some (some c, fe) } s1
      let s3 := sendControl 2 2 (natBe 1 g ++ [0] ++ natBe 2 c.number) s2
      done s (evReport 0x0816 (bytesWords 2 b) s3)
    else done s (ev 0x0810 s)

/-- CONTRACT_END (R236): a reduction to nothing at F_e. -/
def execContractEnd (item : CtrlIn) (s : State) : Res :=
  if !takesContracts s then done s s
  else
    let b := item.drop 8
    let g := be b 0 1
    let number := be b 2 2
    let fe := be b 12 4
    match (gsContract s g).cur with
    | some x =>
      if contractItem item 0x82 16 && g < 64 && x.number == number && 2 ≤ framesTo s fe then
        let s1 := takeReduction g fe x s
        let s2 := setGsContract g { gsContract s1 g with next := some (none, fe) } s1
        done s (evReport 0x0817 [word (g + at' number 16 + at' fe 32)] s2)
      else done s (ev 0x0810 s)
    | none => done s (ev 0x0810 s)

/-- CONTRACT_IN_FORCE (R236): at the start of upstream frame F_e the accepted change takes effect. -/
def execContractInForce (gs frame : Nat) (s : State) : Res :=
  let x := gsContract s gs
  match x.next with
  | some (c, fe) =>
    if gs < 64 && fe = frame then
      let s1 := keepCurve gs s (setGsContract gs { x with
        cur := c, next := none, deficit := if x.cur.isNone then 0 else x.deficit } s)
      done s (match c with
        | some k => evReport 0x080E [word (gs + at' k.number 16)] s1
        | none => s1)
    else done s s
  | none => done s s

/-- The contract that an upstream frame is measured against (R237). -/
def measured (x : GsContract) (frame : Nat) : Option Contract :=
  match x.old with
  | some (c, until') => if frame < until' then some c else x.cur
  | none => x.cur

/-- The key of a stream's grants of one upstream frame. -/
def grantKey (frame gs : Nat) : Nat := frame * 64 + gs

/-- One stream's account at the end of an upstream frame (R237); the deficit is kept in 1/64 byte, since R_c x 125 us is
rate / 64 bytes. -/
def accountOne (frame : Nat) (s : State) (gs : Nat) : State :=
  let x := gsContract s gs
  match measured x frame with
  | none => s
  | some c =>
    let granted := mget 0 s.up.granted (grantKey frame gs)
    let d := x.deficit + c.rate - granted * 64
    let breach := c.rate * c.lat * 64 < d * 8000 || s.up.shortGrant.contains (grantKey frame gs)
    let s1 := setGsContract gs { x with deficit := d, breaches := x.breaches + b2n breach
                                        old := if x.old.any fun o => o.2 ≤ frame + 1 then none else x.old } s
    if breach then ev 0x080D (tapAdd (objStream gs) (fun a => { a with shortfall := a.shortfall + 1 }) s1) else s1

/-- CONTRACT_ACCOUNT (R237): at the end of each upstream frame. -/
def execContractAccount (frame : Nat) (s : State) : Res :=
  if on s 41 then
    let s1 := (List.range 64).foldl (accountOne frame) s
    done s { s1 with up := { s1.up with
      granted := s1.up.granted.filter fun e => frame < e.1 / 64
      shortGrant := s1.up.shortGrant.filter fun k => frame < k / 64 } }
  else done s s

/-- COMBINED_CURVE_END (R234): MAX_AHEAD after the change, the new curve stands alone. -/
def execCombinedCurveEnd (port : Nat) (s : State) : Res :=
  let x := admPort s port
  if port < 84 && on s 41 && x.old.isSome && x.until' ≤ s.tmu.ns then
    done s (setAdmPort port { x with old := none, until' := 0 } s)
  else done s s

/-- Every contract lapses when the module leaves PF5 (R236). -/
def lapseContracts (s : State) : State := { s with adm := { s.adm with contracts := [] } }

/-! ### Gates (R248-R250) -/

/-- GATE_INTERVAL_END (R248): the next entry's gates apply; a frame held back at a guard band is held no longer. -/
def execGateIntervalEnd (port : Nat) (s : State) : Res :=
  if port < 4 && on s 41 then done s (setGate port { gate s port with waiting := [] } s) else done s s

/-- The first cycle boundary of a list at or after a time; the time itself for an empty list (R250). -/
def boundaryAfter (g : GateList) (t : Nat) : Nat :=
  if g.entries.isEmpty || g.cycle = 0 then t
  else ((t : Int) + (((g.base : Int) - t) % (g.cycle : Int))).toNat

/-- GATE_LIST_CHANGED (R250): at the boundary the standby copy becomes active. -/
def execGateListChanged (port : Nat) (s : State) : Res :=
  let g := gate s port
  match g.next with
  | some (l, t) =>
    if port < 4 && on s 41 && boundaryAfter g.active t ≤ s.tmu.ns then
      done s (ev 0x0812 (keepCurve (64 + port) s
        (setGate port { g with active := l, next := none, waiting := [] } s)))
    else done s s
  | none => done s s

/-! ### Group 0x08 (R434) -/

/-- ADMISSION_SET (R230). -/
def cmdAdmissionSet : IfCmd where
  opcode := 0x0801
  len := lenIs 3
  domains := fun _ => [41]
  range := fun s ws =>
    let w := arg ws 1
    let port := fld w 6 0
    let r := fld (arg ws 2) 11 0
    onlyBits w 0x3FFFFFFFFFFFF && port ≤ 83 && 64 ≤ fld w 22 8
      && fld w 22 8 ≤ maxAllowed s port (gate s (port - 64)).active (gsContract s port).cur
      && 4096 ≤ fld w 42 23 && fld w 42 23 ≤ 1000000 && 1 ≤ fld w 49 43 && fld w 49 43 ≤ 100
      && onlyBits (arg ws 2) 0xFFF && (r ≤ 2047 || r == 0xFFF)
  effect := fun _ ws s =>
    let w := arg ws 1
    let port := fld w 6 0
    let s1 := setAdmPort port { admPort s port with
      enable := bit w 7, maxTimed := some (fld w 22 8), maxAhead := fld w 42 23, hostLat := fld w 49 43
      outRing := fld (arg ws 2) 11 0 } s
    (keepCurve port s s1, .done)

def execAdmissionSet (ch : Nat) (s : State) : Res := done s (runIf cmdAdmissionSet ch s)

def curveWord : Option Curve → Word
  | some c => word (c.rate % 2 ^ 32 + at' (c.lat % 2 ^ 32) 32)
  | none => 0

/-- The module time at which the combined curve ends (R234), zero when none applies. -/
def combinedEnd (s : State) (port : Nat) : Nat :=
  if (nextCurve s port).isSome then
    if port < 64 then
      match (gsContract s port).next with
      | some (_, fe) =>
        let sym : Int := framesTo s fe * 14062500 + 3600000 + s.pf.eqd
        (symbolTime s sym / (2 ^ 32 * 225)).toNat + aheadNs s port
      | none => 0
    else
      match (gate s (port - 64)).next with
      | some (_, t) => boundaryAfter (gate s (port - 64)).active t + aheadNs s port
      | none => 0
  else if (oldCurve s port).isSome then (admPort s port).until'
  else 0

/-- ADMISSION_READ (R230, R234). -/
def cmdAdmissionRead : IfCmd where
  opcode := 0x0802
  len := lenIs 2
  domains := fun _ => [41]
  range := fun _ ws => onlyBits (arg ws 1) 0x7F && fld (arg ws 1) 6 0 ≤ 83
  effect := fun _ ws s =>
    let port := fld (arg ws 1) 6 0
    let both := (nextCurve s port).isSome || (oldCurve s port).isSome
    (s, .data [curveWord (curveOf s port), if both then curveWord (usedCurve s port) else 0,
      word ((ledger s port).map (·.2)).sum, word (combinedEnd s port)])

def execAdmissionRead (ch : Nat) (s : State) : Res := done s (runIf cmdAdmissionRead ch s)

/-- CONTRACT_REQUEST (R235): queued to the head end. -/
def cmdContractRequest : IfCmd where
  opcode := 0x0803
  len := lenIs 3
  ready := fun s _ => s.pf.st == .pf5
  range := fun _ ws =>
    let w := arg ws 2
    onlyBits (arg ws 1) 0x3F && onlyBits w 0x7FFFFFFFFFFFFFF && offerRange 0 (fld w 31 0) (fld w 47 32) (fld w 58 48)
  effect := fun _ ws s =>
    let w := arg ws 2
    (sendControl 2 1 (natBe 1 (fld (arg ws 1) 5 0) ++ [0, 0, 0] ++ natBe 4 (fld w 31 0) ++ natBe 2 (fld w 47 32)
      ++ natBe 2 (fld w 58 48)) s, .done)

def execContractRequest (ch : Nat) (s : State) : Res := done s (runIf cmdContractRequest ch s)

/-- CONTRACT_RELEASE (R235): queued to the head end. -/
def cmdContractRelease : IfCmd where
  opcode := 0x0804
  len := lenIs 2
  ready := fun s _ => s.pf.st == .pf5
  range := fun _ ws => onlyBits (arg ws 1) 0x3F
  effect := fun _ ws s => (sendControl 2 3 (natBe 1 (fld (arg ws 1) 5 0) ++ [0, 0, 0]) s, .done)

def execContractRelease (ch : Nat) (s : State) : Res := done s (runIf cmdContractRelease ch s)

/-- CONTRACT_READ (R434). -/
def cmdContractRead : IfCmd where
  opcode := 0x0805
  len := lenIs 2
  domains := fun _ => [41]
  range := fun _ ws => onlyBits (arg ws 1) 0x3F
  effect := fun _ ws s =>
    let x := gsContract s (fld (arg ws 1) 5 0)
    let c : Option Contract := match x.cur with
      | some c => some c
      | none => (x.next.map (·.1)).join
    (s, .data [word ((c.map (·.number)).getD 0 + at' (b2n x.cur.isSome) 16),
      (match c with
        | some c => word (c.rate + at' c.lat 32 + at' c.minBurst 48)
        | none => 0), word (x.deficit / 64), word x.breaches])

def execContractRead (ch : Nat) (s : State) : Res := done s (runIf cmdContractRead ch s)

/-- A gate entry lies in its range (R248). -/
def gateEntryOk (w : Word) : Bool := fld w 60 32 == 0 && 64 ≤ fld w 31 0 && fld w 31 0 ≤ 1000000000

/-- GATE_WRITE (R250): the standby copy is written, and a pending change cancelled. -/
def cmdGateWrite : IfCmd where
  opcode := 0x0806
  len := fun _ l => 3 ≤ l && l ≤ 64
  domains := fun _ => [41]
  range := fun _ ws =>
    onlyBits (arg ws 1) 0xFFF && fld (arg ws 1) 11 2 + (ws.length - 2) ≤ 1024 && (ws.drop 2).all gateEntryOk
  effect := fun _ ws s =>
    let n := fld (arg ws 1) 1 0
    let g := gate s n
    let standby := (List.range (ws.length - 2)).foldl (fun m k =>
      mput gateEntryReset m (fld (arg ws 1) 11 2 + k) (arg ws (2 + k))) g.standby
    (setGate n { g with standby := standby, next := none } s, .done)

def execGateWrite (ch : Nat) (s : State) : Res := done s (runIf cmdGateWrite ch s)

/-- The standby entries that a commit takes. -/
def standbyList (s : State) (ws : List Word) : List Word :=
  (List.range (fld (arg ws 1) 12 2)).map (mget gateEntryReset (gate s (fld (arg ws 1) 1 0)).standby)

/-- GATE_COMMIT (R248, R250). -/
def cmdGateCommit : IfCmd where
  opcode := 0x0807
  len := lenIs 5
  domains := fun _ => [41, 7]
  ready := fun s _ => timeReady s
  range := fun _ ws => onlyBits (arg ws 1) 0x1FFF && fld (arg ws 1) 12 2 ≤ 1024
  check := fun s ws =>
    let l := standbyList s ws
    if !l.all gateEntryOk || (l.map fun w => fld w 31 0).sum != (arg ws 2).toNat then some (0x8006, none)
    else if (arg ws 4).toNat < s.tmu.ns + aheadNs s (64 + fld (arg ws 1) 1 0) + 1000000 then some (0x8006, none)
    else none
  effect := fun _ ws s =>
    let n := fld (arg ws 1) 1 0
    let l : GateList := { entries := standbyList s ws, cycle := (arg ws 2).toNat, base := (arg ws 3).toNat }
    (setGate n { gate s n with next := some (l, (arg ws 4).toNat) } s, .done)

def execGateCommit (ch : Nat) (s : State) : Res := done s (runIf cmdGateCommit ch s)

/-- The payload rates of the circuits bound to an egress, in 1,000 b/s (R139). -/
def boundRate (s : State) (port : Nat) : Nat := ((boundCircuits s port).map (circuitRate s)).sum

/-- HOST_SHARE (R207, R233, R434). -/
def cmdHostShare : IfCmd where
  opcode := 0x0808
  len := lenIs 3
  domains := fun _ => [41]
  range := fun _ ws =>
    onlyBits (arg ws 1) 0xF && onlyBits (arg ws 2) 0xFFFFFFFF && 64 ≤ fld (arg ws 2) 31 0
      && fld (arg ws 2) 31 0 ≤ 200000000
  check := fun s ws =>
    let g := fld (arg ws 1) 3 0
    let x := fld (arg ws 2) 31 0
    let others := ((List.range 16).map fun k => if k = g then 0 else share s k).sum
    if 200000000 < others + x || x < boundRate s (68 + g) then some (0x8007, none) else none
  effect := fun _ ws s =>
    let g := fld (arg ws 1) 3 0
    let x := fld (arg ws 2) 31 0
    let s1 := { s with sch := { s.sch with shares := mput 12500000 s.sch.shares g x } }
    let sh := (portNode s (68 + g)).shaper
    (followTags (keepCurve (68 + g) s (setShaper (.port (68 + g)) (sh.reshape s x sh.burst) s1)), .done)

def execHostShare (ch : Nat) (s : State) : Res := done s (runIf cmdHostShare ch s)

end Sys2Proof.Machine
end

