-- ==== Sys2Proof/Machine/Batches.lean ====
section
/-! DEFINITION. Rule batches: the commands of group 0x05, and the commit at a named time (R196-R198, R431). -/

namespace Sys2Proof.Machine

/-! ### What the commands share -/

/-- The BUILDING batch is the one a command names, and no timed commit of it is pending (R431). -/
def namesBatch (s : State) (batch : Nat) : Option (Nat × Option Nat) :=
  match buildingSlot s with
  | none => some (0x8008, none)
  | some v =>
    if (version s v).batch ≠ batch then some (0x8008, none)
    else if (version s v).commitAt.isSome then some (0x8003, none)
    else none

/-- The refusals of a write of the pool entries `l`: one that the other live version holds is DENIED (R175). -/
def writeRefusal (s : State) (ws : List Word) (other : Nat → Nat → Bool) (l : List Nat) : Option (Nat × Option Nat) :=
  match namesBatch s (fld (arg ws 1) 31 0) with
  | some r => some r
  | none =>
    match buildingSlot s with
    | some v => if l.any (other (1 - v)) then some (0x8005, none) else none
    | none => none

/-- The BUILDING slot's content is changed. -/
def editBatch (f : Nat → Version → Version) (s : State) : State :=
  match buildingSlot s with
  | some v => setVersion v (f v (version s v)) s
  | none => s

def setPword (a : Nat) (x : PWord) (s : State) : State :=
  { s with prs := { s.prs with prog := mput pwordReset s.prs.prog a x } }

def setComp (n : Nat) (x : Comparator) (s : State) : State :=
  { s with prs := { s.prs with comps := mput compReset s.prs.comps n x } }

def setPat (n : Nat) (x : Pattern) (s : State) : State :=
  { s with prs := { s.prs with pats := mput patReset s.prs.pats n x } }

/-- A pool entry is written by the BUILDING version, which alone holds it. -/
def holdOne (v : Nat) : Bool × Bool := (v == 0, v != 0)

/-! ### Writing a batch (R431) -/

/-- BATCH_OPEN (R197): BUSY while a batch is BUILDING or an opening waits; PENDING until the other slot is FREE. -/
def cmdBatchOpen : IfCmd where
  opcode := 0x0501
  len := lenIs 1
  domains := fun _ => [39]
  check := fun s _ => if (buildingSlot s).isSome || waiting s .batchOpen then some (0x8003, none) else none
  effect := fun _ _ s =>
    match currentSlot s with
    | some c =>
      if (version s (1 - c)).st = .draining then (s, .pend .batchOpen)
      else let (t, slot, n) := openBatch s; (t, .data [word slot, word n])
    | none => let (t, slot, n) := openBatch s; (t, .data [word slot, word n])

def execBatchOpen (ch : Nat) (s : State) : Res := done s (runIf cmdBatchOpen ch s)

/-- Count of BATCH_PROGRAM. -/
def progCount (ws : List Word) : Nat := fld (arg ws 1) 58 48

/-- Instruction k of BATCH_PROGRAM: the lower address in [31:0]. -/
def progWord (ws : List Word) (k : Nat) : BitVec 32 :=
  let w := arg ws (2 + k / 2)
  BitVec.ofNat 32 (if k % 2 = 0 then fld w 31 0 else fld w 63 32)

/-- BATCH_PROGRAM (R175, R431). -/
def cmdBatchProgram : IfCmd where
  opcode := 0x0502
  len := fun ws l => l == 2 + (progCount ws + 1) / 2
  domains := fun _ => [39]
  range := fun _ ws =>
    let n := progCount ws
    onlyBits (arg ws 1) 0x07FF1FFFFFFFFFFF && 1 ≤ n && n ≤ 124 && fld (arg ws 1) 44 32 + n ≤ 8192
      && (n % 2 == 0 || fld (arg ws (2 + n / 2)) 63 32 == 0)
  check := fun s ws => writeRefusal s ws (fun o a => (pword s a).heldBy o)
    ((List.range (progCount ws)).map (fld (arg ws 1) 44 32 + ·))
  effect := fun _ ws s =>
    let v := (buildingSlot s).getD 0
    ((List.range (progCount ws)).foldl (fun t k =>
      setPword (fld (arg ws 1) 44 32 + k) { w := progWord ws k, h0 := (holdOne v).1, h1 := (holdOne v).2 } t) s, .done)

def execBatchProgram (ch : Nat) (s : State) : Res := done s (runIf cmdBatchProgram ch s)

/-- BATCH_ENTRY (R162, R431). -/
def cmdBatchEntry : IfCmd where
  opcode := 0x0503
  len := lenIs 7
  domains := fun _ => [39]
  range := fun _ ws => onlyBits (arg ws 1) 0xFFFFFFFF
    && (List.range 5).all fun k => onlyBits (arg ws (2 + k)) 0x8000000000001FFF
  check := fun s ws => namesBatch s (fld (arg ws 1) 31 0)
  effect := fun _ ws s =>
    let entries := (List.range 5).map fun k =>
      if bit (arg ws (2 + k)) 63 then some (fld (arg ws (2 + k)) 12 0) else none
    (editBatch (fun _ x => { x with entry := entries }) s, .done)

def execBatchEntry (ch : Nat) (s : State) : Res := done s (runIf cmdBatchEntry ch s)

def rangeCount (ws : List Word) : Nat := fld (arg ws 1) 45 40

/-- BATCH_RANGE (R166, R431). -/
def cmdBatchRange : IfCmd where
  opcode := 0x0504
  len := fun ws l => l == 2 + rangeCount ws
  domains := fun _ => [39]
  range := fun _ ws =>
    let n := rangeCount ws
    onlyBits (arg ws 1) 0x3FFFFFFFFFFF && 1 ≤ n && n ≤ 62 && fld (arg ws 1) 39 32 + n ≤ 256
      && (List.range n).all fun k => onlyBits (arg ws (2 + k)) 0xFFFFFFFF
  check := fun s ws => writeRefusal s ws (fun o n => (comparator s n).heldBy o)
    ((List.range (rangeCount ws)).map (fld (arg ws 1) 39 32 + ·))
  effect := fun _ ws s =>
    let v := (buildingSlot s).getD 0
    ((List.range (rangeCount ws)).foldl (fun t k =>
      let w := arg ws (2 + k)
      setComp (fld (arg ws 1) 39 32 + k)
        { lo := fld w 15 0, hi := fld w 31 16, h0 := (holdOne v).1, h1 := (holdOne v).2 } t) s, .done)

def execBatchRange (ch : Nat) (s : State) : Res := done s (runIf cmdBatchRange ch s)

/-- BATCH_PATTERN (R166, R431). -/
def cmdBatchPattern : IfCmd where
  opcode := 0x0505
  len := lenIs 11
  domains := fun _ => [39]
  range := fun _ ws =>
    onlyBits (arg ws 1) 0xFFFFFFFFFFFFFF && onlyBits (arg ws 2) 0x7FF07FF
      && 1 ≤ fld (arg ws 1) 55 50 && fld (arg ws 1) 55 50 ≤ 32
  check := fun s ws => writeRefusal s ws (fun o n => (pattern s n).heldBy o) [fld (arg ws 1) 43 32]
  effect := fun _ ws s =>
    let v := (buildingSlot s).getD 0
    let bytes := wordsBytes (ws.drop 3)
    (setPat (fld (arg ws 1) 43 32)
      { value := pad 32 (bytes.take 32), mask := pad 32 (bytes.drop 32), length := fld (arg ws 1) 55 50
        group := fld (arg ws 1) 49 44, start := fld (arg ws 2) 10 0, stop := fld (arg ws 2) 26 16
        h0 := (holdOne v).1, h1 := (holdOne v).2 } s, .done)

def execBatchPattern (ch : Nat) (s : State) : Res := done s (runIf cmdBatchPattern ch s)

/-- BATCH_ACTIONS (R172, R185, R431). -/
def cmdBatchActions : IfCmd where
  opcode := 0x0506
  len := lenIs 8
  domains := fun _ => [39]
  range := fun _ ws =>
    onlyBits (arg ws 1) 0xFFFFFFFF && onlyBits (arg ws 2) 0x3F
      && ((List.range 3).all fun k => fld (arg ws 2) (2 * k + 1) (2 * k) ≤ 2)
      && (List.range 5).all fun k => onlyBits (arg ws (3 + k)) 0xFFFFF && fld (arg ws (3 + k)) 1 0 ≤ 2
  check := fun s ws => namesBatch s (fld (arg ws 1) 31 0)
  effect := fun _ ws s =>
    (editBatch (fun _ x => { x with
      actions := (List.range 3).map fun k => fld (arg ws 2) (2 * k + 1) (2 * k)
      miss := (List.range 5).map fun k => (fld (arg ws (3 + k)) 1 0, fld (arg ws (3 + k)) 19 2) }) s, .done)

def execBatchActions (ch : Nat) (s : State) : Res := done s (runIf cmdBatchActions ch s)

/-- Size of a pool by kind: program, comparators, patterns. -/
def poolSize (kind : Nat) : Nat := if kind = 0 then 8192 else if kind = 1 then 256 else 4096

/-- A version stops holding the entry n of a pool; what no version holds is free (R175). -/
def dropEntry (kind v n : Nat) (s : State) : State :=
  if kind = 0 then
    let x := (pword s n).hold v false
    setPword n (if x.h0 || x.h1 then x else pwordReset) s
  else if kind = 1 then
    let x := (comparator s n).hold v false
    setComp n (if x.h0 || x.h1 then x else compReset) s
  else
    let x := (pattern s n).hold v false
    setPat n (if x.h0 || x.h1 then x else patReset) s

/-- BATCH_DROP (R175, R431). -/
def cmdBatchDrop : IfCmd where
  opcode := 0x0507
  len := lenIs 3
  domains := fun _ => [39]
  range := fun _ ws =>
    onlyBits (arg ws 1) 0x3FFFFFFFF && onlyBits (arg ws 2) 0x1FFF1FFF && fld (arg ws 1) 33 32 ≤ 2
      && fld (arg ws 2) 12 0 + fld (arg ws 2) 28 16 ≤ poolSize (fld (arg ws 1) 33 32)
  check := fun s ws => namesBatch s (fld (arg ws 1) 31 0)
  effect := fun _ ws s =>
    let v := (buildingSlot s).getD 0
    ((List.range (fld (arg ws 2) 28 16)).foldl (fun t k =>
      dropEntry (fld (arg ws 1) 33 32) v (fld (arg ws 2) 12 0 + k) t) s, .done)

def execBatchDrop (ch : Nat) (s : State) : Res := done s (runIf cmdBatchDrop ch s)

/-! ### Committing (R198) -/

/-- Every program word of the batch passes R164: it decodes, and a branch stays in the batch's program area. -/
def programOk (s : State) (v : Nat) : Bool :=
  s.prs.prog.all fun e => !e.2.heldBy v ||
    match decodeP e.2.w.toNat with
    | some (.b _ t) => (pword s t).heldBy v
    | some _ => true
    | none => false

/-- Every comparator and pattern field lies in its range (R166). -/
def poolsOk (s : State) (v : Nat) : Bool :=
  (s.prs.comps.all fun e => !e.2.heldBy v || (e.2.lo < 2 ^ 16 && e.2.hi < 2 ^ 16))
    && s.prs.pats.all fun e => !e.2.heldBy v ||
      (1 ≤ e.2.length && e.2.length ≤ 32 && e.2.group < 64 && e.2.start < 2048 && e.2.stop < 2048)

/-- The eight queues from MISS_BASE lie under one client port node or host group and are BEST_EFFORT (R185). -/
def missOk (s : State) (base : Nat) : Bool :=
  base + 7 < 262144 && (isClient (portOf s base) || isGroup (portOf s base))
    && (List.range 8).all fun k => portOf s (base + k) == portOf s base && (queue s (base + k)).cls == .bestEffort

/-- A batch passes its validation (R198). -/
def batchValid (s : State) (v : Nat) : Bool :=
  programOk s v && poolsOk s v && (version s v).miss.all fun m => m.1 != 1 || missOk s m.2

/-- The batch that a commit names reads queues (R185, R208). -/
def batchReadsQueues (s : State) : Bool :=
  match buildingSlot s with
  | some v => (version s v).miss.any fun m => m.1 == 1
  | none => false

/-- BATCH_COMMIT (R198): at once, or at a module time 10 us to 1 s ahead. -/
def cmdBatchCommit : IfCmd where
  opcode := 0x0508
  len := lenIs 3
  domains := fun ws => if arg ws 2 = 0 then [39] else [39, 7]
  ready := fun s ws => (!batchReadsQueues s || on s 41) && (arg ws 2 == 0 || timeReady s)
  range := fun _ ws => onlyBits (arg ws 1) 0xFFFFFFFF
  check := fun s ws =>
    let t := (arg ws 2).toNat
    match namesBatch s (fld (arg ws 1) 31 0) with
    | some r => some r
    | none =>
      if t ≠ 0 ∧ ¬ (s.tmu.ns + 10000 ≤ t ∧ t ≤ s.tmu.ns + 1000000000) then some (0x8006, none)
      else if batchValid s ((buildingSlot s).getD 0) then none
      else some (0x8006, some 0x050E)
  effect := fun _ ws s =>
    let v := (buildingSlot s).getD 0
    if arg ws 2 = 0 then (commitSlot v s, .done)
    else (setVersion v { version s v with commitAt := some (arg ws 2).toNat } s, .pend .batchCommit)

def execBatchCommit (ch : Nat) (s : State) : Res := done s (runIf cmdBatchCommit ch s)

/-- BATCH_TIMED_COMMIT (R198): the named time has come. -/
def execBatchTimedCommit (s : State) : Res :=
  match buildingSlot s with
  | some v =>
    match (version s v).commitAt with
    | some t => done s (if on s 39 && timeReady s && t ≤ s.tmu.ns then finishWait .batchCommit 0 [] (commitSlot v s) else s)
    | none => done s s
  | none => done s s

/-- BATCH_ABANDON (R197, R431): the slot becomes FREE, and the entries that only it held. -/
def cmdBatchAbandon : IfCmd where
  opcode := 0x0509
  len := lenIs 2
  domains := fun _ => [39]
  range := fun _ ws => onlyBits (arg ws 1) 0xFFFFFFFF
  check := fun s ws => namesBatch s (fld (arg ws 1) 31 0)
  effect := fun _ _ s =>
    match buildingSlot s with
    | some v => (setVersion v versionReset (reholdPools v (fun _ _ => false) s), .done)
    | none => (s, .done)

def execBatchAbandon (ch : Nat) (s : State) : Res := done s (runIf cmdBatchAbandon ch s)

def verCode : VerSt → Nat
  | .free => 0
  | .building => 1
  | .current => 2
  | .draining => 3

/-- A slot's word of VERSION_READ. -/
def versionWord (v : Version) : Word := word (verCode v.st + at' (b2n v.faulty) 2 + at' (v.batch % 2 ^ 32) 32)

/-- VERSION_READ (R431). -/
def cmdVersionRead : IfCmd where
  opcode := 0x050A
  len := lenIs 1
  domains := fun _ => [39]
  effect := fun _ _ s => (s, .data [versionWord s.prs.v0, versionWord s.prs.v1,
    word (s.prs.v0.refs % 2 ^ 32 + at' (s.prs.v1.refs % 2 ^ 32) 32)])

def execVersionRead (ch : Nat) (s : State) : Res := done s (runIf cmdVersionRead ch s)

end Sys2Proof.Machine
end

