-- ==== Sys2Proof/Machine/Cipher.lean ====
section
/-! DEFINITION. The cipher engine: inline work, the lock and the jobs of the look-aside interface, the key commands
(R314-R335, R437). -/

namespace Sys2Proof.Machine

/-- The domain of a core (R314). -/
def coreDom (k : Nat) : Nat := if k < 4 then 46 else 47

def coreOn (s : State) (k : Nat) : Bool := k < 8 && on s (coreDom k)

def coresOn (s : State) : Nat := ((List.range 8).filter (coreOn s)).length

def core? (s : State) (k : Nat) : Option CoreUnit := mfind s.cph.cores k

def setCore (k : Nat) (u : CoreUnit) (s : State) : State :=
  { s with cph := { s.cph with cores := minsert s.cph.cores k u } }

def freeCore (k : Nat) (s : State) : State := { s with cph := { s.cph with cores := merase s.cph.cores k } }

def CoreUnit.isLa (u : CoreUnit) : Bool :=
  match u.work with
  | .la _ => true
  | .inline _ _ _ => false

/-- Cores that run look-aside work now. -/
def laCores (s : State) : Nat := (s.cph.cores.filter fun e => e.2.isLa).length

/-- Inline units that wait for a core. -/
def inlineWaits (s : State) : Nat := s.frm.toCipher.length + s.cph.upWait.length

def inlineBusy (s : State) : Bool := 0 < inlineWaits s || s.cph.cores.any fun e => !e.2.isLa

/-- The cores that look-aside work may hold now (R316). -/
def laAllowance (s : State) : Nat := if inlineBusy s then coresOn s / 4 else coresOn s

def idleCores (s : State) : Nat := ((List.range 8).filter fun k => coreOn s k && (core? s k).isNone).length

/-! ### Inline work (R13, R317, R318) -/

/-- The IV of an encrypted frame (R118). -/
def gcmIv (tid : Nat) (epoch : Bool) (up : Bool) (frame start offset : Nat) : List Byte :=
  natBe 1 tid ++ natBe 1 (b2n epoch * 128 + b2n up * 64) ++ natBe 4 frame ++ natBe 3 start ++ natBe 3 offset

/-- Bits [63:16] of a channel-tag header, HCS zero (R86). -/
def itemHeader (tag len : Nat) (first last epoch : Bool) (cls : Nat) (tagged : Bool) : Word :=
  word (at' tag 44 + at' len 30 + at' (b2n first) 29 + at' (b2n last) 28 + at' (b2n epoch) 27 + at' cls 24
    + at' (b2n tagged) 23)

/-- The AAD of an encrypted frame (R317). -/
def gcmAad (tag len : Nat) (epoch : Bool) (cls : Nat) : List Byte :=
  natBe 8 (itemHeader tag len true true epoch cls true).toNat

/-- A decrypted or clear line frame goes where its tag sends it: to parse, or to firmware (R91, R187). A frame for
firmware is taken through the control rows. -/
def passLine (block i inst : Nat) (f : LineFrame) (s : State) : State :=
  if controlHeld s && f.tag == controlTag s then s
  else match tagEntry s f.tag with
    | some w => if tagTarget w = 1 then s else offerParse block i inst f.packet s
    | none => offerParse block i inst f.packet s

/-- The frames at the front of the downstream order that are done leave the cipher (R317). -/
def drainOrder : List InFlight → State → State
  | [], s => { s with cph := { s.cph with order := [] } }
  | x :: r, s =>
    if x.done then
      drainOrder r (match x.out with | some f => passLine 0x0B 0 0 f s | none => s)
    else { s with cph := { s.cph with order := x :: r } }

/-- A core takes a downstream frame with the key of its tag and epoch bit, or the frame is discarded (R318, R323). -/
def startDown (k : Nat) (f : LineFrame) (s : State) : State :=
  match lineSlot s f.tag f.epoch with
  | none => ev 0x0B02 s
  | some n =>
    match loadedKey s n with
    | none => ev 0x0B02 s
    | some key =>
      if 16383 < f.content.length then ev 0x0B03 s
      else
        let id := s.cph.nextId
        setCore k { work := .inline .down id f, slot := n, gen := (keySlot s n).gen, key := key }
          { s with cph := { s.cph with nextId := id + 1, order := s.cph.order ++ [{ id := id, done := false, out := none }] } }

/-- A core takes an upstream frame, whose output was fixed at the build point (R99, R317). -/
def startUp (k : Nat) (f : LineFrame) (s : State) : State :=
  match lineSlot s f.tag f.epoch with
  | none => s
  | some n =>
    setCore k { work := .inline .up s.cph.nextId f, slot := n, gen := (keySlot s n).gen, key := (keySlot s n).key }
      { s with cph := { s.cph with nextId := s.cph.nextId + 1 } }

/-- The look-aside unit on a core yields: its job is saved (R316). -/
def yieldCore (k : Nat) (s : State) : State :=
  match core? s k with
  | some u => ev 0x0B0C (freeCore k { s with cph := { s.cph with saved := s.cph.saved ++ [u] } })
  | none => s

/-- A core is given to an inline unit: idle, or taken from look-aside work beyond its allowance (R316). -/
def inlineCore (k : Nat) (s : State) : Option State :=
  if !(cipherReady s && coreOn s k) then none
  else match core? s k with
    | none => some s
    | some u => if u.isLa && idleCores s == 0 && laAllowance s < laCores s then some (yieldCore k s) else none

/-- INLINE_UNIT_DISPATCH (R316): the oldest inline unit of a direction goes to a core. -/
def execInlineUnitDispatch (dir : Dir) (core : Nat) (s : State) : Res :=
  match dir with
  | .down =>
    match s.frm.toCipher, inlineCore core s with
    | f :: r, some t => done s (startDown core f { t with frm := { t.frm with toCipher := r } })
    | _, _ => done s s
  | .up =>
    match s.cph.upWait, inlineCore core s with
    | f :: r, some t => done s (startUp core f { t with cph := { t.cph with upWait := r } })
    | _, _ => done s s

/-- What a downstream GCM operation makes of a frame: its plaintext, or nothing on a tag mismatch. -/
def decryptFrame (s : State) (key : List Byte) (f : LineFrame) : Option LineFrame :=
  (gcmDecrypt key (gcmIv s.pf.tid f.epoch false f.frame 0 f.offset) (gcmAad f.tag f.content.length f.epoch (clsCode f.packet.cls))
    f.content f.gcmTag).map fun pt => { f with packet := { f.packet with bytes := pt }, content := [] }

/-- INLINE_UNIT_DONE (R317): the frame leaves in its order, or is discarded on a mismatch. -/
def execInlineUnitDone (core : Nat) (s : State) : Res :=
  match core? s core with
  | some u =>
    match u.work with
    | .inline .down id f =>
      let out := decryptFrame s u.key f
      let s1 := freeCore core (if out.isNone then ev 0x0B01 s else s)
      let order := s1.cph.order.map fun x => if x.id = id then { x with done := true, out := out } else x
      done s (drainOrder order s1)
    | .inline .up _ _ => done s (freeCore core s)
    | .la _ => done s s
  | none => done s s

/-! ### The lock (R325-R327) -/

/-- A bit of CPH_EVENTS is set and vector 0 raised (R328). -/
def setCphEvent (n : Nat) (s : State) : State :=
  raise 0 { s with cph := { s.cph with events := s.cph.events ||| BitVec.ofNat 64 (2 ^ n) } }

/-- The requester owns the lock. -/
def ownsCph (s : State) (r : Req) : Bool := s.cph.held && s.cph.owner == reqNo r

def lockWord (s : State) (granted busy : Bool) : Word :=
  word (b2n s.cph.held + at' s.cph.owner 1 + at' (b2n granted) 3 + at' (b2n busy) 4)

def freeLock (s : State) : State := { s with cph := { s.cph with held := false, owner := 0 } }

/-- A read of CPH_LOCK (R326). -/
def readLock (req : Req) (t : State) : BitVec 64 × State :=
  if !t.cph.held then
    let u := ev 0x0B0D { t with cph := { t.cph with held := true, owner := reqNo req } }
    (lockWord u true false, u)
  else if ownsCph t req then (lockWord t false false, t)
  else (lockWord t false true, ev 0x0B0E t)

/-- CPH_LOCK as it stands, for a requester (R325, R362). -/
def lockValue (req : Req) (t : State) : Word := lockWord t false (t.cph.held && !ownsCph t req)

/-- CPH_LOCK_READ (R326); a 32-bit read acquires nothing (R362). -/
def execCphLockRead (req : Req) (wide : Bool) (s : State) : Res :=
  done s (readSide req 0x50000 46 wide (if wide then readLock req else fun t => (lockValue req t, t)) s)

/-- A write of CPH_LOCK: 1 in HELD by the owner releases it; any other requester's write is dropped (R325). -/
def writeLock (req : Req) (v : Word) (t : State) : State := if bit v 0 && ownsCph t req then freeLock t else t

/-- CPH_LOCK_RELEASE (R325). -/
def execCphLockRelease (req : Req) (s : State) : Res := done s (writeSide req 0x50000 46 1 (writeLock req 1) s)

/-- LOCK_TIMEOUT (R327): queued jobs are kept. -/
def execLockTimeout (s : State) : Res :=
  if on s 46 && s.cph.held then done s (setCphEvent 0 (ev 0x0B0F (freeLock s))) else done s s

/-! ### Jobs (R329-R333) -/

def Job.w (j : Job) (n : Nat) : Word := nth j.words n 0

def Job.mode (j : Job) : Nat := fld (j.w 0) 63 60

def Job.slot (j : Job) : Nat := fld (j.w 0) 59 48

def Job.gen (j : Job) : Nat := fld (j.w 0) 47 32

def Job.payloadLen (j : Job) : Nat := fld (j.w 1) 16 0

def Job.aadLen (j : Job) : Nat := fld (j.w 1) 31 21

/-- The IV of a job: IV_HI, then IV_LO, most significant byte first (R329). -/
def Job.iv (j : Job) : List Byte := natBe 8 (j.w 6).toNat ++ natBe 4 (fld (j.w 1) 63 32)

def jobBad (j : Job) : Bool :=
  j.mode == 0 || 6 ≤ j.mode || fld (j.w 0) 14 0 != 0 || fld (j.w 1) 20 17 != 0
    || (4 ≤ j.mode && (fld (j.w 1) 63 32 != 0 || j.w 6 != 0))

def jobTooLong (j : Job) : Bool := 65536 < j.payloadLen || (if j.mode ≤ 2 then 1024 else 0) < j.aadLen

/-- The memory of a submitter's port can be reached (R327, R329). -/
def jobReach (s : State) (port : Nat) : Bool := if port = 1 then hostMem s else on s 3

/-- Bytes written to the memory of a submitter's port (R329). -/
def jobWrite (port addr : Nat) (b : List Byte) (s : State) : State :=
  if b.isEmpty || !jobReach s port then s
  else emit (if port = 1 then .hostWrite addr b else .sramWrite addr b) s

/-- The event of a STATUS (R335). -/
def jobEvent (st : Nat) : Option Nat :=
  if st = 1 then some 0x0B05 else if st = 2 then some 0x0B06 else if st = 3 then some 0x0B07
  else if st = 4 then some 0x0B08 else if st = 5 ∨ st = 6 ∨ st = 7 then some 0x0B09
  else if st = 8 then some 0x0B0A else if st = 9 then some 0x0B0B else none

/-- The completion record of a job (R333). -/
def jobRecord (s : State) (j : Job) (st gen n : Nat) : List Byte :=
  natLe 2 st ++ natLe 2 gen ++ natLe 2 (fld (j.w 0) 31 16) ++ natLe 1 j.port ++ [0] ++ natLe 4 n
    ++ natLe 4 ((now? s).getD 0 % 2 ^ 32)

/-- A job ends with a STATUS, the generation of the key it used and the bytes it wrote to DST (R331, R333). -/
def finishJob (j : Job) (st gen n : Nat) (s : State) : State :=
  let s1 := match jobEvent st with
    | some e => ev e (ev 0x0B04 s)
    | none => ev 0x0B04 s
  let s2 := jobWrite j.port (j.w 7).toNat (jobRecord s j st gen n) { s1 with cph := { s1.cph with jobsDone := s1.cph.jobsDone + 1 } }
  if bit (j.w 0) 15 && s.cph.vector != 0 && jobReach s j.port then raise s.cph.vector s2 else s2

/-- The lock's owner is lost: its queued jobs are discarded (R327). -/
def lockLost (port : Nat) (s : State) : State :=
  if s.cph.held && s.cph.owner == port then
    let mine := s.cph.queue.filter fun j => j.port == port
    let s1 := freeLock { s with cph := { s.cph with queue := s.cph.queue.filter fun j => j.port != port } }
    setCphEvent 1 (ev 0x0B10 (mine.foldl (fun t j => finishJob j 9 0 0 t) s1))
  else s

/-- A write by a requester that does not own the lock is dropped (R324). -/
def nonOwner (s : State) : State := setCphEvent 3 (ev 0x0B11 s)

/-- A write of CPH_SUBMIT (R329): the first three checks of R331 are made here. -/
def writeSubmit (req : Req) (v : Word) (t : State) : State :=
  if !ownsCph t req then nonOwner t
  else if !bit v 0 then t
  else if 16 ≤ t.cph.queue.length then setCphEvent 2 (ev 0x0B12 t)
  else
    let j : Job := { words := (List.range 8).map fun w => mget 0 t.cph.job w, port := reqNo req }
    if jobBad j then finishJob j 7 0 0 t
    else if jobTooLong j then finishJob j 3 0 0 t
    else if !hostSlot t j.slot then finishJob j 6 0 0 t
    else { t with cph := { t.cph with queue := t.cph.queue ++ [j] } }

/-- CPH_SUBMIT (R329). -/
def execCphSubmit (req : Req) (s : State) : Res := done s (writeSide req 0x50080 46 1 (writeSubmit req 1) s)

/-- The dispatch checks of a job (R331), and its key. -/
def dispatchJob (k : Nat) (j : Job) (s : State) : State :=
  let x := keySlot s j.slot
  if x.st ≠ .loaded then finishJob j 2 0 0 s
  else if j.gen ≠ 0 ∧ j.gen ≠ x.gen then finishJob j 4 0 0 s
  else if j.mode ≤ 5 ∧ x.usage.testBit (if j.mode ≤ 3 then j.mode - 1 else 3) = false then finishJob j 5 0 0 s
  else setCore k { work := .la j, slot := j.slot, gen := x.gen, key := x.key } s

/-- LA_JOB_DISPATCH (R316, R323): a core within the allowance takes a saved job, or the oldest queued one. -/
def execLaJobDispatch (core : Nat) (s : State) : Res :=
  -- a job already dispatched completes before PD46 leaves ON (R315, R327)
  let last := leaving s 46 && core < 4 && (core? s core).isNone
  if last || (cipherReady s && coreOn s core && (core? s core).isNone && laCores s < laAllowance s
      && inlineWaits s < idleCores s) then
    match s.cph.saved, s.cph.queue with
    | u :: r, _ => done s (setCore core u { s with cph := { s.cph with saved := r } })
    | [], j :: r => done s (dispatchJob core j { s with cph := { s.cph with queue := r } })
    | [], [] => done s s
  else done s s

/-- What a job computes: its STATUS, the bytes for DST and the bytes for TAG (R330, R332). -/
def jobResult (j : Job) (key : List Byte) (m : JobMem) : Nat × List Byte × List Byte :=
  let p := pad j.payloadLen m.payload
  let a := pad j.aadLen m.aad
  if j.mode = 1 then let r := gcmEncrypt key j.iv a p; (0, r.1, r.2)
  else if j.mode = 2 then
    match gcmDecrypt key j.iv a p (pad 16 m.tag) with
    | some pt => (0, pt, [])
    | none => (1, [], [])
  else if j.mode = 3 then (0, aesCtr key j.iv p, [])
  else if j.mode = 4 then (0, [], cmac key p)
  else if cmac key p = pad 16 m.tag then (0, [], [])
  else (1, [], [])

/-- LA_JOB_DONE (R333): the output, then the record, then the interrupt. -/
def execLaJobDone (core : Nat) (mem : JobMem) (s : State) : Res :=
  match core? s core with
  | some u =>
    match u.work with
    | .la j =>
      let s1 := freeCore core s
      if !mem.readOk || !mem.writeOk || !jobReach s j.port then done s (finishJob j 8 u.gen 0 s1)
      else
        let (st, out, tag) := jobResult j u.key mem
        done s (finishJob j st u.gen out.length
          (jobWrite j.port (j.w 5).toNat tag (jobWrite j.port (j.w 3).toNat out s1)))
    | .inline _ _ _ => done s s
  | none => done s s

/-! ### The key store (R315, R321, R322) -/

/-- KEY_ERASE_DONE (R322): the last user of a draining slot has completed. -/
def execKeyEraseDone (slot : Nat) (s : State) : Res :=
  if (keySlot s slot).st = .draining ∧ keyInUse s slot = false then done s (finishErase slot s) else done s s

/-- KEY_STORE_INIT (R315): every slot is zeroised, its generation 1. -/
def execKeyStoreInit (s : State) : Res :=
  if on s 46 && !s.cph.inited then done s { s with cph := { s.cph with slots := [], inited := true } } else done s s

/-! ### Group 0x0B (R437) -/

/-- KEY_LOAD (R321): firmware uses ZERO to clear the channel before the acknowledgement (R402). -/
def cmdKeyLoad : IfCmd where
  opcode := 0x0B01
  len := lenIs 6
  domains := fun _ => [46]
  ready := fun s _ => s.cph.inited
  range := fun _ ws => onlyBits (arg ws 1) 0xF0FFF
  check := fun s ws =>
    let n := fld (arg ws 1) 11 0
    if !hostSlot s n then some (0x8005, none)
    else if (keySlot s n).st = .draining then some (0x8003, none)
    else none
  effect := fun ch ws s =>
    let n := fld (arg ws 1) 11 0
    let s1 := loadKey n (fld (arg ws 1) 19 16) (wordsBytes ((List.range 4).map fun k => arg ws (2 + k))) s
    (setChan ch { chan s1 ch with words := [] } s1, .done)

def execKeyLoad (ch : Nat) (s : State) : Res := done s (runIf cmdKeyLoad ch s)

/-- KEY_ERASE (R322): DONE at once for an EMPTY slot. -/
def cmdKeyErase : IfCmd where
  opcode := 0x0B02
  len := lenIs 2
  domains := fun _ => [46]
  ready := fun s _ => s.cph.inited
  range := fun _ ws => onlyBits (arg ws 1) 0xFFF
  check := fun s ws =>
    let n := fld (arg ws 1) 11 0
    if !hostSlot s n then some (0x8005, none)
    else if (keySlot s n).st = .draining then some (0x8003, none)
    else none
  effect := fun _ ws s =>
    let n := fld (arg ws 1) 11 0
    if (keySlot s n).st = .loaded then
      (setKeySlot n { keySlot s n with st := .draining } s, .pend (.keyErase n))
    else (s, .done)

def execKeyErase (ch : Nat) (s : State) : Res := done s (runIf cmdKeyErase ch s)

def keyStCode : KeySt → Nat
  | .empty => 0
  | .loaded => 1
  | .draining => 2

/-- KEY_READ (R437). -/
def cmdKeyRead : IfCmd where
  opcode := 0x0B03
  len := lenIs 2
  domains := fun _ => [46]
  ready := fun s _ => s.cph.inited
  range := fun _ ws => onlyBits (arg ws 1) 0xFFF
  effect := fun _ ws s =>
    let x := keySlot s (fld (arg ws 1) 11 0)
    (s, .data [word (keyStCode x.st + at' x.gen 16 + at' x.usage 32)])

def execKeyRead (ch : Nat) (s : State) : Res := done s (runIf cmdKeyRead ch s)

/-- LINE_SLOTS (R319): an even value; no loaded look-aside slot may move into the line range, and no pair of line keys may
be left outside it. -/
def cmdLineSlots : IfCmd where
  opcode := 0x0B04
  len := lenIs 2
  domains := fun _ => [46]
  ready := fun s _ => s.cph.inited
  range := fun _ ws => onlyBits (arg ws 1) 0x1FFF && fld (arg ws 1) 12 0 ≤ 4032 && fld (arg ws 1) 12 0 % 2 == 0
  check := fun s ws =>
    let first := 4032 - fld (arg ws 1) 12 0
    if s.pf.st ≠ .pf0 ∧ s.pf.st ≠ .pf1 ∧ s.pf.st ≠ .pf7 then some (0x8005, none)
    else if (s.cph.slots.any fun e => first ≤ e.1 && e.1 < lineFirst s && e.2.st != .empty)
        || (s.cph.pairs.any fun e => e.2 < first) then some (0x8007, none)
    else none
  effect := fun _ ws s => ({ s with cph := { s.cph with lineSlots := fld (arg ws 1) 12 0 } }, .done)

def execLineSlots (ch : Nat) (s : State) : Res := done s (runIf cmdLineSlots ch s)

end Sys2Proof.Machine
end

