-- ==== Sys2Proof/Machine/PerfOps.lean ====
section
/-! DEFINITION. Defects of the section and the circuits, and the blocks that performance counts (R147-R150). -/

namespace Sys2Proof.Machine

/-! ### Defects (R147, R148, R150) -/

/-- The downstream section defect (R147). -/
def sectionDefect (s : State) : Bool := s.line.los || s.cir.lof

/-- Any downstream path defect of a circuit (R148). -/
def circuitDefect (s : State) (c : Nat) : Bool :=
  sectionDefect s || (circ s c).lof || (circ s c).ais || (circ s c).abort

/-- The near-end defect of an entity (R150). -/
def entityDefect (s : State) (e : Nat) : Bool := if e / 4096 = 1 then circuitDefect s (e % 4096) else sectionDefect s

/-- The far-end defect of an entity: path RDI (R150). -/
def entityFarDefect (s : State) (e : Nat) : Bool := e / 4096 == 1 && (circ s (e % 4096)).rdi

/-- DS declared for an entity (R149, R153). -/
def entityDs (s : State) (e : Nat) : Bool :=
  if e = 0 then s.cir.ds.declared else e / 4096 == 1 && (circ s (e % 4096)).ds.declared

/-- One entity's present defects reach its second and the taps (R150, R339). -/
def markDefect (s : State) (e : Nat) : State :=
  let near := entityDefect s e
  let x := perf s e
  let s1 := setPerf e { x with defect := x.defect || near, feDefect := x.feDefect || entityFarDefect s e } s
  if near then tapAdd e (fun a => { a with defect := true }) s1 else s1

def markDefects (s : State) : State := entities.foldl markDefect s

/-- A declaration or a clearing of a defect, by the codes of R424, is counted and reported (R148). -/
def reportDefect (declared : Bool) (entity code : Nat) (s : State) : State :=
  evReport (if declared then 0x0414 else 0x0415) [word (entity + at' code 16)] s

/-- The section LOF is declared or cleared (R147). -/
def setLof (b : Bool) (s : State) : State :=
  if s.cir.lof = b then { s with cir := { s.cir with lofGood := 0 } }
  else
    let s1 := reportDefect b 0 1 { s with cir := { s.cir with lof := b, lofGood := 0 } }
    if b then markDefects (markLineFault { s1 with up := { s1.up with rdi := true } }) else s1

/-- The LOS is declared or cleared (R36, R147). -/
def setLos (b : Bool) (s : State) : State :=
  let s1 := reportDefect b 0 0 (ev (if b then 0x0101 else 0x0102) { s with line := { s.line with los := b } })
  if b then markDefects (markLineFault { s1 with up := { s1.up with rdi := true } }) else s1

/-- One defect of a circuit changes to `b`: `f` writes it. -/
def setPathDefect (c code : Nat) (was b : Bool) (f : Circuit → Circuit) (s : State) : State :=
  if was = b then s
  else
    let s1 := reportDefect b (objCircuit c) code (setCirc c (f (circ s c)) s)
    if b then markDefect s1 (objCircuit c) else s1

/-- A circuit enters or leaves the page-switch abort defect (R145, R147). -/
def setAbort (c : Nat) (b : Bool) (s : State) : State :=
  setPathDefect c 6 (circ s c).abort b (fun x => { x with abort := b }) s

/-! ### Blocks (R150) -/

/-- A block of an entity ends: errored or not at the near end, at the far end. -/
def perfBlock (e : Nat) (bad farBad : Bool) (s : State) : State :=
  let x := perf s e
  let s1 := setPerf e { x with
    blocks := x.blocks + 1, errored := x.errored + b2n bad, feErrored := x.feErrored + b2n farBad } s
  if bad then tapAdd e (fun a => { a with errored := true }) s1 else s1

/-- The stream holds a grant in an upstream frame: a block of it, errored when a promise was broken since the last. -/
def gsBlock (frame g : Nat) (s : State) : State :=
  let k := grantKey frame g
  if (mfind s.up.blocks k).isSome then s
  else
    let x := perf s (objStream g)
    let s1 := setPerf (objStream g) { x with broken := false } { s with up := { s.up with
      blocks := minsert s.up.blocks k x.broken } }
    perfBlock (objStream g) x.broken false s1

/-- The block of a stream in an upstream frame is errored. -/
def gsErrored (frame g : Nat) (s : State) : State :=
  let k := grantKey frame g
  let s1 := gsBlock frame g s
  if mfind s1.up.blocks k = some true then s1
  else
    let x := perf s1 (objStream g)
    tapAdd (objStream g) (fun a => { a with errored := true })
      (setPerf (objStream g) { x with errored := x.errored + 1 } { s1 with up := { s1.up with
        blocks := minsert s1.up.blocks k true } })

/-- A promise of the stream broken in an upstream frame that holds a block of it. -/
def gsSettle (frame g : Nat) (s : State) : State :=
  if (perf s (objStream g)).broken && (mfind s.up.blocks (grantKey frame g)).isSome then
    gsErrored frame g (setPerf (objStream g) { perf s (objStream g) with broken := false } s)
  else s

end Sys2Proof.Machine
end

