-- ==== Sys2Proof/Machine/PfOps.lean ====
section
/-! DEFINITION. Changes of the proofing state with everything they entail (R102, R104, R131), upstream messages (R114), and
what the loss of the line's signals brings about (R22, R23, R46, R73). -/

namespace Sys2Proof.Machine

/-! ### Upstream messages (R111, R114) -/

def pfNo : PfSt → Nat
  | .pf0 => 0
  | .pf1 => 1
  | .pf2 => 2
  | .pf3 => 3
  | .pf4 => 4
  | .pf5 => 5
  | .pf6 => 6
  | .pf7 => 7

/-- A message is queued; over eight, the oldest ACK is dropped, or the message itself (R114). -/
def queueMsg (type : Nat) (payload : List Byte) (s : State) : State :=
  let m : UpMsg := { type := type, seq := s.pf.upSeq % 256, payload := pad 44 payload }
  let put (q : List UpMsg) (t : State) : State :=
    { t with pf := { t.pf with upQ := q ++ [m], upSeq := (t.pf.upSeq + 1) % 256 } }
  if s.pf.upQ.length < 8 then put s.pf.upQ s
  else match s.pf.upQ.find? (·.type == 0x87) with
    | some a => put (s.pf.upQ.erase a) (ev 0x0329 s)
    | none => ev 0x0329 s

/-! ### Circuits emptied (R131) -/

/-- Both pages empty, page 0 active, no arming; the frames in the circuit queues are discarded, each counted (R131). -/
def flushCircuits (s : State) : State :=
  let held := s.cir.circuits.flatMap fun e => e.2.ingress ++ e.2.egressQ ++ e.2.done.map (·.2)
  let s1 := { s with cir := { s.cir with
    slices := [], active := 0, announce := none, moduleArmed := false, commit := none, switchAt := none, refuseUntil := none, abortAt := none
    relOrder := []
    circuits := mapTab circuitReset (fun c => { c with ingress := [], egressQ := [], done := [], txRest := [], taken := [], seen := none })
      s.cir.circuits } }
  discardFrames held false (count 0x0413 0 held.length s1)

/-- Every circuit leaves the page-switch abort defect: the module leaves PF5 (R147). -/
def clearAborts (s : State) : State := (s.cir.circuits.map (·.1)).foldl (fun t c => setAbort c false t) s

/-! ### Leaving PF5 (R236, R253, R289, R140) -/

/-- Every timed frame held for a grant stream is discarded (R253). -/
def expireTimed (s : State) : State :=
  let mine (e : Nat × Queue) : Bool := e.2.cls == .timed && portOf s e.1 < 64
  let gone := (s.sch.queues.filter mine).flatMap (·.2.frames)
  discardFrames gone false { s with sch := { s.sch with
    queues := (s.sch.queues.map fun e => if mine e then (e.1, { e.2 with frames := [] }) else e).filter fun e =>
      decide (e.2 ≠ queueReset) } }

/-- The frames that end in a burst are lost with it. -/
def loseBurst (b : Burst) (s : State) : State := discardFrames (b.items.filterMap (·.frame)) false s

/-- A burst built is not sent: its grant is skipped, its frames lost, and what its header had taken of REI and RDI is
reported later (R50, R97). -/
def skipBurst (b : Burst) (s : State) : State :=
  let s1 := gsErrored b.grant.frame b.grant.gs (ev 0x0205 (loseBurst b s))
  { s1 with up := { s1.up with rei := min 0xFFFF (s1.up.rei + b.rei), rdi := s1.up.rdi || b.rdi } }

/-- The bursts built and not on the air are lost: their grants are skipped. -/
def loseBuilt (s : State) : State :=
  s.up.built.foldl (fun t b => skipBurst b t)
    { s with up := { s.up with built := [] } }

/-- The module leaves PF5; `fault` where for loss of sync, a rogue cut or the line-stop command (R254). -/
def leavePf5 (fault : Bool) (s : State) : State :=
  let s1 := if fault then markLineFault s else s
  let s2 := loseBuilt (expireTimed s1)
  let s3 := removeTag (controlTag s2) s2
  clearAborts (lapseContracts { s3 with
    up := { s3.up with control := [] }
    tmu := { s3.tmu with disc := { s3.tmu.disc with params := none } } })

/-- The registration ends: ID, EqD and every session and line key are discarded, with the fragments and messages under
them (R102, R104). -/
def endRegistration (s : State) : State :=
  let s1 := eraseEpochKeys true (eraseEpochKeys false (eraseKey slotSess (eraseKey slotAuth s)))
  let open' := s1.up.frags.map fun e => e.2.packet
  discardFrames open' false { s1 with
    ke := keReset
    up := { s1.up with frags := [] }
    pf := { s1.pf with tid := 0, eqd := 0, nH := [], nT := [], responded := false, upQ := [] } }

/-! ### A change of state (R102, R104) -/

/-- The state holds no terminal ID (R102). -/
def pfUnregistered (x : PfSt) : Bool := x == .pf0 || x == .pf1 || x == .pf2 || x == .pf7

/-- The proofing state changes: what R102 does not let the new state hold is discarded, the change is counted and
reported. -/
def pfGo (new : PfSt) (fault : Bool) (s : State) : State :=
  let old := s.pf.st
  if old = new then s
  else
    let s1 := if old = .pf5 then leavePf5 fault s else s
    let s2 := if pfUnregistered new then endRegistration s1 else s1
    let s3 := if new = .pf0 ∨ new = .pf7 then
        { s2 with pf := { s2.pf with profiles := [], preEqd := 0, backoffMax := 7 } }
      else s2
    let s4 := { s3 with pf := { s3.pf with
      st := new, rejecting := false, tRange := false, tAuth := false, tReject := false, tLoss := false } }
    let s5 := evReport 0x0319 [word (pfNo new + at' (pfNo old) 3 + at' s4.pf.tid 8)] s4
    if new = .pf5 then writeTag (controlTag s5) (word (at' (controlTag s5) 44 + at' 0x1E 39 + at' 1 38)) s5
    else if new = .pf7 then
      evReport 0x032A [] (saveStore (fun x => { x with emergency := true }) (flushCircuits s5))
    else if new = .pf0 then finishWait .lineStop 0 [] (flushCircuits { s5 with pf := { s5.pf with stopping := false } })
    else if new = .pf1 then flushCircuits s5
    else s5

/-- Firmware runs the proofing state machine (R104, R475). -/
def pfRuns (s : State) : Bool := fwWorks s && s.pf.started

/-- The state follows LINE_SYNC and the rogue latch at once (R104). -/
def pfFollow (s : State) : State :=
  if !pfRuns s then s
  else
    let s1 := if s.line.rogueCut then
        match s.pf.st with
        | .pf2 | .pf3 | .pf4 | .pf5 | .pf6 => pfGo .pf0 true s
        | _ => s
      else s
    let s2 := if pfSync s1 then
        (if s1.pf.st = .pf6 then pfGo .pf5 false s1 else s1)
      else match s1.pf.st with
        | .pf1 | .pf2 | .pf3 | .pf4 => pfGo .pf0 true s1
        | .pf5 => let t := pfGo .pf6 true s1; { t with pf := { t.pf with tLoss := true } }
        | _ => s1
    if s2.pf.st = .pf0 ∧ pfSync s2 ∧ s2.pf.held = false then pfGo .pf1 false s2 else s2

/-! ### Losses (R22, R23, R46, R73) -/

/-- The burst on the air is cut short: its frames are lost, laser enable released (R23, R49, R50, R51). -/
def cutBurst (event : Nat) (terminator : Bool) (s : State) : State :=
  match s.up.onAir with
  | some b => gsErrored b.grant.frame b.grant.gs (loseBurst b (emit (.burstCut terminator) (ev event { s with
      up := { s.up with onAir := none }, line := { s.line with laserOn := false } })))
  | none => s

/-- The root leaves the recovered clock (R22, R23, R287). -/
def rootLost (s : State) : State :=
  if s.line.rootLocked then
    timeRootLost (cutBurst 0x0204 true { s with line := { s.line with rootLocked := false } })
  else s

/-- LINE_SYNC clears, or LOOP_SYNC (R73): the hunt restarts with an empty list. -/
def syncLost (s : State) : State :=
  let s1 := { s with frm := { s.frm with
    lineSync := false, cands := [], misses := 0, haveFrame := false, delineated := false, firstHdr := false, units := 0 } }
  if s.frm.lineSync && s.line.loop.isNone then pfFollow (setLof true s1) else s1

/-- LINE_RX clears, or LOOP_RX: sync and the root go with it (R22, R46, R73). -/
def rxLost (s : State) : State :=
  rootLost (syncLost { s with line := { s.line with lineRx := false, blockLock := false } })

/-- Block lock belongs to the receiver of the loop; it is lost with it. -/
def fomLow (s : State) : Bool := s.line.fom < 56

/-- The release of the rogue latch (R124). -/
def releaseRogue (s : State) : State :=
  finishWait .rogueRelease 0 [] (ev 0x032B { s with line := { s.line with rogueCut := false, recalSinceCut := false
                                                                          hostRelease := false } })

/-- The first two conditions of R124: PF0 or PF1, and 1 s of the always-on counter since the cut. -/
def rogueWaited (s : State) : Bool :=
  (s.pf.st == .pf0 || s.pf.st == .pf1) &&
    match s.line.cuts with
    | c :: _ => 2441407 ≤ (s.pwr.aon - c).toNat
    | [] => true

end Sys2Proof.Machine
end

