-- ==== Sys2Proof/Machine/Intake.lean ====
section
/-! DEFINITION. A frame as it enters the module: the packet made of it, its tags, and its checksums (R161, R265, R268,
R269). -/

namespace Sys2Proof.Machine

/-! ### Tags and types (R265, R274) -/

/-- A TPID that opens an outer tag (R265). -/
def isTag (t : Nat) : Bool := t == 0x8100 || t == 0x88A8

/-- The frame has an outer tag. -/
def tagged (b : List Byte) : Bool := isTag (be b 12 2)

/-- Where the EtherType stands after up to two tags (R265). -/
def typeOff (b : List Byte) : Nat := if tagged b then (if isTag (be b 16 2) then 20 else 16) else 12

def etherType (b : List Byte) : Nat := be b (typeOff b) 2

def outerVid (b : List Byte) : Nat := be b 14 2 % 4096

/-- The outer PCP, 0 for an untagged frame (R274). -/
def outerPcp (b : List Byte) : Nat := if tagged b then be b 14 2 / 8192 else 0

/-- A packet as it enters the module from a source (R161, R298). -/
def newPacket (kind : Kind) (index : Nat) (bytes : List Byte) (arrival frac : Nat) : Packet :=
  { bytes := bytes, kind := kind, firstKind := kind, index := index, arrival := arrival, arrivalFrac := frac
    version := none, key := List.replicate 5 0
    facts := { l3off := 0, l4off := 0, l4kind := 0, prio := 0, user := 0, carry := 0 }
    pflags := 0, reason := 0, csumL3 := 0, csumL4 := 0, ctx := none, queue := none, cls := .bestEffort, yellow := false
    tx := none, filter := none, delivery := .queue, circuit := none, quadrant := 0, deadline := none, promise := none
    lookahead := false, stepped := false, timeJump := false, causes := { localPower := false, lineFault := false }
    pcp := outerPcp bytes, corrupt := false }

/-! ### Internet checksums (R268, R269) -/

/-- The sum of the 16-bit words of a sequence, an odd last byte taken as the upper one. -/
def sum16 : List Byte → Nat
  | [] => 0
  | [b] => b.toNat * 256
  | b :: c :: r => b.toNat * 256 + c.toNat + sum16 r

/-- The end-around carries folded in. -/
def fold16 (n : Nat) : Nat := if n = 0 then 0 else (n - 1) % 65535 + 1

/-- The header of a frame that the MAC recognises (R268): version 6, its offset and length, the length of what follows,
the protocol, a fragment. -/
structure IpInfo where
  v6 : Bool
  off : Nat
  hlen : Nat
  l4len : Nat
  proto : Nat
  frag : Bool
  deriving DecidableEq, Repr

/-- IPv4 with an IHL of 5 to 15, or IPv6 (R268). -/
def ipInfo (b : List Byte) : Option IpInfo :=
  let o := typeOff b + 2
  let first := be b o 1
  if etherType b = 0x0800 then
    let hlen := first % 16 * 4
    let total := be b (o + 2) 2
    if first / 16 = 4 ∧ 20 ≤ hlen ∧ o + hlen ≤ b.length then
      some { v6 := false, off := o, hlen := hlen, l4len := total - hlen, proto := be b (o + 9) 1
             frag := be b (o + 6) 2 % 16384 != 0 }
    else none
  else if etherType b = 0x86DD then
    if first / 16 = 6 ∧ o + 40 ≤ b.length then
      some { v6 := true, off := o, hlen := 40, l4len := be b (o + 4) 2, proto := be b (o + 6) 1, frag := false }
    else none
  else none

/-- The sum of the pseudo-header of a segment of `len` bytes (R269). -/
def pseudoSum (b : List Byte) (i : IpInfo) (len : Nat) : Nat :=
  (if i.v6 then sum16 (slice b (i.off + 8) 32) else sum16 (slice b (i.off + 12) 8)) + i.proto + len

/-- The L3 result (R268): 0 NOT_CHECKED, 1 GOOD, 2 BAD. -/
def csumL3Of (b : List Byte) : Nat :=
  match ipInfo b with
  | some i => if i.v6 then 0 else if fold16 (sum16 (slice b i.off i.hlen)) = 0xFFFF then 1 else 2
  | none => 0

/-- The L4 result (R268): also 3 NONE for UDP over IPv4 with checksum zero. A segment that does not lie whole in the frame
is not recognised. -/
def csumL4Of (b : List Byte) : Nat :=
  match ipInfo b with
  | some i =>
    let o := i.off + i.hlen
    let least := if i.proto = 6 then 20 else 8
    if i.frag || (i.proto != 6 && i.proto != 17) || i.l4len < least || b.length < o + i.l4len then 0
    else if i.proto = 17 ∧ i.v6 = false ∧ be b (o + 6) 2 = 0 then 3
    else if fold16 (pseudoSum b i i.l4len + sum16 (slice b o i.l4len)) = 0xFFFF then 1
    else 2
  | none => 0

/-- Two bytes of a frame rewritten, most significant first. -/
def put16 (b : List Byte) (off n : Nat) : List Byte := b.take off ++ natBe 2 n ++ b.drop (off + 2)

end Sys2Proof.Machine
end

