-- ==== Sys2Proof/Machine/Ports.lean ====
section
/-! DEFINITION. Client Ethernet ports: links, frames, filters, pause, the equaliser read and the lane tests, and their
commands (R53-R63, R259-R280, R435). -/

namespace Sys2Proof.Machine

/-! ### Links (R262, R278, R279) -/

/-- A bit of CPn_EVENTS is set; each setting raises vector 0 (R279). -/
def setCpEvent (n b : Nat) (s : State) : State :=
  let c := cport s n
  raise 0 (setCport n { c with events := c.events ||| BitVec.ofNat 64 (2 ^ b) } s)

/-- No pause is asserted toward a partner that is gone. -/
def dropXoff (m : Map PauseSt) : Map PauseSt :=
  (List.range 8).foldl (fun t k => mput pauseReset t k { mget pauseReset t k with xoff := false }) m

/-- CLIENTn clears (R262): counted and marked, the frames selected for the port discarded, the cause of row 3 of R254 noted
on the port's accepted frames. -/
def portDown (n : Nat) (s : State) : State :=
  let c := cport s n
  if c.up then
    let s1 := setCport n { c with up := false, pauses := dropXoff c.pauses, tx := [] } s
    let s2 := setCpEvent n 0 (count 0x0905 n 1 s1)
    let s3 := markCauses (· == 64 + n) (fun x => { x with lineFault := true }) s2
    followTags (c.tx.foldl (fun t p => discardLine p (downDiscard n t)) s3)
  else s

/-- Every port's link clears. -/
def allPortsDown (s : State) : State := (List.range 4).foldl (fun t n => portDown n t) s

/-- The port that holds a lane in the port mode (R259). -/
def portOfLane (s : State) (k : Nat) : Option Nat := (List.range 4).find? fun n => (portLanes s n).contains k

/-- The port of a lane loses its link (R58, R435). -/
def laneDown (k : Nat) (s : State) : State :=
  match portOfLane s k with
  | some n => portDown n s
  | none => s

/-- No loopback and no pattern generator holds the lane (R58, R435). -/
def laneFree (x : Lane) : Bool := x.loop == 0 && x.prbs.gen == 0

/-- The conditions of R262 that the module holds itself. -/
def mayLink (s : State) (n : Nat) : Bool :=
  !(portLanes s n).isEmpty && on s 18 && s.pwr.vio && s.line.eqReady &&
    (portLanes s n).all fun k => on s (14 + k) && laneFree (lane s k)

/-- LINK_UP (R262): the PCS has found lock and no fault for 1 ms; CLIENTn is set when the other conditions hold. -/
def execLinkUp (port : Nat) (s : State) : Res :=
  let c := cport s port
  if mayLink s port && !c.up then
    done s (followTags (count 0x0904 port 1 (setCport port { c with
      up := true, amLock := true, hiSer := false, localFault := false, remoteFault := false } s)))
  else done s s

/-- LINK_DOWN (R262): the conditions lost are shown, and CLIENTn clears. -/
def execLinkDown (port : Nat) (cause : LinkCause) (s : State) : Res :=
  if !(portLanes s port).isEmpty && on s 18 then
    let c := cport s port
    let s1 := setCport port { c with
      localFault := cause.localFault, remoteFault := cause.remoteFault, hiSer := cause.hiSer
      amLock := c.amLock && !cause.amLockLost } s
    let s2 := if cause.localFault then setCpEvent port 1 s1 else s1
    let s3 := if cause.remoteFault then setCpEvent port 2 s2 else s2
    let s4 := if cause.hiSer then setCpEvent port 3 s3 else s3
    let lost := cause.localFault || cause.remoteFault || cause.hiSer || cause.amLockLost
    done s (if lost then portDown port s4 else s4)
  else done s s

/-! ### Pause received (R271, R273) -/

/-- A received pause restarts a class's timer, quanta 0 ends the pause and the ignoring of it. -/
def pauseClassTakes (n prio quanta : Nat) (s : State) : State :=
  let c := cport s n
  let x := pauseReset' c prio
  let y := if quanta = 0 then { x with timer := false, ignoring := false }
    else if x.ignoring then x else { x with timer := true }
  setCport n { c with pauses := mput pauseReset c.pauses prio y } s

/-- The receiver is on and the link is up. -/
def receives (s : State) (n : Nat) : Bool := on s 18 && (cport s n).up

/-- A MAC Control frame that is not acted on is discarded and counted (R263). -/
def controlDiscard (n : Nat) (s : State) : State := setCpEvent n 7 (count 0x0909 n 1 s)

/-- A PAUSE frame arrives (R271). -/
def takePause (n quanta : Nat) (s : State) : State :=
  if !receives s n then s
  else if (cport s n).flow = 1 then followTags (count 0x090B n 1 (pauseClassTakes n 0 quanta s))
  else controlDiscard n s

/-- A PFC frame arrives (R271). -/
def takePfc (n : Nat) (enables : BitVec 8) (quanta : List Nat) (s : State) : State :=
  if !receives s n then s
  else if (cport s n).flow = 2 then
    followTags (count 0x090B n 1 ((List.range 8).foldl (fun t k =>
      if enables.getLsbD k then pauseClassTakes n k (nth quanta k 0) t else t) s))
  else controlDiscard n s

/-- PAUSE_FRAME_RECEIVED (R271). -/
def execPauseFrameReceived (port quanta : Nat) (s : State) : Res := done s (takePause port quanta s)

/-- PFC_FRAME_RECEIVED (R271). -/
def execPfcFrameReceived (port : Nat) (enables : BitVec 8) (quanta : List Nat) (s : State) : Res :=
  done s (takePfc port enables quanta s)

/-- PAUSE_TIMER_EXPIRY (R271): the class is served again. -/
def execPauseTimerExpiry (port prio : Nat) (s : State) : Res :=
  let c := cport s port
  done s (followTags (setCport port { c with
    pauses := mput pauseReset c.pauses prio { pauseReset' c prio with timer := false } } s))

/-- PAUSE_WATCHDOG (R273): the pause is ignored from now on. -/
def execPauseWatchdog (port prio : Nat) (s : State) : Res :=
  let c := cport s port
  let x := pauseReset' c prio
  if on s 18 && c.flow != 0 && x.timer && !x.ignoring then
    let s1 := setCport port { c with pauses := mput pauseReset c.pauses prio { x with timer := false, ignoring := true } } s
    let s2 := setCpEvent port 5 (count 0x090D port 1 s1)
    done s (followTags (event 0x090D [word (port + at' prio 8)] s2))
  else done s s

/-- WATCHDOG_END (R273): 1 s after the watchdog fired the port obeys pause again. -/
def execWatchdogEnd (port prio : Nat) (s : State) : Res :=
  let c := cport s port
  done s (setCport port { c with
    pauses := mput pauseReset c.pauses prio { pauseReset' c prio with ignoring := false } } s)

/-- PAUSE_REFRESH (R274): quanta 0xFFFF again while the count stays above XON_CELLS. -/
def execPauseRefresh (port prio : Nat) (s : State) : Res :=
  let c := cport s port
  if c.up && (pauseReset' c prio).xoff && c.xon < pauseCells s port c prio then done s (sendPause port prio 0xFFFF s)
  else done s s

/-! ### Frames received (R263-R268) -/

/-- A field of a filter matches, or is not enabled (R265). -/
def filterHits (w : Word) (n : Nat) (b : List Byte) : Bool :=
  bit w 63 && bit w (59 + n) && (!bit w 58 || (tagged b && outerVid b == fld w 57 46))
    && (!bit w 45 || (tagged b && outerPcp b == fld w 44 42)) && (!bit w 41 || etherType b == fld w 40 25)

/-- The filter that decides a frame: the lowest valid one that matches (R266). -/
def filterOf (s : State) (n : Nat) (b : List Byte) : Option (Nat × Word) :=
  s.prt.filters.find? fun e => filterHits e.2 n b

/-- A frame that passed R263 goes where its filter says (R266). -/
def steer (n : Nat) (p : Packet) (s : State) : State :=
  match filterOf s n p.bytes with
  | none => offerParse 0x09 0 n p s
  | some (i, w) =>
    let q := { p with filter := some i, delivery := .filter }
    let t := fld w 17 0
    if fld w 24 23 = 0 then offerParse 0x09 0 n p s
    else if fld w 24 23 = 3 then count 0x0910 n 1 s
    else if !schedReady s then offDomainDiscard 0x09 0 n 1 s
    else if fld w 24 23 = 1 then
      { s with sch := { s.sch with inClient := s.sch.inClient ++ [{ q with queue := some t, cls := (queue s t).cls }] } }
    else if on s 5 then followTags (toDelivery (t % 2048) q s).1
    else offDomainDiscard 0x09 0 n 1 s

/-- A discard under R263: counted, and RX_DISCARD set. -/
def rxDiscard (evn n : Nat) (s : State) : State := setCpEvent n 7 (count evn n 1 s)

/-- A frame in an uncorrectable codeword (R263, R277). -/
def fecLost (n : Nat) (s : State) : State :=
  let c := cport s n
  setCpEvent n 4 (rxDiscard 0x090A n (setCport n { c with fecBad := min (c.fecBad + 1) (2 ^ 64 - 1) } s))

/-- A MAC Control frame is acted on or discarded (R263). -/
def takeControl (n : Nat) (b : List Byte) (s : State) : State :=
  let op := be b 14 2
  if op = 0x0001 then takePause n (be b 16 2) s
  else if op = 0x0101 then
    takePfc n (BitVec.ofNat 8 (be b 17 1)) ((List.range 8).map fun k => be b (18 + 2 * k) 2) s
  else controlDiscard n s

/-- CLIENT_FRAME_RECEIVED (R263): `frame` is the frame with its FCS. -/
def execClientFrameReceived (port : Nat) (frame : List Byte) (fecOk : Bool) (stamp : StampIn) (s : State) : Res :=
  if !receives s port then done s s
  else
    let body := frame.take (frame.length - 4)
    if !fecOk then done s (fecLost port s)
    else if frame.length < 64 then done s (rxDiscard 0x0907 port s)
    else if (cport s port).maxFrame < frame.length then done s (rxDiscard 0x0908 port s)
    else if frame.drop (frame.length - 4) ≠ fcs body then done s (rxDiscard 0x0906 port s)
    else if be body 12 2 = 0x8808 then done s (takeControl port body s)
    else
      let p : Packet := { newPacket .client port body stamp.ns stamp.frac with csumL3 := csumL3Of body, csumL4 := csumL4Of body }
      let s1 := if p.csumL3 = 2 ∨ p.csumL4 = 2 then count 0x0911 port 1 s else s
      done s (steer port p s1)

/-! ### Frames sent (R252, R264, R275, R301) -/

/-- A frame as the MAC sends it, without its FCS: at least 60 bytes (R264). -/
def padded (b : List Byte) : List Byte := b ++ List.replicate (60 - b.length) 0

/-- The FCS a frame leaves with, inverted where its data is known to be wrong (R27, R275). -/
def sentFrame (b : List Byte) (bad : Bool) : List Byte :=
  padded b ++ (if bad then (fcs (padded b)).map (~~~·) else fcs (padded b))

/-- The time of the first bit of the destination address of a frame whose last FCS bit passed at a stamp (R252, R296). -/
def firstBit (s : State) (len : Nat) (st : StampIn) : StampIn :=
  let t := st.ns * 2 ^ 32 + st.frac - len * 1000 * 2 ^ 32 / modeRate s.prt.mode
  { ns := t / 2 ^ 32, frac := t % 2 ^ 32 }

/-- The transmit stamp that a host descriptor asked for, on the last segment of a segmented send (R301). -/
def txStamp (n : Nat) (p : Packet) (st : StampIn) (s : State) : State :=
  match p.tx with
  | some t => if t.stamp && (!t.segmented || t.segIndex + 1 == t.segCount) then pushStamp n t.stampTag 0 st s else s
  | none => s

/-- A frame's last bit passes a client port's transmit point at a stamp. -/
def sendClient (n : Nat) (p : Packet) (st : StampIn) (bad : Bool) (s : State) : State :=
  let b := sentFrame p.bytes bad
  framePasses p (64 + n) st.ns (txStamp n p (firstBit s b.length st) (emit (.clientFrame n b bad) s))

/-- CLIENT_FRAME_TRANSMITTED (R252): the stamp is that of the last FCS bit. -/
def execClientFrameTransmitted (port : Nat) (stamp : StampIn) (s : State) : Res :=
  let c := cport s port
  match c.tx with
  | [] => done s s
  | p :: r => done s (sendClient port p stamp p.corrupt (setCport port { c with tx := r } s))

/-- CT_THRESHOLD of a transmit ring in bytes (R275, R377). -/
def ctBytes (r : Ring) : Nat := fld r.ctrl 30 24 * 256

/-- A ring's threshold rises by 512 bytes, up to 16,384 (R275). -/
def raiseThreshold (ring : Nat) (s : State) : State :=
  let r := txRing s ring
  let new := min 64 (fld r.ctrl 30 24 + 2)
  setTx ring { r with ctrl := (r.ctrl &&& ~~~(word (at' 127 24))) ||| word (at' new 24) } s

/-- TX_UNDERRUN (R275): the head frame, when it is one that is sent cut-through. -/
def execTxUnderrun (port : Nat) (s : State) : Res :=
  let c := cport s port
  match c.tx with
  | [] => done s s
  | p :: r =>
    match p.tx with
    | none => done s s
    | some t =>
      if p.cls != .timed && ctBytes (txRing s t.ring) < p.bytes.length then
        let s1 := setCpEvent port 6 (count 0x090E port 1 (setCport port { c with tx := r } s))
        done s (sendClient port p { ns := s.tmu.ns, frac := s.tmu.frac } true (raiseThreshold t.ring s1))
      else done s s

/-! ### The equaliser table (R60-R63) -/

/-- A read of the table begins (R60). -/
def startEqRead (s : State) : State :=
  { s with line := { s.line with eqTries := 0, eqReading := true, eqRaw := none, eqReady := false } }

/-- EQ_TABLE_READ (R60): one attempt over I2C ends; a reply of none is a NACK or a loss of arbitration. -/
def execEqTableRead (reply : Option (List Byte)) (s : State) : Res :=
  if on s 18 && s.line.eqReading then
    done s { s with line := { s.line with
      eqTries := s.line.eqTries + 1, eqReading := false, eqRaw := if s.pwr.vio then reply else none } }
  else done s s

/-- The read failed and may be tried again. -/
def eqMayRetry (s : State) : Bool :=
  on s 18 && !s.line.eqReading && !s.line.eqReady && s.line.eqRaw.isNone && 1 ≤ s.line.eqTries && s.line.eqTries < 3

/-- EQ_READ_RETRY (R60): 10 ms after a failed attempt, up to three in all. -/
def execEqReadRetry (s : State) : Res :=
  if eqMayRetry s then done s { s with line := { s.line with eqReading := true } } else done s s

/-- A tap lies in its range (R62). -/
def tapIn (b : Byte) (lo hi : Int) : Bool := lo ≤ b.toInt && b.toInt ≤ hi

/-- One lane entry meets R62. -/
def laneEntryOk (e : List Byte) : Bool :=
  let t (n : Nat) : Byte := nth e n 0
  t 0 < 4 && t 1 < 4 && tapIn (t 2) (-4) 4 && tapIn (t 3) (-8) 8 && tapIn (t 4) (-24) 0 && tapIn (t 5) 32 64
    && tapIn (t 6) (-16) 0 && t 7 == 0
    && (((List.range 5).map fun k => (t (2 + k)).toInt.natAbs).sum ≤ 64)

/-- The entry of a lane in a table. -/
def laneEntry (b : List Byte) (k : Nat) : Option (List Byte) :=
  ((List.range 4).map fun i => slice b (0x10 + 8 * i) 8).find? fun e => nth e 0 0 == BitVec.ofNat 8 k

/-- The table meets R61 and R62 as a whole (R63). -/
def eqTableOk (b : List Byte) : Bool :=
  b.length == 64 && slice b 0 4 == [0x43, 0x54, 0x45, 0x51] && nth b 4 0 == 1 && nth b 5 0 == 4 && le b 6 2 == 0x40
    && ((List.range 4).all fun i => laneEntryOk (slice b (0x10 + 8 * i) 8))
    && ((List.range 4).all fun k => (laneEntry b k).isSome)
    && le b 0x30 4 == (crc32 (b.take 0x30)).toNat && le b 0x34 12 == 0

/-- The table is applied, or the default settings are (R63); a reload that waits ends. -/
def eqFinish (raw : Option (List Byte)) (s : State) : State :=
  let good := match raw with
    | some b => if eqTableOk b then some b else none
    | none => none
  let s1 := match good with
    | some b => { s with line := { s.line with
        eqReady := true, eqFromRom := true, carrierId := word (le b 8 8)
        eqEntries := (List.range 4).map fun k => (laneEntry b k).getD (laneEqReset k) } }
    | none => ev 0x0901 { s with line := { s.line with
        eqReady := true, eqFromRom := false, carrierId := 0, eqEntries := (List.range 4).map laneEqReset } }
  finishWait .eqReload 0 [] s1

/-- EQ_READ_DONE (R63): the read succeeded, or failed three times. -/
def execEqReadDone (s : State) : Res :=
  if on s 18 && !s.line.eqReading && !s.line.eqReady && (s.line.eqRaw.isSome || 3 ≤ s.line.eqTries) then
    done s (eqFinish s.line.eqRaw s)
  else done s s

/-! ### Pattern checkers (R53-R55) -/

/-- The pattern unit of checker 0, the line's, or 1 + n, lane n's. -/
def prbsOf (s : State) (c : Nat) : Prbs := if c = 0 then s.line.prbs else (lane s (c - 1)).prbs

def setPrbs (c : Nat) (x : Prbs) (s : State) : State :=
  if c = 0 then { s with line := { s.line with prbs := x } } else setLane (c - 1) { lane s (c - 1) with prbs := x } s

/-- The domain of a checker: the line receiver, or the lane. -/
def checkerDom (c : Nat) : Nat := if c = 0 then 9 else 13 + c

/-- PRBS_CHECKER_LOCK (R55). -/
def execPrbsCheckerLock (checker : Nat) (inverted : Bool) (s : State) : Res :=
  let x := prbsOf s checker
  if checker ≤ 4 && on s (checkerDom checker) && x.chk != 0 && !x.checker.locked then
    done s (setPrbs checker { x with checker := { x.checker with locked := true, inverted := inverted } } s)
  else done s s

/-- A 48-bit counter that saturates (R55). -/
def sat48 (n : Nat) : Nat := min n (2 ^ 48 - 1)

/-- PRBS_LOCK_LOSS (R55): the errors counted while locked, then one loss. -/
def execPrbsLockLoss (checker bitErrors symbolErrors : Nat) (s : State) : Res :=
  let x := prbsOf s checker
  let k := x.checker
  if checker ≤ 4 && on s (checkerDom checker) && k.locked then
    let s1 := setPrbs checker { x with checker :=
      { locked := false, inverted := false, bitErrors := sat48 (k.bitErrors + bitErrors)
        symErrors := sat48 (k.symErrors + symbolErrors), losses := sat48 (k.losses + 1) } } s
    done s (if checker = 0 then ev 0x0106 (count 0x0105 0 bitErrors s1) else count 0x0902 0 bitErrors s1)
  else done s s

/-- New settings of a pattern unit; a checker that is given another pattern starts afresh (R55). -/
def Prbs.set (gen chk : Nat) (gp cp : Bool) (x : Prbs) : Prbs :=
  { x with gen := gen, chk := chk, genPre := gp, chkPre := cp
           checker := if x.chk = chk ∧ x.chkPre = cp then x.checker else checkerReset }

/-- An inject mode and its parameter (R54, R429): n for burst, k for rate. -/
def injectOk (mode arg : Nat) : Bool :=
  (mode != 1 || (1 ≤ arg && arg ≤ 4096)) && (mode != 2 || (8 ≤ arg && arg ≤ 40))

/-- The words of LINE_PRBS_READ and LANE_PRBS_READ (R429). -/
def checkerWords (k : Checker) : List Word :=
  [word (b2n k.locked + at' (b2n k.inverted) 1), word k.bitErrors, word k.symErrors, word k.losses]

/-- The counts cleared after a read. -/
def clearChecker (c : Nat) (s : State) : State :=
  let x := prbsOf s c
  setPrbs c { x with checker := { x.checker with bitErrors := 0, symErrors := 0, losses := 0 } } s

/-! ### Group 0x09 (R435) -/

/-- A port that the new mode leaves unused and that is still in use (R260). -/
def modeBlocked (s : State) (m : Nat) : Bool :=
  let t := { s with prt := { s.prt with mode := m } }
  (List.range 4).any fun n =>
    (portLanes t n).isEmpty &&
      (!(boundCircuits s (64 + n)).isEmpty || s.sch.queues.any fun e => e.2.enable && portOf s e.1 == 64 + n)

def clientLedgerBusy (s : State) : Bool := (List.range 4).any fun n => ledgerBusy s (64 + n)

/-- PORT_MODE (R260). -/
def cmdPortMode : IfCmd where
  opcode := 0x0901
  len := lenIs 2
  flash := true
  domains := fun _ => [18]
  range := fun _ ws => onlyBits (arg ws 1) 3 && fld (arg ws 1) 1 0 != 0
  check := fun s ws =>
    if clientLedgerBusy s || modeBlocked s (fld (arg ws 1) 1 0) then some (0x8005, none) else none
  effect := fun _ ws s =>
    let m := fld (arg ws 1) 1 0
    let s1 := allPortsDown s
    let s2 := saveStore (fun x => { x with portMode := m }) { s1 with prt := { s1.prt with mode := m } }
    (keepCurves s1 s2, .data [])

def execPortMode (ch : Nat) (s : State) : Res := done s (runIf cmdPortMode ch s)

/-- PORT_SET (R261): a change of FLOW_CONTROL starts with no pause. -/
def cmdPortSet : IfCmd where
  opcode := 0x0902
  len := lenIs 3
  domains := fun _ => [18]
  range := fun s ws =>
    let w1 := arg ws 1
    let w2 := arg ws 2
    onlyBits w1 0x7FFFFFFF && onlyBits w2 0xFFFFFFFFFFF && 64 ≤ fld w1 16 2 && fld w1 16 2 ≤ 16387 && fld w1 20 19 ≤ 2
      && 1 ≤ fld w1 30 21 && fld w1 30 21 ≤ 1000 && fld w2 17 0 ≤ 163840 && 1 ≤ fld w2 35 18
      && fld w2 35 18 < fld w2 17 0 && !(portLanes s (fld w1 1 0)).isEmpty
  effect := fun _ ws s =>
    let w1 := arg ws 1
    let w2 := arg ws 2
    let n := fld w1 1 0
    let c := cport s n
    (followTags (setCport n { c with
      maxFrame := fld w1 16 2, preTx := bit w1 17, preRx := bit w1 18, flow := fld w1 20 19, watchdog := fld w1 30 21
      xoff := fld w2 17 0, xon := fld w2 35 18, noPause := BitVec.ofNat 8 (fld w2 43 36)
      pauses := if c.flow = fld w1 20 19 then c.pauses else [] } s), .done)

def execPortSet (ch : Nat) (s : State) : Res := done s (runIf cmdPortSet ch s)

/-- PFC_PRIORITY (R272). -/
def cmdPfcPriority : IfCmd where
  opcode := 0x0903
  len := lenIs 2
  domains := fun _ => [41]
  range := fun s ws => onlyBits (arg ws 1) 0x3FFF && isClient (svcNode s (fld (arg ws 1) 10 0)).parent
  effect := fun _ ws s =>
    let n := fld (arg ws 1) 10 0
    (followTags (setSvc n { svcNode s n with pfc := fld (arg ws 1) 13 11 } s), .done)

def execPfcPriority (ch : Nat) (s : State) : Res := done s (runIf cmdPfcPriority ch s)

/-- FILTER_SET (R265, R267). -/
def cmdFilterSet : IfCmd where
  opcode := 0x0904
  len := lenIs 3
  domains := fun ws => if fld (arg ws 2) 24 23 = 1 then [18, 41] else [18]
  range := fun s ws =>
    let w := arg ws 2
    onlyBits (arg ws 1) 0xFF && fld w 22 18 == 0 &&
      (fld w 24 23 != 1 || ((queue s (fld w 17 0)).cls != .timed && (queue s (fld w 17 0)).cls != .control
        && portOf s (fld w 17 0) ≤ 83))
      && (fld w 24 23 != 2 || fld w 17 0 ≤ 2047)
  effect := fun _ ws s =>
    ({ s with prt := { s.prt with filters := mput 0 s.prt.filters (fld (arg ws 1) 7 0) (arg ws 2) } }, .done)

def execFilterSet (ch : Nat) (s : State) : Res := done s (runIf cmdFilterSet ch s)

/-- EQ_RELOAD (R60, R63): BUSY while another reload runs (R421). -/
def cmdEqReload : IfCmd where
  opcode := 0x0905
  len := lenIs 1
  domains := fun _ => [18]
  check := fun s _ =>
    if waiting s .eqReload then some (0x8003, none)
    else if clientLedgerBusy s then some (0x8005, none)
    else none
  effect := fun _ _ s => (startEqRead (allPortsDown s), .pend .eqReload)

def execEqReload (ch : Nat) (s : State) : Res := done s (runIf cmdEqReload ch s)

/-- PORT_INFO (R435). -/
def cmdPortInfo : IfCmd where
  opcode := 0x0906
  len := lenIs 1
  domains := fun _ => [18]
  effect := fun _ _ s =>
    (s, .data ([word (b2n s.line.eqFromRom), s.line.carrierId]
      ++ (List.range 4).map fun k => word (leNat (nth s.line.eqEntries k []))))

def execPortInfo (ch : Nat) (s : State) : Res := done s (runIf cmdPortInfo ch s)

/-- LANE_LOOPBACK (R58). -/
def cmdLaneLoopback : IfCmd where
  opcode := 0x0907
  len := lenIs 2
  domains := fun ws => [14 + fld (arg ws 1) 1 0]
  range := fun _ ws => onlyBits (arg ws 1) 0xF && fld (arg ws 1) 3 2 ≤ 2
  effect := fun _ ws s =>
    let k := fld (arg ws 1) 1 0
    let m := fld (arg ws 1) 3 2
    let s1 := setLane k { lane s k with loop := m } s
    (if m = 0 then s1 else laneDown k s1, .done)

def execLaneLoopback (ch : Nat) (s : State) : Res := done s (runIf cmdLaneLoopback ch s)

/-- LANE_PRBS (R53, R54, R435). -/
def cmdLanePrbs : IfCmd where
  opcode := 0x0908
  len := lenIs 2
  domains := fun ws => [14 + fld (arg ws 1) 1 0]
  range := fun _ ws =>
    let w := arg ws 1
    onlyBits w 0xFFFFFFF3 && fld w 7 4 ≤ 8 && fld w 11 8 ≤ 8 && injectOk (fld w 15 14) (fld w 31 16)
  effect := fun _ ws s =>
    let w := arg ws 1
    let k := fld w 1 0
    let x := (lane s k).prbs.set (fld w 7 4) (fld w 11 8) (bit w 12) (bit w 13)
    let s1 := setPrbs (1 + k) { x with inject := fld w 15 14, injectArg := fld w 31 16 } s
    (if fld w 7 4 = 0 then s1 else laneDown k s1, .done)

def execLanePrbs (ch : Nat) (s : State) : Res := done s (runIf cmdLanePrbs ch s)

/-- LANE_PRBS_READ (R429, R435). -/
def cmdLanePrbsRead : IfCmd where
  opcode := 0x0909
  len := lenIs 2
  domains := fun ws => [14 + fld (arg ws 1) 1 0]
  range := fun _ ws => onlyBits (arg ws 1) 7
  effect := fun _ ws s =>
    let k := fld (arg ws 1) 1 0
    (if bit (arg ws 1) 2 then clearChecker (1 + k) s else s, .data (checkerWords (prbsOf s (1 + k)).checker))

def execLanePrbsRead (ch : Nat) (s : State) : Res := done s (runIf cmdLanePrbsRead ch s)

end Sys2Proof.Machine
end

