-- ==== Sys2Proof/Machine/Line.lean ====
section
/-! DEFINITION. The line receiver, the laser, the test loops of the line, and the line commands of group 0x03
(R22, R36-R59, R124, R127, R429). -/

namespace Sys2Proof.Machine

/-! ### Receiver (R22, R36, R44-R46) -/

/-- ROOT_LOCK (R22): only while LINE_RX is set. -/
def execRootLock (s : State) : Res :=
  if s.line.lineRx && s.line.loop.isNone && on s 9 then done s { s with line := { s.line with rootLocked := true } }
  else done s s

/-- RECOVERED_FREQUENCY_OUT_OF_RANGE (R22, R23): the root leaves the recovered clock. -/
def execRecoveredFrequencyOutOfRange (s : State) : Res := done s (rootLost s)

/-- LOS_DECLARE (R36, R46): LINE_RX clears, the section defect LOS is declared. -/
def execLosDeclare (s : State) : Res :=
  if on s 9 && !s.line.los then
    let s1 := setLos true s
    done s (if s.line.loop.isNone then rxLost s1 else s1)
  else done s s

/-- LOS_CLEAR (R36, R147); a calibration made without signal is repeated (R44). -/
def execLosClear (s : State) : Res := if on s 9 && s.line.los then done s (setLos false s) else done s s

/-- The setting with the highest figure of merit, the lowest on a tie (R44). -/
def bestCtle : List Nat → Nat × Nat → Nat → Nat × Nat
  | [], best, _ => best
  | f :: r, best, k => bestCtle r (if best.2 < f then (k, f) else best) (k + 1)

/-- LINE_CALIBRATION_DONE (R44): without signal setting 8 is kept, and the calibration is still to be completed. -/
def execLineCalibrationDone (foms : List Nat) (s : State) : Res :=
  if !on s 9 then done s s
  else if s.line.los && s.line.loop.isNone then done s { s with line := { s.line with ctle := 8 } }
  else
    let l := (foms.take 16).map (min 255 ·)
    let best := bestCtle (l.drop 1) (0, nth l 0 0) 1
    done s { s with line := { s.line with
      calibrated := true, ctle := best.1, fom := best.2, tracking := false, stepExp := 10, reverts := 0 } }

/-- ADAPT_WINDOW (R45): a fall of more than 2 codes reverts the taps and halves the step; the eighth in a row restarts
acquisition from the preset. -/
def execAdaptWindow (fom : Nat) (taps : List Int) (s : State) : Res :=
  if !on s 9 then done s s
  else
    let x := { s.line with fom := fom }
    if fom + 2 < s.line.fom then
      let n := s.line.reverts + 1
      let s1 := ev 0x0104 s
      done s { s1 with line :=
        if n = 8 then { x with taps := s.line.preset, prevTaps := s.line.preset, stepExp := 10, tracking := false, reverts := 0 }
        else { x with taps := s.line.prevTaps, stepExp := min 18 (s.line.stepExp + 1), reverts := n } }
    else
      done s { s with line := { x with
        prevTaps := s.line.taps, taps := taps, stepExp := if s.line.tracking then 14 else 10, reverts := 0 } }

/-- LINE_RX_SET (R46), or LOOP_RX (R57): acquisition ends with the first (R45). -/
def execLineRxSet (s : State) : Res :=
  if on s 9 && s.line.calibrated && (!s.line.los || s.line.loop.isSome) && 62 ≤ s.line.fom && !s.line.lineRx then
    done s { s with line := { s.line with
      lineRx := true, tracking := true, stepExp := if s.line.tracking then s.line.stepExp else 14 } }
  else done s s

/-- RX_FOM_LOSS (R46): on the figure of merit, or because clock recovery lost lock. -/
def execRxFomLoss (cdrLost : Bool) (s : State) : Res :=
  if on s 9 && s.line.lineRx && (cdrLost || fomLow s) then done s (rxLost (ev 0x0103 s)) else done s s

/-! ### Laser (R47-R51) -/

/-- LASER_CALIBRATION_DONE (R47); run again since a rogue cut it lets a waiting release follow (R124, R429). -/
def execLaserCalibrationDone (s : State) : Res :=
  if !on s 8 then done s s
  else
    let s1 := { s with line := { s.line with laserCal := true, recalSinceCut := s.line.rogueCut } }
    done s (if s1.line.rogueCut && waiting s1 .rogueRelease && rogueWaited s1 then releaseRogue s1 else s1)

/-- The laser may emit this burst: LINE_TX, the root locked, the lead point at least 1 us after the release of
TX_DISABLE, in a state that sends (R23, R47, R50, R102). -/
def laserReady (s : State) (leadNs : Nat) : Bool :=
  lineTx s && s.line.rootLocked && on s 12
    && (match s.line.txReleased with | some t => t + 1000 ≤ leadNs | none => true)
    && (match s.pf.st with | .pf2 | .pf3 | .pf4 | .pf5 => true | _ => false)

/-- A message whose burst was not sent waits again, under its number. -/
def requeueMsg (b : Burst) (s : State) : State :=
  match b.message with
  | some m => if m.type = 0x81 ∨ m.type = 0x84 ∨ m.type = 0x85 ∨ pfUnregistered s.pf.st then s
      else { s with pf := { s.pf with upQ := (m :: s.pf.upQ).take 8 } }
  | none => s

/-- The stamp record of a burst start, for a grant stream enabled (R301). -/
def burstStamp (b : Burst) (s : State) : State :=
  if s.tmu.burstStamps.getLsbD b.grant.gs && !b.grant.proofing then
    let t := symbolTime s (framesTo s b.grant.frame * 14062500 + 3600000 + b.grant.delay + b.grant.start)
    let x := (t / 225).toNat
    pushStamp 4 (b.grant.frame % 65536) b.grant.gs { ns := x / 2 ^ 32, frac := x % 2 ^ 32 } s
  else s

/-- LASER_ENABLE (R48): the oldest burst built goes on the air, or its grant is skipped (R50). -/
def execLaserEnable (s : State) : Res :=
  match s.up.built with
  | [] => done s s
  | b :: r =>
    let s1 := { s with up := { s.up with built := r } }
    if laserReady s b.leadNs && s.up.onAir.isNone then
      done s (burstStamp b (emit (.burst b) { s1 with
        up := { s1.up with onAir := some b }, line := { s1.line with laserOn := true } }))
    else
      done s (requeueMsg b (skipBurst b s1))

/-- Module time of the last bit of a frame in a burst: the end of the codeword that carries it (R69, R252). -/
def itemTime (s : State) (b : Burst) (codeword : Nat) : Nat :=
  let sym := framesTo s b.grant.frame * 14062500 + 3600000 + b.grant.delay
    + ((b.grant.start + b.grant.pre + 256 + 2290 + 11250 * codeword : Nat) : Int)
  (symbolTime s sym / (225 * 2 ^ 32)).toNat

/-- The frames that end in a burst pass the outgoing boundary (R252). -/
def passItems (b : Burst) (l : List UpItem) (s : State) : State :=
  l.foldl (fun t i => match i.frame with
    | some p => framePasses p b.grant.gs (itemTime s b i.codeword) t
    | none => t) s

/-- BURST_SENT (R48): the burst completes with its terminator; AUTH_RESPONSE counts as sent, and AUTH_REJECT ends the
rejecting (R104, R116). -/
def execBurstSent (s : State) : Res :=
  match s.up.onAir with
  | none => done s s
  | some b =>
    let s1 := ev 0x0201 { s with up := { s.up with onAir := none }, line := { s.line with laserOn := false } }
    let s2 := gsSettle b.grant.frame b.grant.gs (passItems b b.items s1)
    match b.message with
    | some m =>
      if m.type = 0x82 ∧ s2.pf.st = .pf4 then done s { s2 with pf := { s2.pf with responded := true } }
      else if m.type = 0x83 ∧ s2.pf.st = .pf4 ∧ s2.pf.rejecting then
        let s3 := pfGo .pf1 false s2
        done s { s3 with pf := { s3.pf with tHoldoff := true } }
      else done s s2
    | none => done s s2

/-- ROGUE_CUT (R49, R124): latched; a burst on the air ends, and firmware enters PF0 and counts the cut. -/
def execRogueCut (s : State) : Res :=
  if !on s 8 then done s s
  else
    let recent := (s.line.cuts.filter fun c => (s.pwr.aon - c).toNat < 1464843750)
    let cuts := s.pwr.aon :: recent
    let s1 := { s with line := { s.line with
      rogueCut := true, recalSinceCut := false, cuts := cuts, hostRelease := s.line.hostRelease || 3 ≤ cuts.length } }
    let s2 := match s1.up.onAir with
      | some b => gsErrored b.grant.frame b.grant.gs (loseBurst b (emit (.burstCut false) { markLineFault s1 with
          up := { s1.up with onAir := none }, line := { s1.line with laserOn := false } }))
      | none => s1
    done s (pfFollow (evReport 0x0202 [word (min cuts.length 255)] s2))

/-- TX_DISABLE_ASSERT (R50): the laser is off; a burst on the air ends without its terminator. -/
def execTxDisableAssert (s : State) : Res :=
  if s.pwr.vio && !s.pwr.txDisable then
    done s (cutBurst 0x0203 false (markLineFault { s with pwr := { s.pwr with txDisable := true } }))
  else done s s

/-- TX_DISABLE counts as released, from now on (R50). -/
def txRelease (s : State) : State :=
  if s.pwr.txDisable then
    { s with pwr := { s.pwr with txDisable := false }, line := { s.line with txReleased := some s.tmu.ns } }
  else s

/-- TX_DISABLE_RELEASE (R50). -/
def execTxDisableRelease (s : State) : Res := done s (txRelease s)

/-- ROGUE_AUTO_RELEASE (R124): firmware releases the latch itself, unless the host holds the release. -/
def execRogueAutoRelease (s : State) : Res :=
  if s.line.rogueCut && fwWorks s && on s 8 && rogueWaited s && s.line.recalSinceCut && s.line.laserCal && !s.line.hostRelease then
    done s (releaseRogue s)
  else done s s

/-! ### Block lock of the proofing coding (R42) -/

/-- A line serial loopback in the proofing coding is active. -/
def proofingLoop (s : State) : Bool :=
  match s.line.loop with
  | some (c, _) => c
  | none => false

/-- BLOCK_LOCK (R42): 64 consecutive valid headers. -/
def execBlockLock (s : State) : Res :=
  if on s 9 && proofingLoop s && !s.line.blockLock then
    done s { s with line := { s.line with blockLock := true, validHdrs := s.line.validHdrs + 64 } }
  else done s s

/-- BLOCK_LOCK_LOSS (R42, R64): 16 invalid headers, and the lock. -/
def execBlockLockLoss (s : State) : Res :=
  if on s 9 && s.line.blockLock then
    done s (ev 0x0107 (count 0x0108 0 16 { s with line := { s.line with blockLock := false } }))
  else done s s

/-! ### Group 0x03 (R429) -/

/-- LINE_STATUS (R429). -/
def cmdLineStatus : IfCmd where
  opcode := 0x0301
  len := lenIs 1
  domains := fun _ => [8, 9, 11]
  effect := fun _ _ s =>
    let x := s.line
    let prof := (List.range 4).map fun p => at' (b2n (mfind s.pf.profiles p).isSome) (26 + p)
    let tap (k : Nat) : Nat := wrap 16 (nth x.taps k 0)
    let w1 := x.fom + at' x.ctle 8 + at' (pfNo s.pf.st) 12 + at' s.pf.tid 16 + at' (b2n x.los) 24 + at' (b2n x.rogueCut) 25
      + prof.sum
    let ffe := (List.range 6).map fun k =>
      word (tap (4 * k) + at' (tap (4 * k + 1)) 16 + at' (tap (4 * k + 2)) 32 + at' (tap (4 * k + 3)) 48)
    (s, .data ([word w1, word (s.pf.eqd + at' s.pf.preEqd 32)] ++ ffe ++
      [word (tap 24 + at' (b2n (x.loop.isSome && x.lineRx)) 16 + at' (b2n (x.loop.isSome && s.frm.lineSync)) 17)]))

def execLineStatus (ch : Nat) (s : State) : Res := done s (runIf cmdLineStatus ch s)

/-- LINE_STOP (R127): held in PF0; in PF5 the notice goes out first. -/
def cmdLineStop : IfCmd where
  opcode := 0x0302
  len := lenIs 1
  flash := true
  check := fun s _ => if waiting s .lineStop then some (0x8003, none) else none
  effect := fun _ _ s =>
    let s1 := saveStore (fun x => { x with lineStop := true }) { s with pf := { s.pf with held := true } }
    match s.pf.st with
    | .pf0 => (s1, .data [])
    | .pf7 => (s1, .pend .lineStop)
    | .pf5 =>
      let s2 := queueMsg 0x86 [1] (markLineFault s1)
      ({ s2 with pf := { s2.pf with stopping := true } }, .pend .lineStop)
    | _ => (pfGo .pf0 true s1, .data [])

def execLineStop (ch : Nat) (s : State) : Res := done s (runIf cmdLineStop ch s)

/-- LINE_STOP_TIMEOUT (R127): 1 ms after the command in PF5 the module enters PF0. -/
def execLineStopTimeout (s : State) : Res :=
  if s.pf.stopping && fwWorks s then
    done s (pfGo .pf0 true { s with pf := { s.pf with stopping := false } })
  else done s s

/-- LINE_START (R429): the hold is cleared. -/
def cmdLineStart : IfCmd where
  opcode := 0x0303
  len := lenIs 1
  flash := true
  check := fun s _ => if waiting s .lineStop then some (0x8003, none) else none
  effect := fun _ _ s =>
    (pfFollow (saveStore (fun x => { x with lineStop := false }) { s with pf := { s.pf with held := false } }), .done)

def execLineStart (ch : Nat) (s : State) : Res := done s (runIf cmdLineStart ch s)

/-- ROGUE_RELEASE (R124, R429). -/
def cmdRogueRelease : IfCmd where
  opcode := 0x0304
  len := lenIs 1
  domains := fun _ => [8]
  ready := fun s _ => rogueWaited s
  check := fun s _ => if waiting s .rogueRelease then some (0x8003, none) else none
  effect := fun _ _ s =>
    if !s.line.rogueCut then (s, .data [])
    else if s.line.recalSinceCut && s.line.laserCal then (releaseRogue s, .data [])
    else (s, .pend .rogueRelease)

def execRogueRelease (ch : Nat) (s : State) : Res := done s (runIf cmdRogueRelease ch s)

/-- The loop starts or ends: the receiver loses its signal; at its end calibration runs again, automatic slip is on and
the generator off (R57, R429). -/
def setLoop (x : Option (Bool × Bool)) (s : State) : State :=
  let s1 := rxLost s
  match x with
  | some c => { s1 with line := { s1.line with loop := some c } }
  | none => { s1 with line := { s1.line with
      loop := none, calibrated := false, autoSlip := true, prbs := { s1.line.prbs with gen := 0 } } }

/-- LINE_LOOPBACK (R57). -/
def cmdLineLoopback : IfCmd where
  opcode := 0x0305
  len := lenIs 2
  domains := fun _ => [9, 10]
  range := fun _ ws => onlyBits (arg ws 1) 7
  check := fun s ws =>
    if bit (arg ws 1) 0 && s.pf.st != .pf0 && s.pf.st != .pf7 then some (0x8005, none) else none
  effect := fun _ ws s =>
    let w := arg ws 1
    if bit w 0 then (setLoop (some (bit w 1, bit w 2)) s, .done)
    else if s.line.loop.isSome then (setLoop none s, .done)
    else (s, .done)

def execLineLoopback (ch : Nat) (s : State) : Res := done s (runIf cmdLineLoopback ch s)

/-- A pattern that R53 allows for the coding in use. -/
def patternOk (s : State) (code : Nat) : Bool := code ≤ 6 || (code ≤ 8 && !proofingLoop s)

/-- LINE_PRBS (R53, R429). -/
def cmdLinePrbs : IfCmd where
  opcode := 0x0306
  len := lenIs 2
  domains := fun _ => [9, 10]
  range := fun s ws =>
    onlyBits (arg ws 1) 0x3FF && patternOk s (fld (arg ws 1) 3 0) && patternOk s (fld (arg ws 1) 7 4)
  check := fun s ws => if fld (arg ws 1) 3 0 != 0 && s.line.loop.isNone then some (0x8005, none) else none
  effect := fun _ ws s =>
    let w := arg ws 1
    (setPrbs 0 (s.line.prbs.set (fld w 3 0) (fld w 7 4) (bit w 8) (bit w 9)) s, .done)

def execLinePrbs (ch : Nat) (s : State) : Res := done s (runIf cmdLinePrbs ch s)

/-- LINE_INJECT (R54, R429). -/
def cmdLineInject : IfCmd where
  opcode := 0x0307
  len := lenIs 2
  domains := fun _ => [10]
  range := fun _ ws => onlyBits (arg ws 1) 0xFFFF0003 && injectOk (fld (arg ws 1) 1 0) (fld (arg ws 1) 31 16)
  effect := fun _ ws s =>
    (setPrbs 0 { s.line.prbs with inject := fld (arg ws 1) 1 0, injectArg := fld (arg ws 1) 31 16 } s, .done)

def execLineInject (ch : Nat) (s : State) : Res := done s (runIf cmdLineInject ch s)

/-- LINE_PRBS_READ (R429). -/
def cmdLinePrbsRead : IfCmd where
  opcode := 0x0308
  len := lenIs 2
  domains := fun _ => [9]
  range := fun _ ws => onlyBits (arg ws 1) 1
  effect := fun _ ws s =>
    (if bit (arg ws 1) 0 then clearChecker 0 s else s, .data (checkerWords s.line.prbs.checker))

def execLinePrbsRead (ch : Nat) (s : State) : Res := done s (runIf cmdLinePrbsRead ch s)

/-- BIT_SLIP (R59). -/
def cmdBitSlip : IfCmd where
  opcode := 0x0309
  len := lenIs 1
  domains := fun _ => [9]
  ready := fun s _ => proofingLoop s && !s.line.autoSlip
  effect := fun _ _ s =>
    ({ s with line := { s.line with slipPos := (s.line.slipPos + 1) % 66, validHdrs := 0 } },
      .data [word (s.line.validHdrs % 65536)])

def execBitSlip (ch : Nat) (s : State) : Res := done s (runIf cmdBitSlip ch s)

/-- AUTO_SLIP (R429). -/
def cmdAutoSlip : IfCmd where
  opcode := 0x030A
  len := lenIs 2
  domains := fun _ => [9]
  range := fun _ ws => onlyBits (arg ws 1) 1
  check := fun s _ => if proofingLoop s then none else some (0x8005, none)
  effect := fun _ ws s => ({ s with line := { s.line with autoSlip := bit (arg ws 1) 0 } }, .done)

def execAutoSlip (ch : Nat) (s : State) : Res := done s (runIf cmdAutoSlip ch s)

end Sys2Proof.Machine
end

