-- ==== Sys2Proof/Machine/Coding.lean ====
section
/-! DEFINITION. The coding of the line as functions on bits and symbols: scrambler, LDPC code, Gray map and precoder, the
proofing coding, preamble, delimiter and terminator (R37-R41, R53, R66-R68, R79, R94). -/

namespace Sys2Proof.Machine

/-! ### Bits -/

/-- The bits of bytes, most significant first (R3). -/
def bitsOf (l : List Byte) : List Bool := l.flatMap fun b => (List.range 8).map fun k => b.getLsbD (7 - k)

/-- A number from bits, most significant first. -/
def bitsNat (l : List Bool) : Nat := l.foldl (fun a b => 2 * a + b2n b) 0

/-- Groups of n bits. -/
def groupBits (n : Nat) : Nat → List Bool → List (List Bool)
  | 0, _ => []
  | k + 1, l => l.take n :: groupBits n k (l.drop n)

/-! ### The additive scrambler (R66) -/

/-- s(n - 1) to s(n - 31) as bits 0 to 30. -/
abbrev ScrReg := BitVec 31

/-- s(n) = s(n - 28) XOR s(n - 31). -/
def scrNext (r : ScrReg) : Bool := Bool.xor (r.getLsbD 27) (r.getLsbD 30)

def scrStep (r : ScrReg) : ScrReg := (r <<< 1) ||| (if scrNext r then 1 else 0)

/-- Information bits through the scrambler, and where it stands after them. -/
def lineScramble : ScrReg → List Bool → List Bool × ScrReg
  | r, [] => ([], r)
  | r, b :: l => let x := lineScramble (scrStep r) l; (Bool.xor b (scrNext r) :: x.1, x.2)

/-- The register at the first information bit: all ones. -/
def scrReset : ScrReg := 0x7FFFFFFF

/-! ### BIP-32 (R79) -/

/-- The XOR of the successive 32-bit words of a bit sequence. -/
def bip32 (l : List Bool) : BitVec 32 :=
  (groupBits 32 (l.length / 32) l).foldl (fun a g => a ^^^ BitVec.ofNat 32 (bitsNat g)) 0

/-! ### The LDPC code (R67, R68) -/

/-- The shift of a base entry of an information column, none where the matrix is zero. -/
def ldpcShift (i j : Nat) : Option Nat :=
  if i = j % 11 ∨ i = (j + 4) % 11 ∨ i = (j + 7) % 11 then some ((7 * i + 13 * j + i * j) % 300) else none

/-- A column of 300 bits through the identity shifted right by s: row r takes bit (r + s) mod 300. -/
def shiftCol (n : Nat) (col : List Bool) : List Bool := col.drop (n % 300) ++ col.take (n % 300)

def xorCol (a b : List Bool) : List Bool := List.zipWith Bool.xor a b

def zeroCol : List Bool := List.replicate 300 false

/-- What the information columns give in base row i. -/
def rowSum (cols : List (List Bool)) (i : Nat) : List Bool :=
  (cols.mapIdx fun j c => (j, c)).foldl (fun a x =>
    match ldpcShift i x.1 with
    | some n => xorCol a (shiftCol n x.2)
    | none => a) zeroCol

/-- The parity columns from 65 on: each row gives the next. -/
def parityCols (rows : List (List Bool)) (p0 : List Bool) : Nat → Nat → List Bool → List (List Bool)
  | 0, _, _ => []
  | fuel + 1, k, p =>
    let next := xorCol (xorCol (rows.getD k zeroCol) p) (if k = 5 then p0 else zeroCol)
    p :: parityCols rows p0 fuel (k + 1) next

/-- The 3,300 parity bits of 19,200 information bits; a shorter sequence is filled with zeros. -/
def ldpcParity (info : List Bool) : List Bool :=
  let cols := groupBits 300 64 (info ++ List.replicate (19200 - info.length) false)
  let rows := (List.range 11).map (rowSum cols)
  let p0 := rows.foldl xorCol zeroCol
  let p1 := xorCol (rows.getD 0 zeroCol) (shiftCol 1 p0)
  (p0 :: parityCols rows p0 10 1 p1).flatten

/-- The codeword of a unit: 19,200 scrambled information bits and their parity. -/
def ldpcWord (info : List Bool) : List Bool := info ++ ldpcParity info

/-- The crust codeword of a line frame in the order sent (R68). -/
def crustCodeword (info : List Bool) : List Bool :=
  let p := ldpcParity info
  info ++ p ++ p ++ info.take 4636

/-! ### Gray map and precoder (R37, R38) -/

/-- The Gray value of a bit pair. -/
def gray (a b : Bool) : Nat := if a then (if b then 2 else 3) else b2n b

/-- The values transmitted, after p(n - 1). -/
def precode : Nat → List Nat → List Nat
  | _, [] => []
  | p, g :: r => let q := (g + 4 - p) % 4; q :: precode q r

/-- The receiver's inverse: g(n) = (p(n) + p(n - 1)) mod 4. -/
def unprecode : Nat → List Nat → List Nat
  | _, [] => []
  | p, q :: r => (q + p) % 4 :: unprecode q r

/-- Bits as Gray values, two at a time. -/
def grayPairs : List Bool → List Nat
  | a :: b :: r => gray a b :: grayPairs r
  | _ => []

/-- Bits as transmitted PAM4 values from a reset precoder: 0 = -1, 1 = -1/3, 2 = +1/3, 3 = +1. -/
def pam4 (l : List Bool) : List Nat := precode 0 (grayPairs l)

/-- The sync pattern (R70). -/
def syncPattern : Nat := 0x3A9CE14F07B6D258C5631EA9F80D4B7296E12DC85F3AB407E19B6C250AF4D38E

/-- The 128 transmitted values of the sync pattern. -/
def syncValues : List Nat := pam4 (bitsOf (natBe 32 syncPattern))

/-- A match of 128 received values: at most 6 differ (R70). -/
def syncMatches (received : List Nat) : Bool :=
  ((List.zipWith (· != ·) received syncValues).filter id).length ≤ 6 && received.length == 128

/-! ### Preamble, delimiter, terminator (R53, R94, R113) -/

/-- PRBS9 from an all-ones register, x^9 + x^5 + 1. -/
def prbs9 : Nat → BitVec 9 → List Bool
  | 0, _ => []
  | n + 1, r =>
    let b := Bool.xor (r.getLsbD 8) (r.getLsbD 4)
    b :: prbs9 n ((r <<< 1) ||| (if b then 1 else 0))

/-- An outer level. -/
def outer (b : Bool) : Nat := if b then 3 else 0

/-- The delimiter: 256 symbols. -/
def delimiter : List Nat := (prbs9 256 0x1FF).map outer

/-- The terminator: 128 symbols, starting with +1. -/
def terminator : List Nat := (List.range 128).map fun k => outer (k % 2 == 0)

/-- Level code k of a profile's 64 bits, first code in the top bits (R113). -/
def levelCode (levels : BitVec 64) (k : Nat) : Nat := (levels.toNat >>> (62 - 2 * (k % 32))) % 4

/-- The preamble of P symbols; in a proofing burst the codes go to the outer levels. -/
def preamble (p : Nat) (levels : BitVec 64) (proofing : Bool) : List Nat :=
  (List.range p).map fun k =>
    let c := levelCode levels k
    if proofing then outer (2 ≤ c) else c

/-! ### The proofing coding (R40, R41) -/

/-- One bit of the Clause 49 scrambler 1 + x^39 + x^58. -/
def scr58 (h : BitVec 58) (b : Bool) : Bool × BitVec 58 :=
  let y := Bool.xor b (Bool.xor (h.getLsbD 38) (h.getLsbD 57))
  (y, (h <<< 1) ||| (if y then 1 else 0))

def scrPayload : BitVec 58 → List Bool → List Bool × BitVec 58
  | h, [] => ([], h)
  | h, b :: r => let x := scr58 h b; let y := scrPayload x.2 r; (x.1 :: y.1, y.2)

/-- Data blocks of 64 payload bits with their sync header 01. -/
def proofBlocks : BitVec 58 → List (List Bool) → List Bool
  | _, [] => []
  | h, p :: r => let x := scrPayload h p; [false, true] ++ x.1 ++ proofBlocks x.2 r

/-- The bits of a proofing burst's crust: the seed block, then its 20 data blocks. -/
def proofBits (crust : List Byte) : List Bool :=
  proofBlocks 0 (List.replicate 64 false :: groupBits 64 20 (bitsOf crust))

/-- Each bit of the proofing coding is sent over four symbols at an outer level (R39, R94). -/
def proofSymbols (l : List Bool) : List Nat := l.flatMap fun b => List.replicate 4 (outer b)

end Sys2Proof.Machine
end

