-- ==== Sys2Proof/Machine/CirOps.lean ====
section
/-! DEFINITION. Runs and pages, the page switch, DS windows, GFP (R129-R149). -/

namespace Sys2Proof.Machine

/-! ### Runs and pages (R129, R130, R142, R143) -/

/-- A run from its 64 bits (R130). -/
def runOf (w : Word) : Run :=
  { circuit := fld w 63 56, up := bit w 55, gs := fld w 54 49, first := fld w 48 32, count := fld w 31 18 }

/-- The 64 bits of a run. -/
def Run.word (r : Run) : Word :=
  Machine.word (at' r.circuit 56 + at' (b2n r.up) 55 + at' r.gs 49 + at' r.first 32 + at' r.count 18)

/-- Number of the standby page. -/
def standbyPage (s : State) : Nat := 1 - s.cir.active

/-- The slice takes part in a switch: a page of it holds a run (R143). -/
def takesPart (s : State) (k : Nat) : Bool := !(slice' s k).page0.isEmpty || !(slice' s k).page1.isEmpty

def takingPart (s : State) : List Nat := (List.range 16).filter (takesPart s)

/-- Bit k for every slice k that meets `f`. -/
def sliceBits (f : Nat → Bool) : Nat := ((List.range 16).map fun k => at' (b2n (f k)) k).sum

/-- Every taking-part slice is armed and the announced switch is the one at frame F (R143, R145). -/
def allArmed (s : State) (frame : Nat) : Bool :=
  (match s.cir.announce with | some (f, _) => f == frame | none => false)
    && (takingPart s).all fun k => (slice' s k).armed && on s (19 + k)

/-- A slice is disarmed, counted where it took part (R146). -/
def disarmSlice (s : State) (k : Nat) : State :=
  let x := slice' s k
  if x.armed then
    let s1 := setSlice k { x with armed := false } s
    ev 0x0402 { s1 with cir := { s1.cir with moduleArmed := false } }
  else s

def disarmAll (s : State) : State :=
  let t := (List.range 16).foldl disarmSlice s
  { t with cir := { t.cir with moduleArmed := false } }

/-- Standby writes are refused from a COMMIT to F + 1 (R144). -/
def writesRefused (s : State) : Bool :=
  match s.cir.refuseUntil with
  | some f => 0 < framesTo s f
  | none => false

/-- The standby page of a slice is written: unsealed, and disarmed (R142, R146). -/
def writeStandby (k : Nat) (f : List Run → List Run) (s : State) : State :=
  if on s (19 + k) then
    let p := standbyPage s
    let s1 := disarmSlice s k
    let x := slice' s1 k
    setSlice k { x.setPage p (f (x.page p)) with sealed := false, valid := false } s1
  else s

/-- Blocks of a run as (stream or 64 for downstream, block). -/
def Run.blocks (r : Run) : List (Nat × Nat) :=
  (List.range r.count).map fun k => (if r.up then r.gs else 64, r.first + k)

/-- Two runs of one direction share a block. -/
def Run.overlaps (a b : Run) : Bool :=
  a.up == b.up && (!a.up || a.gs == b.gs) && a.first < b.first + b.count && b.first < a.first + a.count

/-- Some two of the runs share a block. -/
def anyOverlap : List Run → Bool
  | [] => false
  | r :: l => l.any r.overlaps || anyOverlap l

/-- The CRC-32 of a page (R142): its runs in ascending (DIR, FIRST) order; an empty page has CRC 0. -/
def pageCrc (l : List Run) : Nat :=
  if l.isEmpty then 0
  else
    let sorted := l.mergeSort fun a b => (!a.up && b.up) || (a.up == b.up && a.first ≤ b.first)
    (crc32 (sorted.flatMap fun r => natBe 8 r.word.toNat)).toNat

/-- Each circuit present has 1-8,192 blocks in each direction, its upstream runs in one grant stream (R142). -/
def circuitsOk (l : List Run) : Bool :=
  l.all fun r =>
    let mine := l.filter (·.circuit == r.circuit)
    let n (up : Bool) := ((mine.filter (·.up == up)).map (·.count)).sum
    1 ≤ n true && n true ≤ 8192 && 1 ≤ n false && n false ≤ 8192
      && 1 ≤ r.count && r.first + r.count ≤ 62450 && mine.all fun q => !q.up || !r.up || q.gs == r.gs

/-- The slices that firmware's check over all slices invalidates (R142). -/
def badSlices (s : State) : List Nat :=
  let runs := (List.range 16).flatMap fun k => (slice' s k).page (standbyPage s)
  let total (up : Bool) := ((runs.filter (·.up == up)).map (·.count)).sum
  (List.range 16).filter fun k =>
    ((slice' s k).page (standbyPage s)).any fun r =>
      62450 < total r.up || runs.any fun q => (q.circuit != r.circuit) && q.overlaps r

/-- A slice validates its own standby page against the sealed CRC (R142). -/
def sliceValid (s : State) (k crc : Nat) : Bool :=
  let l := (slice' s k).page (standbyPage s)
  pageCrc l == crc && !anyOverlap l && circuitsOk l && l.length ≤ 1024 && !(badSlices s).contains k

/-! ### The commands of the switch (R143, R144, R146) -/

/-- PS_CMD ANNOUNCE. -/
def psAnnounce (frame page : Nat) (s : State) : State :=
  if page = s.cir.active then ev 0x0406 s
  else if s.cir.announce = some (frame, page) then s
  else
    let s1 := disarmAll s
    { s1 with cir := { s1.cir with announce := some (frame, page), commit := none } }

/-- PS_CMD COMMIT, valid only in the crust of PS_FRAME - 2 (R77). -/
def psCommit (inFrame frame : Nat) (s : State) : State :=
  if (inFrame + 2) % 2 ^ 32 = frame % 2 ^ 32 then
    { s with cir := { s.cir with commit := some (frame % 2 ^ 32), refuseUntil := some ((frame + 1) % 2 ^ 32) } }
  else ev 0x030C s

/-- PS_CMD CANCEL (R146): the standby content and its seal stay. -/
def psCancel (s : State) : State :=
  let s1 := disarmAll s
  { s1 with cir := { s1.cir with announce := none, commit := none } }

/-! ### DS windows (R149) -/

/-- Columns and bits of a column of an entity: the section, or a circuit of n blocks. -/
def dsShape (s : State) (entity : Nat) : Nat × Nat :=
  if entity = 0 then (32, 749400) else (8, payloadBytes (blocksOf s s.cir.active (entity % 4096) false))

/-- e(10^-k) as a fraction: c * (d^b - (d - 2)^b) over 2 * d^b with d = 10^k (R149). -/
def dsRate (c b k : Nat) : Nat × Nat :=
  let d := 10 ^ k
  (c * (d ^ b - (d - 2) ^ b), 2 * d ^ b)

/-- The window W: the smallest with W * e >= 100. -/
def dsWindow (e : Nat × Nat) : Nat :=
  match [8, 80, 800, 8000, 80000].find? fun w => 100 * e.2 ≤ w * e.1 with
  | some w => w
  | none => 800000

/-- The limits D and C of a window. -/
def dsLimits (c b k : Nat) : Nat × Nat × Nat :=
  let e := dsRate c b k
  let w := dsWindow e
  let d := max 1 (9 * w * e.1 / (10 * e.2))
  let e' := dsRate c b (k + 1)
  (w, d, min (d - 1) ((w * e'.1 + e'.2 - 1) / e'.2))

def dsOf (s : State) (entity : Nat) : Ds := if entity = 0 then s.cir.ds else (circ s (entity % 4096)).ds

def setDs (entity : Nat) (x : Ds) (s : State) : State :=
  if entity = 0 then { s with cir := { s.cir with ds := x } }
  else setCirc (entity % 4096) { circ s (entity % 4096) with ds := x } s

/-- A comparison is taken into the window. -/
def dsTake (entity errors : Nat) (s : State) : State :=
  let x := dsOf s entity
  setDs entity { x with frames := x.frames + 1, errors := x.errors + errors } s

/-- The end of a window: DS is declared or cleared, and a new one starts. -/
def dsEnd (entity : Nat) (s : State) : State :=
  let x := dsOf s entity
  let (c, b) := dsShape s entity
  let (w, d, cl) := dsLimits c b x.k
  if x.frames < w then s
  else
    let now := if d ≤ x.errors then true else if x.errors ≤ cl then false else x.declared
    let s1 := setDs entity { x with frames := 0, errors := 0, declared := now } s
    if now = x.declared then s1 else reportDefect now entity 2 s1

/-! ### GFP (R136, R137) -/

/-- The value every core header is XORed with. -/
def coreMask : List Byte := [0xB6, 0xAB, 0x31, 0xE0]

/-- A core header as sent, for a PLI. -/
def coreHeader (pli : Nat) : List Byte :=
  let h := natBe 2 pli
  List.zipWith (· ^^^ ·) (h ++ natBe 2 (crc16g h)) coreMask

/-- One bit of the self-synchronous scrambler x^43 + 1: history, then out. -/
def scrBit (sending : Bool) (h : BitVec 43) (x : Bool) : BitVec 43 × Bool :=
  let y := Bool.xor x (h.getLsbD 42)
  ((h <<< 1) ||| (if (if sending then y else x) then 1 else 0), y)

def scrByte (sending : Bool) (h : BitVec 43) (b : Byte) : BitVec 43 × Byte :=
  (List.range 8).foldl (fun a k =>
    let r := scrBit sending a.1 (b.getLsbD (7 - k))
    (r.1, (a.2 <<< 1) ||| (if r.2 then 1 else 0))) (h, 0)

/-- A payload area through the scrambler or the descrambler. -/
def scramble (sending : Bool) : BitVec 43 → List Byte → BitVec 43 × List Byte
  | h, [] => (h, [])
  | h, b :: r =>
    let x := scrByte sending h b
    let y := scramble sending x.1 r
    (y.1, x.2 :: y.2)

/-- The Ethernet frame with its FCS that a client data frame carries. -/
def gfpClient (p : Packet) : List Byte := let b := pad (max 60 p.bytes.length) p.bytes; b ++ fcs b

/-- A frame mapped into the stream: core header, then the scrambled payload area. -/
def gfpMap (h : BitVec 43) (p : Packet) : BitVec 43 × List Byte :=
  let area := [0x00, 0x01] ++ natBe 2 (crc16g [0x00, 0x01]) ++ gfpClient p
  let r := scramble true h area
  (r.1, coreHeader area.length ++ r.2)

/-- The PLI of four bytes, where their cHEC holds. -/
def coreCheck (b : List Byte) : Option Nat :=
  let h := List.zipWith (· ^^^ ·) (b.take 4) coreMask
  if b.length < 4 then none else if be h 2 2 = crc16g (h.take 2) then some (be h 0 2) else none

/-- Bit n of a byte sequence inverted. -/
def flipBit (n : Nat) (b : List Byte) : List Byte := b.mapIdx fun i x => if i = n / 8 then x ^^^ (128 >>> (n % 8)) else x

/-- The PLI of a core header with one bit wrong. -/
def coreCorrect (b : List Byte) : Option Nat := ((List.range 32).filterMap fun n => coreCheck (flipBit n (b.take 4))).head?

/-- Bytes of the payload area that follow a core header. -/
def areaLen (pli : Nat) : Nat := if pli < 4 then 0 else pli

/-- What a client data frame's payload area gives: the frame without FCS, none where R137 discards it. -/
def gfpFrame (area : List Byte) : Option (List Byte) :=
  let client := area.drop 4
  let n := client.length
  if area.length ≤ 16391 && slice area 0 2 == [0x00, 0x01] && be area 2 2 == crc16g [0x00, 0x01] && 64 ≤ n
      && client.drop (n - 4) == fcs (client.take (n - 4)) then
    some (client.take (n - 4))
  else none

end Sys2Proof.Machine
end

