-- ==== Sys2Proof/Machine/Circuits.lean ====
section
/-! DEFINITION. Circuits and the slot interchange: pages, the page switch, what a line frame brings and takes, defects,
and the circuit commands of group 0x04 (R129-R149, R430). -/

namespace Sys2Proof.Machine

/-- Crust content is used: crust processor and framer ON, LINE_SYNC set and no loop (R57, R72). -/
def crustUsed (s : State) : Bool := on s 13 && pfSync s

/-! ### Control messages of group 0x01 (R140-R142) -/

/-- Firmware takes circuit items: it runs, in PF5, and the header is that of the type with its body length (R140). -/
def circuitItem (c : CtrlIn) (type : Nat) (len : Nat → Bool) : Bool :=
  be c 0 1 == 1 && be c 1 1 == type && be c 4 2 + 8 == c.length && len (be c 4 2)

/-- PAGE_RUNS (R142): part 0 empties the standby pages; then each run is written. -/
def takePageRuns (item : CtrlIn) (s : State) : State :=
  let b := item.drop 8
  if !circuitItem item 0x81 (fun n => 16 ≤ n && n ≤ 8 + 8 * 254 && n % 8 == 0) then ev 0x03E0 s
  else if writesRefused s then ev 0x0408 s
  else if be b 0 1 ≠ standbyPage s then ev 0x03E0 s
  else
    let s1 := if be b 1 1 = 0 then (List.range 16).foldl (fun t k => writeStandby k (fun _ => []) t) s else s
    let runs := (List.range ((b.length - 8) / 8)).map fun k => runOf (word (be b (8 + 8 * k) 8))
    runs.foldl (fun t r => writeStandby (r.circuit % 16) (fun l => if l.length < 1024 then l ++ [r] else l) t) s1

def execPageRuns (item : CtrlIn) (s : State) : Res :=
  if takesContracts s then done s (takePageRuns item s) else done s s

/-- A slice validates its standby page against the CRC-32 of the seal (R142). -/
def sealSlice (b : List Byte) (s : State) (k : Nat) : State :=
  if on s (19 + k) then
    let ok := sliceValid s k (be b (4 + 4 * k) 4)
    let t := setSlice k { slice' s k with sealed := true, valid := ok } s
    if ok then t else ev 0x0407 t
  else s

/-- PAGE_SEAL (R142): every slice validates its standby page; PAGE_STATUS answers. -/
def takePageSeal (item : CtrlIn) (s : State) : State :=
  let b := item.drop 8
  if !circuitItem item 0x82 (· == 68) || be b 0 1 != standbyPage s then ev 0x03E0 s
  else
    let s1 := (List.range 16).foldl (sealSlice b) s
    sendControl 1 3 ([BitVec.ofNat 8 (standbyPage s1), 0] ++ natBe 2 (sliceBits fun k => (slice' s1 k).valid)
      ++ natBe 2 (sliceBits (takesPart s1)) ++ [0, 0]) s1

def execPageSeal (item : CtrlIn) (s : State) : Res :=
  if takesContracts s then done s (takePageSeal item s) else done s s

/-- CIRCUIT_REFUSE (R141), reported to the host. -/
def execCircuitRefuse (item : CtrlIn) (s : State) : Res :=
  if !takesContracts s then done s s
  else if circuitItem item 0x83 (· == 4) then
    done s (evReport 0x0416 [word (be item 8 1 + at' (be item 9 1) 8)] s)
  else done s (ev 0x03E0 s)

/-! ### The page switch (R143-R146) -/

/-- PS_ANNOUNCE (R143). -/
def execPsAnnounce (frame page : Nat) (s : State) : Res :=
  if crustUsed s then done s (psAnnounce frame page s) else done s s

/-- PS_COMMIT (R144). -/
def execPsCommit (inFrame frame : Nat) (s : State) : Res :=
  if crustUsed s then done s (psCommit inFrame frame s) else done s s

/-- PS_CANCEL (R146). -/
def execPsCancel (s : State) : Res := if crustUsed s then done s (psCancel s) else done s s

/-- PS_ARMED (R143): the slices that can be armed are; the module is, once every slice that takes part is. A COMMIT
freezes the set. -/
def execPsArmed (s : State) : Res :=
  match s.cir.announce with
  | some (f, p) =>
    if s.cir.commit.isSome || p != standbyPage s then done s s
    else
      let s1 := (takingPart s).foldl (fun t k =>
        let x := slice' t k
        if on s (19 + k) && x.sealed && x.valid then setSlice k { x with armed := true } t else t) s
      if allArmed s1 f && !s1.cir.moduleArmed then
        done s (ev 0x0401 { s1 with cir := { s1.cir with moduleArmed := true } })
      else done s s1
  | none => done s s

/-- Circuits whose runs differ between the two pages. -/
def changedCircuits (s : State) : List Nat :=
  (List.range 256).filter fun c => [false, true].any fun up => runsOf s 0 c up != runsOf s 1 c up

/-- What a circuit took for a frame under another page than `page` is discarded, counted by payload bytes (R145). -/
def dropTakenOf (frame page : Nat) (s : State) (c : Nat) : State :=
  let x := circ s c
  let gone := x.taken.filter fun e => e.1 == frame && e.2.1 != page
  if gone.isEmpty then s
  else count 0x0412 0 ((gone.map fun e => e.2.2.length - 4).sum)
    (setCirc c { x with taken := x.taken.filter fun e => !(e.1 == frame && e.2.1 != page) } s)

/-- Stream bytes taken for frame F by a page that does not become active are discarded (R145). -/
def dropTaken (frame page : Nat) (s : State) : State :=
  (s.cir.circuits.map (·.1)).foldl (dropTakenOf frame page) s

/-- PS_EVALUATION (R145): at the sync of line frame `frame` = F - 1. -/
def execPsEvaluation (frame : Nat) (s : State) : Res :=
  let f := (frame + 1) % 2 ^ 32
  let named := match s.cir.announce with | some (g, _) => g == f | none => false
  let s1 := { s with cir := { s.cir with commit := none } }
  if !crustUsed s then done s s
  else if s.cir.commit = some f then
    if allArmed s f then
      done s (evReport 0x0403 [word (f + at' (standbyPage s) 32)] { s1 with cir := { s1.cir with switchAt := some f } })
    else
      let l := changedCircuits s
      let bits (k : Nat) : Word := word (((List.range 64).map fun i => at' (b2n (l.contains (64 * k + i))) i).sum)
      done s (dropTaken f s.cir.active (evReport 0x0404 (word f :: (List.range 4).map bits) { s1 with cir := { s1.cir with
        abortAt := some (f, l) } }))
  else if named then done s (dropTaken f s.cir.active (ev 0x0405 s1))
  else done s s

/-- PAGE_ACTIVATION (R144, R145): at line frame `frame` = F the standby page becomes active, or the abort defects are
entered. -/
def execPageActivation (frame : Nat) (s : State) : Res :=
  if s.cir.switchAt = some frame then
    let changed := (List.range 256).filter fun c =>
      blocksOf s 0 c false != blocksOf s 1 c false
    let s1 := { s with cir := { s.cir with
      active := standbyPage s, switchAt := none, announce := none, moduleArmed := false
      slices := mapTab sliceReset (fun x => { x with sealed := false, valid := false, armed := false }) s.cir.slices } }
    let s2 := changed.foldl (fun t c => setDs (objCircuit c) { dsOf t (objCircuit c) with frames := 0, errors := 0 } t) s1
    done s (keepCurves s (clearAborts s2))
  else match s.cir.abortAt with
    | some (f, l) =>
      if f = frame then
        done s (l.foldl (fun t c => setAbort c true t) { s with cir := { s.cir with abortAt := none } })
      else done s s
    | none => done s s

/-! ### Upstream (R132-R136, R138) -/

/-- The page by which upstream frame M is filled at its take point (R145). -/
def takePage (s : State) (m : Nat) : Nat :=
  if s.cir.switchAt = some m || (s.cir.commit == some m && allArmed s m) then standbyPage s else s.cir.active

/-- Frames of an ingress queue are mapped until the stream holds `need` bytes: the stream, the frames taken, the rest,
the scrambler. -/
def mapFrames (need : Nat) : List Packet → BitVec 43 → List Byte → List Packet →
    List Byte × List Packet × List Packet × BitVec 43
  | [], h, st, got => (st, got, [], h)
  | p :: r, h, st, got =>
    if need ≤ st.length then (st, got, p :: r, h)
    else let x := gfpMap h p; mapFrames need r x.1 (st ++ x.2) (got ++ [p])

/-- The stream filled with idle frames. -/
def idleFill (need : Nat) (st : List Byte) : List Byte :=
  st ++ (List.replicate ((need - st.length + 3) / 4) (coreHeader 0)).flatten

def xorAll (l : List Byte) : Byte := l.foldl (· ^^^ ·) 0

/-- The circuit space of a stream in an upstream frame, in blocks (R132). -/
def circuitSpace (s : State) (m g : Nat) : Nat :=
  ((s.up.grants.filter fun x => x.frame == m && x.gs == g && x.circuit).map (·.length)).sum * 50

/-- The offsets of a circuit's upstream blocks in a page, with their stream, in ascending order (R133). -/
def upBlocks (s : State) (page c : Nat) : List (Nat × Nat) :=
  (runsOf s page c true).flatMap fun r => (List.range r.count).map fun k => (r.gs, r.first + k)

/-- Mapped blocks beyond the circuit space of frame M are counted, as head-end shortfall (R132). -/
def ungranted (m page c : Nat) (s : State) : State :=
  let bad := (upBlocks s page c).filter fun b => circuitSpace s m b.1 ≤ b.2
  if bad.isEmpty then s
  else
    let s1 := count 0x0411 0 bad.length (tapAdd (objCircuit c) (fun a => { a with shortfall := a.shortfall + bad.length }) s)
    (bad.map (·.1)).eraseDups.foldl (fun t g => gsErrored m g t) s1

/-- A host frame mapped into a circuit is reported at the take point; no stamp is taken of it (R301, R388). -/
def circuitFinal (s : State) (p : Packet) : State :=
  txFinal p 0 0xFF none 0 (match p.tx with
    | some q => if q.stamp then ev 0x0C0D s else s
    | none => s)

/-- The path overhead of an upstream frame (R133-R135). -/
def pathHead' (m c : Nat) (fi : Bool) (s : State) : List Byte :=
  let x := circ s c
  [x.bipUp, BitVec.ofNat 8 (min 8 x.lastBip * 16 + b2n (circuitDefect s c) * 8 + b2n fi * 4), nth x.traceTx (m % 16) 0
  , BitVec.ofNat 8 m]

/-- One circuit's payload of upstream frame M is taken (R135, R136, R138). -/
def takeCircuit (m c : Nat) (s : State) : State :=
  let page := takePage s m
  let n := blocksOf s page c true
  let x := circ s c
  if n = 0 || !on s (19 + c % 16) then s
  else
    let need := payloadBytes n
    let fi := !x.enabled || x.abort
    let (st, got, rest, h) := if fi then ([], [], x.ingress, x.txScr) else mapFrames need x.ingress x.txScr x.txRest []
    let stream := idleFill need st
    let payload := stream.take need
    let s1 := setCirc c { x with
      ingress := rest, txScr := h, txRest := stream.drop need, bipUp := xorAll payload
      taken := (x.taken.filter fun e => 0 ≤ framesTo s e.1) ++ [(m, page, pathHead' m c fi s ++ payload)] } s
    let s2 := tapAdd (objCircuit c) (fun a => { a with octUp := a.octUp + (got.map gfpLen).sum }) s1
    ungranted m page c (got.foldl circuitFinal s2)

/-- CIRCUIT_TAKE_POINT (R138): T(M), while LINE_OPER is set (R131). -/
def execCircuitTakePoint (frame : Nat) (s : State) : Res :=
  if s.pf.st = .pf5 then done s ((List.range 256).foldl (fun t c => takeCircuit frame c t) s) else done s s

/-! ### Downstream (R133-R138) -/

/-- A path trace meets R135: byte 0 its CRC-7, the rest printable. -/
def traceCrcOk (t : List Byte) : Bool :=
  t.length == 16 && be t 0 1 == 128 + crc7 (0x80 :: t.drop 1)

def traceOk (t : List Byte) : Bool := traceCrcOk t && (t.drop 1).all fun b => 0x20 ≤ b.toNat && b.toNat ≤ 0x7E

/-- The trace byte of a line frame is gathered; the third equal valid cycle is accepted and compared (R135). -/
def takeTrace (c frame : Nat) (b : Byte) (s : State) : State :=
  let x := circ s c
  let i := frame % 16
  let cyc := if i = 0 then [b] else if x.traceCyc.length = i then x.traceCyc ++ [b] else []
  if i = 15 && traceCrcOk cyc then
    let run := if cyc = x.traceLast then x.traceRun + 1 else 1
    let s1 := setCirc c { x with traceCyc := [], traceLast := cyc, traceRun := run
                                 traceRx := if run = 3 then cyc else x.traceRx } s
    if run = 3 && !x.traceExp.isEmpty && cyc != x.traceExp then evReport 0x040B (word c :: bytesWords 2 cyc) s1 else s1
  else setCirc c { x with traceCyc := if i = 15 then [] else cyc, traceRun := if i = 15 then 0 else x.traceRun } s

def popCount (b : Byte) : Nat := ((List.range 8).filter b.getLsbD).length

/-- One circuit's content of the line frame now received (R133-R135). -/
def extractCircuit (c frame : Nat) (content : List Byte) (s : State) : State :=
  let x := circ s c
  let payload := content.drop 4
  let st := nth content 1 0
  let cmp : Option Nat := match x.bipPrev with
    | some (f, p) => if (f + 1) % 2 ^ 32 = frame then some (popCount (p ^^^ nth content 0 0)) else none
    | none => none
  let seqOk := nth content 3 0 == BitVec.ofNat 8 frame
  let s1 := setCirc c { x with
    rxStream := x.rxStream ++ payload
    bipPrev := if s.frm.crustOk then some (frame, xorAll payload) else none
    lastBip := cmp.getD x.lastBip
    seen := some (seqOk, st.getLsbD 2, st.getLsbD 3) } s
  let s2 := if seqOk then s1 else ev 0x040A s1
  let s3 := match cmp with
    | some e => perfBlock (objCircuit c) (0 < e || !seqOk) (0 < st.toNat / 16)
        (dsTake (objCircuit c) e (count 0x0409 0 e s2))
    | none => s2
  takeTrace c frame (nth content 2 0) s3

/-- CIRCUIT_FRAME_EXTRACTED (R135): in PF5, by the active page. -/
def execCircuitFrameExtracted (circuit frame : Nat) (content : List Byte) (s : State) : Res :=
  let n := blocksOf s s.cir.active circuit false
  if crustUsed s && s.pf.st == .pf5 && circuit < 256 && frame == s.frm.frame.toNat && 0 < n && content.length == 48 * n then
    if on s (19 + circuit % 16) then done s (extractCircuit circuit frame content s)
    else done s (offDomainDiscard 0x04 0 (circuit % 16) n s)
  else done s s

/-- Delineation of a circuit's stream up to its next client data frame (R137, G.7041 with DELTA = 1). -/
def delineate : Nat → Nat → State → State
  | 0, _, s => s
  | fuel + 1, c, s =>
    let x := circ s c
    if x.rxStream.length < 4 then s
    else match x.gfp with
      | .hunt =>
        match coreCheck x.rxStream with
        | some pli =>
          if x.rxStream.length < 4 + areaLen pli then s
          else delineate fuel c (setCirc c { x with
            gfp := .presync, rxStream := x.rxStream.drop (4 + areaLen pli)
            rxScr := (scramble false x.rxScr (slice x.rxStream 4 (areaLen pli))).1 } s)
        | none => delineate fuel c (setCirc c { x with rxStream := x.rxStream.drop 1 } s)
      | .presync => delineate fuel c (setCirc c { x with gfp := if (coreCheck x.rxStream).isSome then .sync else .hunt } s)
      | .sync =>
        let good := coreCheck x.rxStream
        match (if good.isSome then good else coreCorrect x.rxStream) with
        | none => ev 0x040E (ev 0x040D (setCirc c { x with gfp := .hunt, rxStream := x.rxStream.drop 1 } s))
        | some pli =>
          if x.rxStream.length < 4 + areaLen pli then s
          else
            let s0 := if good.isSome then s else ev 0x040C s
            let (h, area) := scramble false x.rxScr (slice x.rxStream 4 (areaLen pli))
            let y := { x with rxStream := x.rxStream.drop (4 + areaLen pli), rxScr := h }
            if pli < 4 then delineate fuel c (setCirc c y s0)
            else match gfpFrame area with
              | none => ev 0x040E (setCirc c y s0)
              | some b =>
                let p : Packet := { newPacket .line 0 b s.frm.rxNs s.frm.rxFrac with circuit := some c, delivery := .circuit }
                setCirc c { y with done := y.done ++ [(s.frm.frame.toNat, p)] } s0

/-- GFP_FRAME_RECEIVED (R137): the next frame of the stream is delineated and checked. -/
def execGfpFrameReceived (circuit : Nat) (s : State) : Res :=
  if circuit < 256 && on s (19 + circuit % 16) then
    done s (delineate (2 * (circ s circuit).rxStream.length) circuit s)
  else done s s

/-- A frame of a circuit reaches its egress queue, or is discarded (R131, R139, R148). -/
def releaseFrame (c : Nat) (s : State) (p : Packet) : State :=
  match (circ s c).egress, chooseQuad s with
  | some _, some k =>
    if circuitDefect s c || s.pf.st != .pf5 then ev 0x0410 s
    else
      let s1 := setCirc c { circ s c with egressQ := (circ s c).egressQ ++ [{ p with quadrant := k }] } s
      tapAdd (objCircuit c) (fun a => { a with octDown := a.octDown + gfpLen p })
        { s1 with cir := { s1.cir with relOrder := s1.cir.relOrder ++ [c] } }
  | some _, none => if circuitDefect s c || s.pf.st != .pf5 then ev 0x0410 s else offDomainDiscard 0x04 1 0 1 s
  | none, _ => ev 0x0410 s

/-- CIRCUIT_RELEASE_POINT (R138): the frames completed in line frame `frame` are released. -/
def execCircuitReleasePoint (frame : Nat) (s : State) : Res :=
  done s ((s.cir.circuits.map (·.1)).foldl (fun t c =>
    let x := circ t c
    let due := x.done.filter fun e => signed 32 (wrap 32 ((e.1 : Int) - frame)) ≤ 0
    (due.map (·.2)).foldl (releaseFrame c)
      (setCirc c { x with done := x.done.filter fun e => 0 < signed 32 (wrap 32 ((e.1 : Int) - frame)) } t)) s)

/-! ### Defects judged once per line frame (R147) -/

/-- A circuit's runs of line frames after this one's observations (R147). -/
def judgedRuns (sec seqOk fi rdi : Bool) (x : Circuit) : Circuit :=
  let bad := x.gfp != .sync
  let run (b : Bool) (n : Nat) := if b then n + 1 else 0
  { x with
    seen := none, runBad := run bad x.runBad, runSeq := run (!seqOk) x.runSeq, runGood := run (!bad && seqOk) x.runGood
    runFi1 := run (fi && !sec) x.runFi1, runFi0 := run (!fi && !sec) x.runFi0
    runRdi1 := run (rdi && !sec) x.runRdi1, runRdi0 := run (!rdi && !sec) x.runRdi0 }

/-- PATH_LOF, PATH_AIS and PATH_RDI as the runs leave them (R147). -/
def lofNow (sec : Bool) (y : Circuit) : Bool := if y.lof then y.runGood < 2 else !sec && (2 ≤ y.runBad || 3 ≤ y.runSeq)

def aisNow (sec : Bool) (y : Circuit) : Bool := if sec then y.ais else if y.ais then y.runFi0 < 3 else 3 ≤ y.runFi1

def rdiNow (sec : Bool) (y : Circuit) : Bool := if sec then y.rdi else if y.rdi then y.runRdi0 < 3 else 3 ≤ y.runRdi1

/-- One circuit's observations of the line frame before this crust are judged. -/
def judgeCircuit (s : State) (c : Nat) : State :=
  match (circ s c).seen with
  | none => s
  | some (seqOk, fi, rdi) =>
    let sec := sectionDefect s
    let y := judgedRuns sec seqOk fi rdi (circ s c)
    let s1 := setPathDefect c 3 y.lof (lofNow sec y) (fun z => { z with lof := lofNow sec y }) (setCirc c y s)
    let s2 := setPathDefect c 4 y.ais (aisNow sec y) (fun z => { z with ais := aisNow sec y }) s1
    setPathDefect c 5 y.rdi (rdiNow sec y) (fun z => { z with rdi := rdiNow sec y }) s2

def judgeCircuits (s : State) : State := (s.cir.circuits.map (·.1)).foldl judgeCircuit s

/-- DS_WINDOW_END (R149): for the section, or a circuit. -/
def execDsWindowEnd (entity : Nat) (s : State) : Res :=
  if entity = 0 || (entity / 4096 == 1 && entity % 4096 < 256) then done s (dsEnd entity s) else done s s

/-! ### Group 0x04 (R430) -/

/-- Between a COMMIT and F (R144). -/
def switchPending (s : State) : Bool := s.cir.commit.isSome || s.cir.switchAt.isSome

/-- CIRCUIT_REQUEST (R141, R430). -/
def cmdCircuitRequest : IfCmd where
  opcode := 0x0401
  len := lenIs 2
  ready := fun s _ => s.pf.st == .pf5
  range := fun _ ws =>
    let w := arg ws 1
    onlyBits w 0x3FFFFFFFFF00FF && 1 ≤ fld w 31 16 && fld w 31 16 ≤ 8192 && 1 ≤ fld w 47 32 && fld w 47 32 ≤ 8192
  check := fun s _ => if switchPending s then some (0x8003, none) else none
  effect := fun _ ws s =>
    let w := arg ws 1
    (sendControl 1 1 (natBe 1 (fld w 7 0) ++ [0] ++ natBe 2 (fld w 31 16) ++ natBe 2 (fld w 47 32) ++ natBe 1 (fld w 53 48)
      ++ [0]) s, .done)

def execCircuitRequest (ch : Nat) (s : State) : Res := done s (runIf cmdCircuitRequest ch s)

/-- CIRCUIT_RELEASE (R141, R430). -/
def cmdCircuitRelease : IfCmd where
  opcode := 0x0402
  len := lenIs 2
  ready := fun s _ => s.pf.st == .pf5
  range := fun _ ws => onlyBits (arg ws 1) 0xFF
  check := fun s _ => if switchPending s then some (0x8003, none) else none
  effect := fun _ ws s => (sendControl 1 2 (natBe 1 (fld (arg ws 1) 7 0) ++ [0, 0, 0]) s, .done)

def execCircuitRelease (ch : Nat) (s : State) : Res := done s (runIf cmdCircuitRelease ch s)

/-- The rate of an egress in 1,000 b/s (R139). -/
def egressRate (s : State) (port : Nat) : Nat :=
  if port < 68 then (if (portLanes s (port - 64)).isEmpty then 0 else modeRate s.prt.mode * 8000) else share s (port - 68)

/-- CIRCUIT_BIND (R139, R392, R430). -/
def cmdCircuitBind : IfCmd where
  opcode := 0x0403
  len := lenIs 2
  domains := fun ws => [19 + fld (arg ws 1) 7 0 % 16]
  range := fun s ws =>
    let w := arg ws 1
    let e := fld w 15 8
    let r := rxRing s (fld w 26 16)
    onlyBits w 0x7F07FFFFFF && 1 ≤ fld w 38 32 && fld w 38 32 ≤ 64 && (e == 0xFF || (64 ≤ e && e ≤ 83))
      && (!isGroup e || (r.st == .running && ringFrames r && 68 + ringGroup r == e))
  check := fun s ws =>
    let w := arg ws 1
    let c := fld w 7 0
    let e := fld w 15 8
    let total := (((boundCircuits s e).filter (· != c)).map (circuitRate s)).sum + circuitRate s c
    if e != 0xFF && egressRate s e < total then some (0x8007, none) else none
  effect := fun _ ws s =>
    let w := arg ws 1
    let c := fld w 7 0
    let e := fld w 15 8
    let x := circ s c
    if e = 0xFF then
      let s1 := setCirc c { x with egress := none, q := fld w 38 32, egressQ := [] } s
      let s2 := { s1 with cir := { s1.cir with relOrder := s1.cir.relOrder.filter (· != c) } }
      (keepCurves s (discardFrames x.egressQ false (count 0x0410 0 x.egressQ.length s2)), .done)
    else (keepCurves s (setCirc c { x with egress := some e, ring := fld w 26 16, q := fld w 38 32 } s), .done)

def execCircuitBind (ch : Nat) (s : State) : Res := done s (runIf cmdCircuitBind ch s)

/-- CIRCUIT_ENABLE (R135, R430). -/
def cmdCircuitEnable : IfCmd where
  opcode := 0x0404
  len := lenIs 2
  domains := fun ws => [19 + fld (arg ws 1) 7 0 % 16]
  range := fun _ ws => onlyBits (arg ws 1) 0x1FF
  effect := fun _ ws s =>
    let c := fld (arg ws 1) 7 0
    (setCirc c { circ s c with enabled := bit (arg ws 1) 8 } s, .done)

def execCircuitEnable (ch : Nat) (s : State) : Res := done s (runIf cmdCircuitEnable ch s)

/-- CIRCUIT_TRACE (R135, R430). -/
def cmdCircuitTrace : IfCmd where
  opcode := 0x0405
  len := lenIs 4
  domains := fun ws => [19 + fld (arg ws 1) 7 0 % 16]
  range := fun _ ws => onlyBits (arg ws 1) 0x1FF && traceOk (wordsBytes [arg ws 2, arg ws 3])
  effect := fun _ ws s =>
    let c := fld (arg ws 1) 7 0
    let t := wordsBytes [arg ws 2, arg ws 3]
    (setCirc c (if bit (arg ws 1) 8 then { circ s c with traceExp := t } else { circ s c with traceTx := t }) s, .done)

def execCircuitTrace (ch : Nat) (s : State) : Res := done s (runIf cmdCircuitTrace ch s)

/-- DS_THRESHOLD (R149, R430): a new window starts. -/
def cmdDsThreshold : IfCmd where
  opcode := 0x0406
  len := lenIs 2
  range := fun _ ws =>
    let e := fld (arg ws 1) 15 0
    let k := fld (arg ws 1) 19 16
    onlyBits (arg ws 1) 0xFFFFF && (e == 0 || (0x1000 ≤ e && e ≤ 0x10FF)) && 5 ≤ k && k ≤ 9
  effect := fun _ ws s =>
    let e := fld (arg ws 1) 15 0
    (setDs e { dsOf s e with k := fld (arg ws 1) 19 16, frames := 0, errors := 0 } s, .done)

def execDsThreshold (ch : Nat) (s : State) : Res := done s (runIf cmdDsThreshold ch s)

/-- CIRCUIT_STATUS (R430). -/
def cmdCircuitStatus : IfCmd where
  opcode := 0x0407
  len := lenIs 2
  domains := fun ws => [19 + fld (arg ws 1) 7 0 % 16]
  range := fun _ ws => onlyBits (arg ws 1) 0xFF
  effect := fun _ ws s =>
    let c := fld (arg ws 1) 7 0
    let x := circ s c
    let d := b2n s.line.los + at' (b2n s.cir.lof) 1 + at' (b2n x.ds.declared) 2 + at' (b2n x.lof) 3 + at' (b2n x.ais) 4
      + at' (b2n x.rdi) 5 + at' (b2n x.abort) 6
    let down := blocksOf s s.cir.active c false
    let up := blocksOf s s.cir.active c true
    (s, .data ([word (d + at' (b2n x.enabled) 7 + at' (x.egress.getD 0xFF) 8 + at' (b2n (0 < down)) 16), word (down + at' up 32)]
      ++ bytesWords 2 (pad 16 x.traceRx)))

def execCircuitStatus (ch : Nat) (s : State) : Res := done s (runIf cmdCircuitStatus ch s)

/-- PAGE_READ (R430). -/
def cmdPageRead : IfCmd where
  opcode := 0x0408
  len := lenIs 1
  effect := fun _ _ s =>
    let f := match s.cir.announce with | some (f, _) => f | none => 0
    (s, .data [word (s.cir.active + at' (b2n s.cir.announce.isSome) 1 + at' (b2n s.cir.commit.isSome) 2
        + at' (sliceBits fun k => (slice' s k).armed) 16 + at' (sliceBits (takesPart s)) 32)
      , word (sliceBits fun k => (slice' s k).valid), word f])

def execPageRead (ch : Nat) (s : State) : Res := done s (runIf cmdPageRead ch s)

end Sys2Proof.Machine
end

