-- ==== Sys2Proof/Machine/Proofing.lean ====
section
/-! DEFINITION. Crust messages, the proofing states and their timers, authentication, and the key-epoch switch
(R104-R122). -/

namespace Sys2Proof.Machine

/-! ### Messages (R111-R113) -/

/-- The states in which a message type is accepted, none for an unlisted type (R113). -/
def acceptedIn (type : Nat) : List PfSt :=
  match type with
  | 1 => [.pf1, .pf2, .pf3, .pf4, .pf5, .pf6]
  | 2 => [.pf1, .pf2, .pf3]
  | 3 => [.pf2]
  | 4 => [.pf3, .pf5]
  | 5 => [.pf4]
  | 6 => [.pf4]
  | 7 => [.pf5]
  | 8 => [.pf3, .pf4, .pf5]
  | 9 => [.pf0, .pf1, .pf2, .pf3, .pf4, .pf5, .pf6]
  | 10 => [.pf7]
  | _ => []

/-- The addressing that R113 gives a type: broadcast where the flag says so. -/
def addressingOk (type : Nat) (broadcast : Bool) : Bool :=
  if type = 1 ∨ type = 2 ∨ type = 3 ∨ type = 10 then broadcast
  else if type = 4 ∨ type = 5 ∨ type = 6 ∨ type = 7 then !broadcast
  else true

/-- The message types that carry a serial (R112). -/
def serialType (type : Nat) : Bool := type == 3 || type == 9 || type == 10

/-- The device serial as its 8 bytes (R115). -/
def serialBytes (s : State) : List Byte := natBe 8 s.fw.serial.toNat

/-- The terminal ID as its byte. -/
def tidByte (s : State) : List Byte := natBe 1 s.pf.tid

/-- A message is addressed to the module (R112). -/
def addressed (s : State) (m : MsgIn) : Bool :=
  if (nth m 1 0).getLsbD 7 then !serialType (be m 0 1) || slice m 4 8 == serialBytes s
  else !pfUnregistered s.pf.st && be m 2 1 == s.pf.tid

/-- ACK of a message (R114). -/
def ack (m : MsgIn) (s : State) : State := queueMsg 0x87 (m.take 1 ++ slice m 3 1) s

/-- BURST_PROFILE (R113): a field out of range is counted and ignored. -/
def takeProfile (m : MsgIn) (s : State) : State :=
  if 3 < be m 4 1 || be m 5 1 < 4 || 64 < be m 5 1 then ev 0x031A s
  else { s with pf := { s.pf with
    profiles := minsert s.pf.profiles (be m 4 1) { n := be m 5 1, levels := BitVec.ofNat 64 (be m 6 8) } } }

/-- DISCOVERY_PARAMS (R107, R113). -/
def takeDiscovery (m : MsgIn) (s : State) : State :=
  if 33750000 < be m 4 4 then ev 0x031D s
  else if 15 < be m 8 1 then ev 0x031A s
  else { s with pf := { s.pf with preEqd := be m 4 4, backoffMax := be m 8 1 } }

/-- ASSIGN_ID (R104). -/
def takeAssign (m : MsgIn) (s : State) : State :=
  let t := pfGo .pf3 false { s with pf := { s.pf with tid := be m 12 1 } }
  { t with pf := { t.pf with tRange := true } }

/-- RANGING_TIME (R104, R107). -/
def takeRanging (m : MsgIn) (s : State) : State :=
  if 33750000 < be m 4 4 then ev 0x031D s
  else
    let s1 := ack m { s with pf := { s.pf with eqd := be m 4 4 } }
    if s1.pf.st = .pf3 then
      let t := pfGo .pf4 false s1
      { t with pf := { t.pf with tAuth := true } }
    else s1

/-- AUTH_CHALLENGE (R115, R116): only another N_H starts the exchange again; the earlier N_T goes with its response. -/
def takeChallenge (m : MsgIn) (s : State) : State :=
  let nH := slice m 4 32
  if s.pf.rejecting then ev 0x031A s
  else if s.pf.nH = nH ∨ cipherReady s = false then s
  else
    let d1 := draw s
    let d2 := draw d1.2
    let nT := natBe 8 d1.1.toNat ++ natBe 8 d2.1.toNat
    let kA := kdf s.fw.kId "CHNL-AUTH" (serialBytes s ++ nH ++ nT)
    let tT := cmac kA (0x54 :: (serialBytes s ++ tidByte s ++ nH ++ nT))
    let s1 := loadKey slotAuth 0 kA d2.2
    queueMsg 0x82 (nT ++ tT) { s1 with pf := { s1.pf with
      nH := nH, nT := nT, upQ := s1.pf.upQ.filter fun x => x.type != 0x82 } }

/-- T_H of R115, under a K_AUTH. -/
def tagH (s : State) (kA : List Byte) : List Byte :=
  cmac kA (0x48 :: (serialBytes s ++ tidByte s ++ s.pf.nT ++ s.pf.nH))

/-- AUTH_CONFIRM (R104, R116). -/
def takeConfirm (m : MsgIn) (s : State) : State :=
  match loadedKey s slotAuth with
  | some kA =>
    if s.pf.rejecting || !s.pf.responded then ev 0x031A s
    else if slice m 4 16 = tagH s kA then
      let kS := kdf s.fw.kId "CHNL-SESS" (serialBytes s ++ tidByte s ++ s.pf.nH ++ s.pf.nT)
      let s1 := pfGo .pf5 false (eraseKey slotAuth (loadKey slotSess 0 kS s))
      { s1 with pf := { s1.pf with nH := [], nT := [] } }
    else
      let s1 := queueMsg 0x83 [1] (ev 0x031F s)
      { s1 with pf := { s1.pf with rejecting := true, tAuth := false, tReject := true } }
  | none => ev 0x031A s

/-! ### Epochs (R117-R122) -/

/-- The old epoch is retired: frames still open under it are discarded and its keys erased (R120, R122). -/
def retireOld (s : State) : State :=
  match s.ke.old with
  | none => s
  | some e =>
    let mine (x : Nat × OpenFrag) : Bool := x.2.encrypted && x.2.epoch == e.bit
    let gone := s.up.frags.filter mine
    let s1 := count 0x0324 0 gone.length { s with up := { s.up with frags := s.up.frags.filter fun x => !mine x } }
    let s2 := eraseEpochKeys e.bit (discardFrames (gone.map fun x => x.2.packet) false s1)
    { s2 with ke := { s2.ke with old := none, retireAt := none } }

/-- An old epoch that holds the keys of this bit is retired before they are written. -/
def retireBit (b : Bool) (s : State) : State :=
  match s.ke.old with
  | some e => if e.bit = b then retireOld s else s
  | none => s

/-- The bit of the epoch in force, or of the first one whose derivations run. -/
def bitInForce (s : State) : Option Bool :=
  match s.ke.current with
  | some e => some e.bit
  | none => s.ke.first.map (·.bit)

/-- EPOCH_KEY (R117, R122): the first comes into force once derived; each later one loads the standby epoch. -/
def takeEpochKey (m : MsgIn) (s : State) : State :=
  let e : EpochKeys := { epoch := be m 4 4, bit := (nth m 8 0).getLsbD 0 }
  match loadedKey s slotSess with
  | none => ev 0x0326 s
  | some kS =>
    if (match s.ke.lastE with | some l => decide (e.epoch ≤ l) | none => false) then ev 0x0326 s
    else
      let kE := kdf kS "CHNL-EPOCH" (natBe 4 e.epoch ++ slice m 9 32)
      let s1 := ack m { s with ke := { s.ke with lastE := some e.epoch } }
      match bitInForce s1 with
      | none => loadKey (slotEpoch e.bit) 0 kE { s1 with ke := { s1.ke with first := some e } }
      | some b =>
        if e.bit = b then { s1 with ke := { s1.ke with standby := some e, armed := 0 } }
        else
          let s2 := retireBit e.bit s1
          loadEpochKeys e.bit (loadKey (slotEpoch e.bit) 0 kE
            { s2 with ke := { s2.ke with standby := some e, armed := 0 } })

/-! ### The catalogue -/

/-- What an accepted message does. -/
def actOn (m : MsgIn) (s : State) : State :=
  match be m 0 1 with
  | 1 => takeProfile m s
  | 2 => takeDiscovery m s
  | 3 => takeAssign m s
  | 4 => takeRanging m s
  | 5 => takeChallenge m s
  | 6 => takeConfirm m s
  | 7 => takeEpochKey m s
  | 8 => pfGo .pf1 false s
  | 9 => pfGo .pf7 false s
  | 10 => pfGo .pf0 false (saveStore (fun x => { x with emergency := false }) s)
  | _ => s

/-- A crust message is taken (R112, R113): addressed, accepted in the state, and no repetition. -/
def takeMessage (m0 : MsgIn) (s : State) : State :=
  let m := pad 48 m0
  let type := be m 0 1
  let bc := (nth m 1 0).getLsbD 7
  if !(crustUsed s && pfRuns s && addressed s m) then s
  else if !((acceptedIn type).contains s.pf.st && addressingOk type bc) then ev 0x031A s
  else
    let tid := if bc then 0 else be m 2 1
    if s.pf.recent.any fun r => r.1 == type && r.2.1 == b2n bc && r.2.2.1 == tid && r.2.2.2.1 == be m 3 1 then ev 0x031B s
    else
      pfFollow (actOn m { s with pf := { s.pf with recent := (type, b2n bc, tid, be m 3 1, 0) :: s.pf.recent } })

/-- A row of the catalogue takes the messages of its own type. -/
def takeTyped (type : Nat) (m : MsgIn) (s : State) : State := if be m 0 1 = type then takeMessage m s else s

/-- BURST_PROFILE (R113). -/
def execBurstProfile (m : MsgIn) (s : State) : Res := done s (takeTyped 1 m s)

/-- DISCOVERY_PARAMS (R113). -/
def execDiscoveryParams (m : MsgIn) (s : State) : Res := done s (takeTyped 2 m s)

/-- ASSIGN_ID (R104). -/
def execAssignId (m : MsgIn) (s : State) : Res := done s (takeTyped 3 m s)

/-- RANGING_TIME (R107). -/
def execRangingTime (m : MsgIn) (s : State) : Res := done s (takeTyped 4 m s)

/-- AUTH_CHALLENGE (R116). -/
def execAuthChallenge (m : MsgIn) (s : State) : Res := done s (takeTyped 5 m s)

/-- AUTH_CONFIRM (R116). -/
def execAuthConfirm (m : MsgIn) (s : State) : Res := done s (takeTyped 6 m s)

/-- EPOCH_KEY (R117). -/
def execEpochKey (m : MsgIn) (s : State) : Res := done s (takeTyped 7 m s)

/-- DEREGISTER (R104). -/
def execDeregister (m : MsgIn) (s : State) : Res := done s (takeTyped 8 m s)

/-- EMERGENCY_STOP (R104). -/
def execEmergencyStop (m : MsgIn) (s : State) : Res := done s (takeTyped 9 m s)

/-- EMERGENCY_RELEASE (R104). -/
def execEmergencyRelease (m : MsgIn) (s : State) : Res := done s (takeTyped 10 m s)

/-! ### Discovery and timers (R104, R105) -/

/-- PF2_DISCOVERY (R104). -/
def execPf2Discovery (s : State) : Res :=
  if pfRuns s && s.pf.st == .pf1 && !s.pf.profiles.isEmpty && lineTx s && s.line.rootLocked && !s.pf.tHoldoff then
    done s (pfGo .pf2 false s)
  else done s s

/-- T_RANGE_EXPIRY (R104, R105). -/
def execTRangeExpiry (s : State) : Res :=
  if pfRuns s && s.pf.st == .pf3 && s.pf.tRange then done s (pfFollow (pfGo .pf2 false (ev 0x0320 s))) else done s s

/-- T_AUTH_EXPIRY (R104, R105). -/
def execTAuthExpiry (s : State) : Res :=
  if pfRuns s && s.pf.st == .pf4 && !s.pf.rejecting && s.pf.tAuth then
    done s (pfFollow (pfGo .pf2 false (ev 0x0320 s)))
  else done s s

/-- The module leaves rejecting for PF1, and T_HOLDOFF starts (R104). -/
def endRejecting (s : State) : State :=
  let t := pfGo .pf1 false s
  pfFollow { t with pf := { t.pf with tHoldoff := true } }

/-- T_REJECT_EXPIRY (R104, R105). -/
def execTRejectExpiry (s : State) : Res :=
  if pfRuns s && s.pf.st == .pf4 && s.pf.rejecting && s.pf.tReject then done s (endRejecting s) else done s s

/-- T_LOSS_EXPIRY (R104, R105). -/
def execTLossExpiry (s : State) : Res :=
  if pfRuns s && s.pf.st == .pf6 && s.pf.tLoss then done s (pfFollow (pfGo .pf0 true (ev 0x0320 s))) else done s s

/-- T_HOLDOFF_EXPIRY (R105). -/
def execTHoldoffExpiry (s : State) : Res := done s { s with pf := { s.pf with tHoldoff := false } }

/-! ### The key-epoch switch (R119-R122) -/

/-- KE_CMD ANNOUNCE (R119, R122). -/
def takeKeAnnounce (frame : Nat) (epoch : Bool) (s : State) : State :=
  match s.ke.current with
  | some e => if e.bit = epoch then ev 0x03E1 s
      else if (match s.ke.announce with | some (f, _) => f == frame | none => false) then s
      else { s with ke := { s.ke with announce := some (frame, epoch), armed := 0, commit := none } }
  | none => { s with ke := { s.ke with announce := some (frame, epoch), armed := 0, commit := none } }

/-- KE_CMD COMMIT, valid only in the crust of KE_FRAME - 2 (R77, R120). -/
def takeKeCommit (inFrame frame : Nat) (s : State) : State :=
  if (inFrame + 2) % 2 ^ 32 = frame % 2 ^ 32 then { s with ke := { s.ke with commit := some (frame % 2 ^ 32) } }
  else ev 0x030C s

/-- KE_CMD CANCEL (R122): every core is disarmed and the standby keys are erased. -/
def takeKeCancel (s : State) : State :=
  let s1 := match s.ke.standby, s.ke.current with
    | some e, some c => if e.bit = c.bit then s else eraseEpochKeys e.bit s
    | some e, none => eraseEpochKeys e.bit s
    | none, _ => s
  { s1 with ke := { s1.ke with standby := none, armed := 0, announce := none, commit := none, switchAt := none } }

/-- KE_ANNOUNCE (R119). -/
def execKeAnnounce (frame : Nat) (epoch : Bool) (s : State) : Res :=
  if crustUsed s then done s (takeKeAnnounce (frame % 2 ^ 32) epoch s) else done s s

/-- KE_COMMIT (R120). -/
def execKeCommit (inFrame frame : Nat) (s : State) : Res :=
  if crustUsed s then done s (takeKeCommit inFrame frame s) else done s s

/-- KE_CANCEL (R122). -/
def execKeCancel (s : State) : Res := if crustUsed s then done s (takeKeCancel s) else done s s

/-- The cores that are ON, a bit each. -/
def coreMaskOn (s : State) : BitVec 8 := BitVec.ofNat 8 (((List.range 8).map fun k => at' (b2n (coreOn s k)) k).sum)

/-- Every core that takes part is armed, and one at least is ON (R119, R121). -/
def coresArmed (s : State) : Bool := coreMaskOn s != 0 && (coreMaskOn s &&& s.ke.armed) == coreMaskOn s

/-- KE_ARMED (R119): standby keys that are still missing are derived; with all of them, every ON core is armed. -/
def execKeArmed (s : State) : Res :=
  match s.ke.announce, s.ke.standby with
  | some (_, b), some e =>
    if e.bit = b ∧ bitInForce s ≠ some b ∧ cipherReady s = true ∧ (loadedKey s (slotEpoch b)).isSome = true then
      let missing := (encryptedTags s).filter fun t =>
        match lineSlot s t b with
        | some n => (keySlot s n).st != .loaded
        | none => true
      let s1 := missing.foldl (loadTagKey b) s
      if epochKeysLoaded s1 b then done s { s1 with ke := { s1.ke with armed := coreMaskOn s1 } } else done s s1
    else done s s
  | _, _ => done s s

/-- KE_EVALUATION (R121): at the sync of line frame `frame` = F - 1. -/
def execKeEvaluation (frame : Nat) (s : State) : Res :=
  let f := (frame + 1) % 2 ^ 32
  let named := match s.ke.announce with | some (g, _) => g == f | none => false
  if !(crustUsed s && named) then done s s
  else
    let s1 := { s with ke := { s.ke with commit := none } }
    let armed := coresArmed s && s.ke.standby.isSome
    let committed := s.ke.commit == some f
    if armed && committed then done s (ev 0x0321 { s1 with ke := { s1.ke with switchAt := some f } })
    else
      let s2 := if armed then s1 else ev 0x0322 s1
      done s (if committed then s2 else ev 0x0323 s2)

/-- EPOCH_ACTIVATION (R120): at line frame `frame` = F upstream changes to the standby epoch. -/
def execEpochActivation (frame : Nat) (s : State) : Res :=
  if s.ke.switchAt = some frame then
    match s.ke.standby with
    | some e => done s { s with ke := { s.ke with
        old := s.ke.current, current := some e, standby := none, since := frame, expired := false, armed := 0, switchAt := none
        retireAt := if s.ke.current.isSome then some ((frame + 16) % 2 ^ 32) else none
        announce := match s.ke.announce with
          | some (g, b) => if g = frame then none else some (g, b)
          | none => none } }
    | none => done s { s with ke := { s.ke with switchAt := none } }
  else done s s

/-- KE_RETIRE (R120, R122): at F + 16. -/
def execKeRetire (frame : Nat) (s : State) : Res :=
  if s.ke.retireAt = some frame then done s (retireOld s) else done s s

/-- EPOCH_KEY_DERIVED (R117): the first epoch comes into force, with the keys of every encrypted tag. -/
def execEpochKeyDerived (s : State) : Res :=
  match s.ke.first with
  | some e => done s (loadEpochKeys e.bit { s with ke := { s.ke with
      current := some e, first := none, since := s.frm.frame.toNat, expired := false } })
  | none => done s s

end Sys2Proof.Machine
end

