-- ==== Sys2Proof/Machine/Framer.lean ====
section
/-! DEFINITION. The downstream framer: codewords, the sync hunt, the crust with its grants, and the crumb (R69-R93). -/

namespace Sys2Proof.Machine

/-- Symbols of a line frame (R65). -/
def frameSymbols : Nat := 14062500

/-- The downstream framer decodes: its domain ON, sync held (of the line, or of a loop, R57). -/
def framing (s : State) : Bool := on s 11 && s.frm.lineSync

/-- What is received is the line, not a loopback (R57). -/
def onLine (s : State) : Bool := s.line.loop.isNone

/-! ### Units (R65, R69) -/

/-- Packet delineation is lost: one event, and the frame being assembled is discarded (R90). -/
def loseDelineation (s : State) : State :=
  let s1 := { s with frm := { s.frm with
    delineated := false, firstHdr := false, openTag := none
    reasm := match s.frm.openTag with
      | some t => merase s.frm.reasm t
      | none => s.frm.reasm } }
  ev 0x0313 s1

/-- The unit carries blocks of the packet region (R65, R85). -/
def unitHasPackets (s : State) (unit : Nat) : Bool := s.frm.region < 50 * unit

/-- CODEWORD_DECODED (R69): units come in order; their bits enter the section BIP-32 (R79). -/
def execCodewordDecoded (unit : Nat) (outcome : CwOutcome) (bip : BitVec 32) (s : State) : Res :=
  if framing s && 1 ≤ unit && unit ≤ 1249 then
    let s1 := { s with frm := { s.frm with
      bip := s.frm.bip ^^^ bip, units := if unit = s.frm.units + 1 then unit else s.frm.units } }
    match outcome with
    | .clean => done s s1
    | .corrected => done s (ev 0x0308 s1)
    | .uncorrectable =>
      let s2 := ev 0x0309 s1
      done s (if unitHasPackets s2 unit && s2.frm.delineated then loseDelineation s2 else s2)
  else done s s

/-! ### Sync hunt (R70-R73) -/

/-- The CRC-32 of a crust holds (R76). -/
def crustCrcOk (c : CrustIn) : Bool :=
  c.length == 1376 && (crc32 (c.take 60 ++ [0, 0, 0, 0] ++ c.drop 64)).toNat == be c 60 4

/-- The hunt runs: LINE_RX set, or LOOP_RX, and no sync (R71). -/
def hunting (s : State) : Bool := on s 11 && s.line.lineRx && !s.frm.lineSync

/-- SYNC_PATTERN_MATCH (R71): at a position that no candidate predicts. -/
def execSyncPatternMatch (pos : Nat) (s : State) : Res :=
  if !hunting s || s.frm.cands.any fun c => c.1 + frameSymbols == pos then done s s
  else if 8 ≤ s.frm.cands.length then done s (ev 0x0303 s)
  else done s (ev 0x0301 { s with frm := { s.frm with cands := s.frm.cands ++ [(pos, 1)] } })

/-- A candidate's predicted position is checked (R71): at the third occurrence its crust must pass. -/
def checkCand (pos : Nat) (found : Bool) (crust : Option CrustIn) (s : State) : State :=
  match s.frm.cands.find? fun c => c.1 + frameSymbols == pos with
  | none => s
  | some c =>
    let others := s.frm.cands.filter (· != c)
    let good := found && (c.2 < 2 || (match crust with | some x => crustCrcOk x | none => false))
    if good then { s with frm := { s.frm with cands := others ++ [(pos, c.2 + 1)] } }
    else ev 0x0302 { s with frm := { s.frm with cands := others } }

/-- SYNC_PREDICTED_CHECK (R71, R73): for a candidate, or while in sync. -/
def execSyncPredictedCheck (pos : Nat) (found : Bool) (crust : Option CrustIn) (s : State) : Res :=
  if hunting s then done s (checkCand pos found crust s)
  else if framing s && pos == s.frm.syncPos + frameSymbols then
    let s1 := { s with frm := { s.frm with syncPos := pos, misses := if found then 0 else s.frm.misses + 1 } }
    if found then done s s1
    else
      let s2 := ev 0x0305 s1
      if 4 ≤ s2.frm.misses then done s (syncLost (ev 0x0306 s2)) else done s s2
  else done s s

/-- SYNC_ACQUIRED (R72): the candidate at its third occurrence becomes sync. -/
def execSyncAcquired (pos : Nat) (crust : CrustIn) (s : State) : Res :=
  if hunting s && crustCrcOk crust && s.frm.cands.contains (pos, 3) then
    let s1 := ev 0x0304 { s with frm := { s.frm with
      lineSync := true, cands := [], syncPos := pos, misses := 0, frame := BitVec.ofNat 32 (be crust 0 4), haveFrame := false
      units := 0, bip := 0, delineated := false, firstHdr := false } }
    done s (if onLine s1 then pfFollow { s1 with cir := { s1.cir with lofGood := 0 } } else s1)
  else done s s

/-! ### Grants (R81-R84, R99, R103, R109) -/

/-- A grant entry that is addressed to the module: its index, its word, whether it is the discovery grant. -/
structure Entry where
  index : Nat
  w : Word
  disc : Bool
  deriving DecidableEq, Repr

def Entry.start (e : Entry) : Nat := fld e.w 49 26

def Entry.length (e : Entry) : Nat := fld e.w 25 14

def Entry.gs (e : Entry) : Nat := fld e.w 55 50

def Entry.circuit (e : Entry) : Bool := bit e.w 11

def Entry.proofing (e : Entry) : Bool := bit e.w 9

/-- The profile that an entry names, where the module holds it (R103, R113). -/
def Entry.profile (s : State) (e : Entry) : Option Profile := mfind s.pf.profiles (fld e.w 13 12)

/-- Span of a proofing burst with preamble P (R84). -/
def proofingSpan (p : Nat) : Nat := p + 256 + 5544 + 128

/-- The granted span of an entry (R84). -/
def Entry.span (s : State) (e : Entry) : Nat :=
  let p := match e.profile s with
    | some x => 256 * x.n
    | none => 0
  if e.disc then 11250 * e.length
  else if e.proofing then proofingSpan p
  else p + 256 + 2290 + 11250 * e.length + 128

/-- The proofing state uses an addressed grant (R102, R103). -/
def stateUses (s : State) (e : Entry) : Bool :=
  match s.pf.st with
  | .pf2 => e.disc && e.proofing
  | .pf3 | .pf4 => !e.disc && e.proofing && e.length == 0 && !e.circuit
  | .pf5 => !e.disc
  | _ => false

/-- The checks of one grant (R83, R103). -/
def entryOk (s : State) (e : Entry) : Bool :=
  stateUses s e && (e.profile s).isSome && (e.disc || !e.proofing || (e.length == 0 && !e.circuit))
    && e.length ≤ 1249 && e.start + e.span s ≤ frameSymbols

/-- The entries of a grant map that are addressed to the module, in order, and how many fail their CRC-8 (R82). -/
def addressedEntries (s : State) (c : CrustIn) : List Entry × Nat :=
  let n := be c 18 1
  let disc := be c 30 1
  let raw := (List.range (min n 128)).map fun i => (i, slice c (64 + 8 * i) 8)
  let good := raw.filter fun e => crc8 (e.2.take 7) == be e.2 7 1
  let es := good.map fun e => ({ index := e.1, w := word (beNat e.2), disc := e.1 == disc } : Entry)
  (es.filter fun e => e.disc || (!pfUnregistered s.pf.st && fld e.w 63 56 == s.pf.tid), raw.length - good.length)

/-- Grants in START order; one that comes within 2,048 symbols of the one kept before it is put aside (R83). -/
def spaced (s : State) : List Entry → Option Nat → List Entry → List Entry → List Entry × List Entry
  | [], _, kept, gone => (kept, gone)
  | e :: r, prev, kept, gone =>
    if (match prev with | some p => decide (e.start < p + 2048) | none => false) then spaced s r prev kept (gone ++ [e])
    else spaced s r (some (e.start + e.span s)) (kept ++ [e]) gone

/-- A grant that the module does not use: counted, and the block of its stream is errored (R83, R103, R150). -/
def refuseEntry (frame : Nat) (s : State) (e : Entry) : State :=
  let s1 := ev 0x030F s
  if e.disc then s1 else gsErrored frame e.gs s1

/-- The delay d in use (R106). -/
def delayInUse (s : State) : Nat :=
  match s.pf.st with
  | .pf4 | .pf5 | .pf6 => s.pf.eqd
  | _ => s.pf.preEqd

/-- A discovery grant is answered, skipped, or too short (R109): r, and the state with the draws made. -/
def answerDiscovery (span window : Nat) (s : State) : Option Nat × State :=
  if 0 < s.pf.skip then (none, { s with pf := { s.pf with skip := s.pf.skip - 1 } })
  else if window < span then (none, ev 0x030F s)
  else
    let d1 := draw s
    let d2 := draw d1.2
    (some (256 * (d1.1.toNat % ((window - span) / 256 + 1))),
      { d2.2 with pf := { d2.2.pf with skip := d2.1.toNat % (s.pf.backoffMax + 1) } })

/-- A grant is stored, unless its build point has passed (R99); its account and its block follow (R132, R150, R237). -/
def storeGrant (frame r : Nat) (e : Entry) (s : State) : State :=
  let p := (e.profile s).getD { n := 4, levels := 0 }
  let base := ((s.up.grants.filter fun x => x.frame == frame && x.gs == e.gs && x.circuit).map (·.length)).sum * 50
  let g : Grant := { frame := frame, gs := e.gs, start := e.start + r, length := if e.disc then 0 else e.length
                     profile := fld e.w 13 12, circuit := e.circuit && !e.disc, need := bit e.w 10, proofing := e.proofing
                     message := bit e.w 8, discovery := e.disc, delay := delayInUse s, pre := 256 * p.n, levels := p.levels
                     r := r, base := base }
  let buildAt := symbolTime s (grantSymbols s g) - ((8000 * 2 ^ 32 * 225 : Nat) : Int)
  if timeReady s && buildAt < ((s.tmu.ns * 2 ^ 32 * 225 : Nat) : Int) then
    let s1 := ev 0x0310 s
    if e.disc then s1 else gsErrored frame e.gs s1
  else if !on s 12 then (if e.disc then s else gsErrored frame e.gs s)
  else
    let k := grantKey frame e.gs
    let up := { s.up with grants := s.up.grants ++ [g] }
    if e.disc then { s with up := up }
    else
      let short := match measured (gsContract s e.gs) frame with
        | some c => !e.proofing && decide (e.length < c.minBurst) && !up.shortGrant.contains k
        | none => false
      gsBlock frame e.gs { s with up := { up with
        granted := mput 0 up.granted k (mget 0 up.granted k + 2400 * e.length)
        shortGrant := if short then k :: up.shortGrant else up.shortGrant } }

/-- An entry that passed every check is used. -/
def useEntry (frame : Nat) (s : State) (e : Entry) : State :=
  if e.disc then
    let p := 256 * ((e.profile s).getD { n := 4, levels := 0 }).n
    match answerDiscovery (proofingSpan p) (11250 * e.length) s with
    | (some r, t) => storeGrant frame r e t
    | (none, t) => t
  else storeGrant frame 0 e s

/-- The grant map of the crust of line frame N (R80-R84): for upstream frame N + 2, judged by the state `s0` before this
crust. -/
def takeGrants (s0 : State) (n : Nat) (c : CrustIn) (s : State) : State :=
  let frame := (n + 2) % 2 ^ 32
  let (es, bad) := addressedEntries s0 c
  let ok := (es.filter (entryOk s0)).mergeSort fun a b => a.start < b.start || (a.start == b.start && a.index ≤ b.index)
  let (kept, gone) := spaced s0 ok none [] []
  let s1 := (es.filter fun e => !entryOk s0 e).foldl (refuseEntry frame) (count 0x030E 0 bad s)
  let s2 := (gone ++ kept.drop 16).foldl (refuseEntry frame) s1
  (kept.take 16).foldl (useEntry frame) s2

/-! ### The crust (R73-R80) -/

/-- The circuit region of the active page: the end of its last downstream run (R85). -/
def pageRegion (s : State) : Nat :=
  ((s.cir.slices.flatMap fun e => (e.2.page s.cir.active).filter (!·.up)).map fun r => r.first + r.count).foldl max 0

/-- Upstream frame m is at most 8 before line frame n. -/
def recentFrame (n m : Nat) : Bool := signed 32 (wrap 32 ((n : Int) - m)) ≤ 8

/-- 2^30 line frames lie between an epoch's coming into force and frame n (R118). -/
def epochOver (s : State) (n : Nat) : Bool :=
  let d := wrap 32 ((n : Int) - s.ke.since)
  s.ke.current.isSome && (s.ke.expired || (2 ^ 30 ≤ d && d < 2 ^ 31))

/-- A line frame begins: reassembly contexts and repetitions grow older, and the packet region begins with a header. -/
def beginFrame (n : Nat) (decoded : Bool) (region : Nat) (st : StampIn) (s : State) : State :=
  { s with
    frm := { s.frm with
      frame := BitVec.ofNat 32 n, haveFrame := true, crustOk := decoded, bip := 0, units := 0, region := region
      rxNs := st.ns, rxFrac := st.frac, delineated := true, firstHdr := false, offset := 0
      reasm := s.frm.reasm.map fun e => (e.1, { e.2 with idle := e.2.idle + 1 }) }
    ke := { s.ke with expired := epochOver s n }
    pf := { s.pf with recent := (s.pf.recent.map fun r => (r.1, r.2.1, r.2.2.1, r.2.2.2.1, r.2.2.2.2 + 1)).filter fun r =>
      r.2.2.2.2 ≤ 16 }
    up := { s.up with blocks := s.up.blocks.filter fun e => recentFrame n (e.1 / 64) } }

/-- The section BIP-32 comparison (R79), where line frame N - 1 was received whole. -/
def compareBip (sent : BitVec 32) (s : State) : State :=
  if s.frm.haveFrame && s.frm.units == 1249 then
    let e := ((List.range 32).filter (sent ^^^ s.frm.bip).getLsbD).length
    let s1 := count 0x030D 0 e s
    if onLine s then
      perfBlock 0 (0 < e) false (dsTake 0 e { s1 with up := { s1.up with rei := min 0xFFFF (s1.up.rei + e) } })
    else s1
  else s

/-- The header commands of a crust (R77, R80). -/
def headerCommands (n : Nat) (c : CrustIn) (s : State) : State :=
  let b := be c 28 1
  let ps := b / 64
  let ke := b / 4 % 4
  let s1 :=
    if ps = 1 then psAnnounce (be c 20 4) (b / 32 % 2) s
    else if ps = 2 then psCommit n (be c 20 4) s
    else if ps = 3 then psCancel s
    else s
  if ke = 1 then takeKeAnnounce (be c 24 4) (b / 2 % 2 == 1) s1
  else if ke = 2 then takeKeCommit n (be c 24 4) s1
  else if ke = 3 then takeKeCancel s1
  else s1

/-- The time of day of a crust, where it is usable (R78). -/
def todOf (c : CrustIn) : Option (Nat × Nat × Bool) :=
  let f := be c 29 1
  if 128 ≤ f ∧ be c 10 4 ≤ 999999999 then some (be c 4 6, be c 10 4, f / 64 % 2 == 1) else none

/-- The messages of a crust, in slot order. -/
def crustMessages (c : CrustIn) (s : State) : State :=
  (List.range 4).foldl (fun t m =>
    if be c 19 1 / 2 ^ (7 - m) % 2 = 1 then takeMessage (slice c (1088 + 48 * m) 48) t else t) s

/-- The end of every crust: LOF may clear, and the frame-based conditions are judged (R147). -/
def crustEnd (decoded : Bool) (s : State) : State :=
  if !onLine s then s
  else
    let s1 := { s with cir := { s.cir with lofGood := if decoded then s.cir.lofGood + 1 else 0 } }
    let s2 := if s1.cir.lof && 8 ≤ s1.cir.lofGood then setLof false s1 else s1
    judgeCircuits s2

/-- A crust that could not be decoded (R76). -/
def undecodedCrust (st : StampIn) (s : State) : State :=
  let s1 := beginFrame (s.frm.frame.toNat + 1) false (pageRegion s) st (ev 0x030A s)
  crustEnd false (if onLine s then takeSample none st (markLineFault s1) else s1)

/-- A decoded crust is taken in the order of R80. -/
def decodedCrust (c : CrustIn) (st : StampIn) (s : State) : State :=
  let n := be c 0 4
  let gmBad := 128 < be c 18 1 || (128 ≤ be c 30 1 && be c 30 1 ≤ 254)
  let todBad := 128 ≤ be c 29 1 && 999999999 < be c 10 4
  let s1 := if s.frm.haveFrame && n != (s.frm.frame.toNat + 1) % 2 ^ 32 then ev 0x0307 s else s
  let s2 := count 0x030B 0 (b2n gmBad + b2n todBad) s1
  let s3 := beginFrame n true (be c 32 3 % 2 ^ 17) st (compareBip (BitVec.ofNat 32 (be c 14 4)) s2)
  let s4 := if s3.frm.region = pageRegion s3 then s3 else ev 0x0311 s3
  if onLine s4 then
    let s5 := headerCommands n c (takeSample (todOf c) st s4)
    let s6 := if gmBad then s5 else takeGrants s4 n c s5
    crustEnd true (crustMessages c s6)
  else s4

/-- CRUST_TAKEN (R80). A crust processor that is not ON receives none (R20). -/
def execCrustTaken (crust : Option CrustIn) (stamp : StampIn) (s : State) : Res :=
  if !framing s then done s s
  else if !on s 13 then
    done s (beginFrame (s.frm.frame.toNat + 1) false (pageRegion s) stamp (offDomainDiscard 0x03 0 0 1 s))
  else
    match crust with
    | some c => if crustCrcOk c then done s (decodedCrust c stamp s) else done s (undecodedCrust stamp s)
    | none => done s (undecodedCrust stamp s)

/-! ### Crumb (R86-R93) -/

/-- The HCS of a channel-tag header holds (R86). -/
def hcsOk (w : Word) : Bool := crc16h ((natBe 8 w.toNat).take 6) == fld w 15 0

/-- 8-byte units that an item takes, header included (R88). -/
def itemUnits (w : Word) : Nat := 1 + (fld w 43 30 + 7) / 8 + (if bit w 23 then 2 else 0)

/-- The unit that holds the header at an offset of the packet region (R65, R85). -/
def unitOf (s : State) (offset : Nat) : Nat := 1 + (48 * s.frm.region + 8 * offset) / 2400

/-- The arrival stamp of an item whose header lies in a unit (R298): ns and fraction. -/
def unitStamp (s : State) (unit : Nat) : Nat × Nat :=
  let x := (symbolTime s ((11250 * unit : Nat) : Int) / 225).toNat
  (x / 2 ^ 32, x % 2 ^ 32)

def setReasm (tag : Nat) (r : Reasm) (s : State) : State :=
  { s with frm := { s.frm with reasm := minsert s.frm.reasm tag r } }

def dropReasm (tag : Nat) (s : State) : State := { s with frm := { s.frm with reasm := merase s.frm.reasm tag } }

/-- A context and the rest of its frame are discarded, counted once (R93); with the last fragment nothing is left. -/
def killReasm (tag : Nat) (last : Bool) (r : Reasm) (s : State) : State :=
  let s1 := if r.dead then s else ev 0x0315 s
  if last then dropReasm tag s1 else setReasm tag { r with dead := true, bytes := [], idle := 0 } s1

/-- A whole frame of the line goes to the inline cipher, or past it (R13, R91). -/
def deliverLine (tag : Nat) (r : Reasm) (content gcm : List Byte) (s : State) : State :=
  let p : Packet := { newPacket .line tag content r.arrival r.arrivalFrac with cls := r.cls, timeJump := r.timeJump }
  let f : LineFrame := { packet := p, tag := tag, epoch := r.epoch, frame := r.frame, offset := r.offset, content := content
                         gcmTag := gcm }
  if !onLine s then s
  else if tagEncrypted s tag then
    if on s 46 then { s with frm := { s.frm with toCipher := s.frm.toCipher ++ [f] } }
    else offDomainDiscard 0x03 0 2 1 s
  else passLine 0x03 0 3 f s

/-- The context that an item opens. -/
def newReasm (s : State) (i : ItemIn) (cls : Cls) (content : List Byte) : Reasm :=
  let t := unitStamp s (unitOf s i.offset)
  { cls := cls, epoch := bit i.header 27, bytes := content, idle := 0, frame := s.frm.frame.toNat, offset := i.offset
    unit := unitOf s i.offset, arrival := t.1, arrivalFrac := t.2, dead := false, timeJump := false }

/-- An item of a tag that R91 accepts: whole, or a fragment (R93). -/
def reassemble (i : ItemIn) (s : State) : State :=
  let w := i.header
  let tag := fld w 63 44
  let cls := clsOf (fld w 26 24)
  let first := bit w 29
  let last := bit w 28
  let content := pad (fld w 43 30) i.content
  let gcm := if bit w 23 then pad 16 i.gcmTag else []
  let fresh := newReasm s i cls content
  if (cls = .timed ∨ cls = .control) ∧ !(first && last) then ev 0x0315 s
  else if first && last then deliverLine tag fresh content gcm s
  else if first then
    match mfind s.frm.reasm tag with
    | some old => setReasm tag fresh (if old.dead then s else ev 0x0315 s)
    | none => if 256 ≤ s.frm.reasm.length then ev 0x0315 s else setReasm tag fresh s
  else
    match mfind s.frm.reasm tag with
    | none => ev 0x0315 s
    | some r =>
      if r.dead || r.cls != cls || r.epoch != bit w 27 || 16383 < r.bytes.length + content.length then killReasm tag last r s
      else if last then deliverLine tag r (r.bytes ++ content) gcm (dropReasm tag s)
      else setReasm tag { r with bytes := r.bytes ++ content, idle := 0 } s

/-- An item whose header checks, delimited (R87, R89, R91). The tag map lies in the flow table. -/
def takeItem (i : ItemIn) (s : State) : State :=
  let w := i.header
  let tag := fld w 63 44
  let s1 := { s with frm := { s.frm with
    offset := i.offset + itemUnits w, openTag := if bit w 28 then none else some tag } }
  if tag = 0xFFFFF then s1
  else if 4 ≤ fld w 26 24 then ev 0x0314 s1
  else if !on s 40 then ev 0x03E0 s1
  else match tagEntry s1 tag with
    | some e => if tagDown e then reassemble i s1 else ev 0x0316 s1
    | none => ev 0x0316 s1

/-- CHANNEL_TAG_ITEM (R90): the stream is delimited, or delineation is hunted. -/
def execChannelTagItem (item : ItemIn) (s : State) : Res :=
  if !framing s then done s s
  else if s.frm.delineated then
    if item.offset ≠ s.frm.offset then done s s
    else if hcsOk item.header then done s (takeItem item s)
    else done s (loseDelineation (ev 0x0312 s))
  else if !hcsOk item.header then done s { s with frm := { s.frm with firstHdr := false } }
  else if s.frm.firstHdr && item.offset == s.frm.offset then
    done s (takeItem item { s with frm := { s.frm with delineated := true, firstHdr := false } })
  else done s { s with frm := { s.frm with firstHdr := true, offset := item.offset + itemUnits item.header } }

/-- REASSEMBLY_TIMEOUT (R93): 4 line frames without a further fragment. -/
def execReassemblyTimeout (tag : Nat) (s : State) : Res :=
  match mfind s.frm.reasm tag with
  | some r => if 4 ≤ r.idle then done s (dropReasm tag (if r.dead then s else ev 0x0315 s)) else done s s
  | none => done s s

end Sys2Proof.Machine
end

