-- ==== Sys2Proof/Machine/Bursts.lean ====
section
/-! DEFINITION. Upstream bursts: what the framer places at a build point, the need report, the burst header, the waveform,
and BURST_BUILD (R84, R86-R100, R108, R114, R123, R132, R213, R247, R317, R318). -/

namespace Sys2Proof.Machine

/-! ### Filling a packet burst (R86, R88, R92) -/

/-- A burst while it is filled: its grant, bytes used, items so far. -/
structure Fill where
  grant : Grant
  pos : Nat
  items : List UpItem
  deriving DecidableEq, Repr

/-- Bytes of crumb in the codewords of a packet burst. -/
def Fill.cap (f : Fill) : Nat := f.grant.length * 2400

def Fill.rest (f : Fill) : Nat := f.cap - f.pos

/-- Bytes that an item of n content bytes takes, with its GCM tag or without. -/
def itemBytes (n : Nat) (tagged : Bool) : Nat := 8 + (n + 7) / 8 * 8 + (if tagged then 16 else 0)

/-- An item is placed. -/
def Fill.put (f : Fill) (tag : Nat) (cls : Cls) (first last epoch : Bool) (content gcm : List Byte) (frame : Option Packet) :
    Fill :=
  let tagged := !gcm.isEmpty
  let size := itemBytes content.length tagged
  let lastByte := if tagged then f.pos + size - 1 else f.pos + 8 + content.length - 1
  let it : UpItem := { tag := tag, cls := cls, first := first, last := last, epoch := epoch, tagPresent := tagged
                       content := content, gcmTag := gcm, codeword := lastByte / 2400 + 1, frame := frame }
  { f with pos := f.pos + size, items := f.items ++ [it] }

/-- Content bytes of a fragment that is not the last: a multiple of 8, at least 64, none where R92 starts none. -/
def fragLen (rest left : Nat) : Option Nat :=
  let n := min ((rest - 8) / 8 * 8) ((left - 1) / 8 * 8)
  if 72 ≤ rest ∧ 64 ≤ n then some n else none

/-- The epoch under which frames of upstream frame m are encrypted (R120). -/
def upEpoch (s : State) (m : Nat) : Option EpochKeys :=
  match s.ke.current, s.ke.old with
  | some c, some o => if signed 32 (wrap 32 ((m : Int) - s.ke.since)) < 0 then some o else some c
  | c, _ => c

/-- How a frame may be placed: clear, or under an epoch with its key; or why it is discarded. -/
inductive Seal where
  | clear
  | keyed (e : EpochKeys) (key : List Byte)
  /-- The tag map is not there, the tag has no UP entry, the epoch is past its lifetime, the key slot is empty. -/
  | noMap | noTag | lifetime | noKey
  deriving DecidableEq, Repr

/-- What R187, R118 and R318 make of a tag at a build point. -/
def sealOf (s : State) (m tag : Nat) : Seal :=
  if !on s 40 then .noMap
  else match tagEntry s tag with
    | none => .noTag
    | some w =>
      if !tagUp w then .noTag
      else if !tagEncrypt w then .clear
      else match upEpoch s m with
        | none => .noKey
        | some e =>
          if s.ke.expired && s.ke.current == some e then .lifetime
          else match (lineSlot s tag e.bit).bind (loadedKey s) with
            | some k => .keyed e k
            | none => .noKey

/-- A frame that cannot be placed is discarded and counted; an empty key slot is a cause within the module (R254). -/
def sealDiscard (k : Seal) (p : Packet) (s : State) : State :=
  match k with
  | .noMap => discardFrame p false (ev 0x03E0 s)
  | .noTag => discardFrame p false (ev 0x0611 s)
  | .lifetime => discardFrame p false (ev 0x0325 s)
  | .noKey => discardFrame p true (ev 0x0B02 s)
  | .clear | .keyed _ _ => s

/-- The content of a frame as its items carry it, with its GCM tag: encrypted whole at the build point (R118, R317). -/
def sealContent (s : State) (f : Fill) (tag : Nat) (cls : Cls) (bytes : List Byte) : Seal → List Byte × List Byte
  | .keyed e key =>
    gcmEncrypt key (gcmIv s.pf.tid e.bit true f.grant.frame f.grant.start (f.pos / 8))
      (gcmAad tag bytes.length e.bit (clsCode cls)) bytes
  | _ => (bytes, [])

def Seal.epoch : Seal → Bool
  | .keyed e _ => e.bit
  | _ => false

def Seal.tagged : Seal → Bool
  | .keyed _ _ => true
  | _ => false

/-- An encrypted frame is the inline cipher's upstream work (R316, R317). -/
def cipherWork (f : Fill) (tag : Nat) (k : Seal) (p : Packet) (c : List Byte × List Byte) (s : State) : State :=
  if k.tagged then
    let w : LineFrame := { packet := p, tag := tag, epoch := k.epoch, frame := f.grant.frame, offset := f.pos / 8
                           content := c.1, gcmTag := c.2 }
    { s with cph := { s.cph with upWait := s.cph.upWait ++ [w] } }
  else s

/-- A frame leaves the scheduler into the burst of its stream: stamp request, credit, the taps (R301, R18, R339). -/
def enterBurst (gs : Nat) (p : Packet) (s : State) : State :=
  tapAdd (objStream gs) (fun a => { a with octUp := a.octUp + gfpLen p })
    (spend (portKey gs) (beats p) (noStamp p s))

/-- A frame is placed whole. -/
def burstWhole (cls : Cls) (k : Seal) (p : Packet) (f : Fill) (s : State) : Fill × State :=
  let tag := frameTag p
  let c := sealContent s f tag cls p.bytes k
  (f.put tag cls true true k.epoch c.1 c.2 (some p), cipherWork f tag k p c (enterBurst f.grant.gs p s))

/-- A first fragment of n bytes is placed, and the frame stays open (R92). -/
def burstFirst (cls : Cls) (k : Seal) (n : Nat) (p : Packet) (f : Fill) (s : State) : Fill × State :=
  let tag := frameTag p
  let c := sealContent s f tag cls p.bytes k
  let s1 := ev 0x0317 (cipherWork f tag k p c (enterBurst f.grant.gs p s))
  let o : OpenFrag := { packet := p, tag := tag, epoch := k.epoch, encrypted := k.tagged, sent := n, content := c.1
                        gcmTag := c.2 }
  (f.put tag cls true false k.epoch (c.1.take n) [] none,
    { s1 with up := { s1.up with frags := minsert s1.up.frags f.grant.gs o } })

/-- The stream's open frame goes on, ahead of every other item (R92). The last part says whether it still is open. -/
def burstOpen (f : Fill) (s : State) : Fill × State × Bool :=
  match mfind s.up.frags f.grant.gs with
  | none => (f, s, false)
  | some o =>
    let left := o.content.drop o.sent
    if itemBytes left.length o.encrypted ≤ f.rest then
      (f.put o.tag o.packet.cls false true o.epoch left o.gcmTag (some o.packet),
        ev 0x0317 { s with up := { s.up with frags := merase s.up.frags f.grant.gs } }, false)
    else match fragLen f.rest left.length with
      | some n =>
        (f.put o.tag o.packet.cls false false o.epoch (left.take n) [] none,
          ev 0x0317 { s with up := { s.up with frags := minsert s.up.frags f.grant.gs { o with sent := o.sent + n } } }, true)
      | none => (f, s, true)

/-- CONTROL items, oldest first, whole, always encrypted; none before an epoch is in force (R140). -/
def burstControl : Nat → Fill → State → Fill × State
  | 0, f, s => (f, s)
  | fuel + 1, f, s =>
    match s.up.control with
    | [] => (f, s)
    | c :: r =>
      let tag := controlTag s
      let k := sealOf s f.grant.frame tag
      if !k.tagged || f.rest < itemBytes c.length true then (f, s)
      else
        let x := sealContent s f tag .control c k
        burstControl fuel (f.put tag .control true true k.epoch x.1 x.2 none) { s with up := { s.up with control := r } }

/-- The port node of a grant stream may send to the framer (R18, R212). -/
def streamOpen (s : State) (gs : Nat) : Bool := schedReady s && destOpen s gs

/-- Timed frames in key order, never fragmented (R246, R247). -/
def burstTimed : Nat → Fill → State → Fill × State
  | 0, f, s => (f, s)
  | fuel + 1, f, s =>
    match if streamOpen s f.grant.gs then timedPick s f.grant.gs else none with
    | none => (f, s)
    | some (q, p) =>
      let k := sealOf s f.grant.frame (frameTag p)
      if k = .clear ∨ k.tagged = true then
        if itemBytes p.bytes.length k.tagged ≤ f.rest then
          let x := burstWhole .timed k p f (popHead (.queue q) s)
          burstTimed fuel x.1 x.2
        else (f, ev 0x0813 s)
      else burstTimed fuel f (sealDiscard k p (popHead (.queue q) s))

/-- A frame that fair queuing selects leaves its queue and is charged whole (R214-R219). -/
def popFair (cls : Cls) (gs : Nat) (path : List Child) (p : Packet) (s : State) : State :=
  let l := acctLen s gs p
  let s1 := path.foldl (serveChild cls l) s
  match path.head? with
  | some (.queue q) => popHead (.queue q) (chargeAll (pathOf s q) l s1)
  | _ => s1

/-- A frame that is discarded leaves its queue uncharged. -/
def dropFair (path : List Child) (s : State) : State :=
  match path.head? with
  | some (.queue q) => popHead (.queue q) s
  | _ => s

/-- Frames of a fair-queued class until the burst is full (R92, R213). The last part says whether it is. -/
def burstFair (cls : Cls) : Nat → Fill → State → Fill × State × Bool
  | 0, f, s => (f, s, false)
  | fuel + 1, f, s =>
    let path := if streamOpen s f.grant.gs then fairPath s cls f.grant.gs else []
    match pathHead s path with
    | none => (f, s, false)
    | some p =>
      let k := sealOf s f.grant.frame (frameTag p)
      if k = .clear ∨ k.tagged = true then
        if itemBytes p.bytes.length k.tagged ≤ f.rest then
          let x := burstWhole cls k p f (popFair cls f.grant.gs path p s)
          burstFair cls fuel x.1 x.2
        else match fragLen f.rest p.bytes.length with
          | some n =>
            let x := burstFirst cls k n p f (popFair cls f.grant.gs path p s)
            (x.1, x.2, true)
          | none => (f, s, true)
      else burstFair cls fuel f (sealDiscard k p (dropFair path s))

/-- Frames queued, which bounds the placing. -/
def queuedFrames (s : State) : Nat := (s.sch.queues.map fun e => e.2.frames.length).sum + 1

/-- The items of a packet burst (R213): the open frame, control items, timed, assured, best effort. -/
def fillBurst (g : Grant) (s : State) : Fill × State :=
  let x0 := burstOpen { grant := g, pos := 0, items := [] } s
  if x0.2.2 then (x0.1, x0.2.1)
  else
    let n := queuedFrames s
    let x1 := burstControl s.up.control.length x0.1 x0.2.1
    let x2 := burstTimed n x1.1 x1.2
    let x3 := burstFair .assured n x2.1 x2.2
    if x3.2.2 then (x3.1, x3.2.1)
    else
      let x4 := burstFair .bestEffort n x3.1 x3.2.1
      (x4.1, x4.2.1)

/-! ### The bytes of a packet burst (R86, R88, R89) -/

/-- A channel-tag header with its HCS. -/
def headerBytes (w : Word) : List Byte :=
  let h := (natBe 8 w.toNat).take 6
  h ++ natBe 2 (crc16h h)

def UpItem.bytes (i : UpItem) : List Byte :=
  let n := i.content.length
  headerBytes (itemHeader i.tag n i.first i.last i.epoch (clsCode i.cls) i.tagPresent)
    ++ pad ((n + 7) / 8 * 8) i.content ++ i.gcmTag

/-- Idle items that fill `n` bytes, n a multiple of 8. -/
def idleItems : Nat → Nat → List Byte
  | 0, _ => []
  | fuel + 1, n =>
    if n < 8 then []
    else
      let k := min (n - 8) 16376
      headerBytes (itemHeader 0xFFFFF k true true false 0 false) ++ List.replicate k 0 ++ idleItems fuel (n - 8 - k)

/-- The crumb of a packet burst, filled with idle items. -/
def Fill.bytes (f : Fill) : List Byte := f.items.flatMap UpItem.bytes ++ idleItems (f.rest / 8) f.rest

/-! ### Circuit bursts (R85, R132, R133) -/

/-- The blocks that a circuit burst of upstream frame m carries: circuit, offset in the stream's circuit space, bytes. -/
def burstBlocks (s : State) (g : Grant) : List (Nat × Nat × List Byte) :=
  s.cir.circuits.flatMap fun e =>
    match e.2.taken.find? fun t => t.1 == g.frame with
    | none => []
    | some (_, page, content) =>
      let bs := (upBlocks s page e.1).mapIdx fun i b => (b, slice content (48 * i) 48)
      (bs.filter fun x => x.1.1 == g.gs && g.base ≤ x.1.2 && x.1.2 < g.base + 50 * g.length).map fun x =>
        (e.1, x.1.2, x.2)

/-- The crumb of a circuit burst; blocks that no run maps are zero. -/
def circuitBytes (g : Grant) (blocks : List (Nat × Nat × List Byte)) : List Byte :=
  (List.range (50 * g.length)).flatMap fun k =>
    match blocks.find? fun b => b.2.1 == g.base + k with
    | some b => pad 48 b.2.2
    | none => List.replicate 48 0

/-! ### The need report (R98) -/

/-- Crumb that the queued frames of a class of a stream would occupy, with the rest of its open frame. -/
def backlog (s : State) (gs : Nat) (cls : Cls) : Nat :=
  let queued := (s.sch.queues.filter fun e => e.2.cls == cls && portOf s e.1 == gs).flatMap (·.2.frames)
  let openRest := match mfind s.up.frags gs with
    | some o => if o.packet.cls = cls then itemBytes (o.content.length - o.sent) o.encrypted else 0
    | none => 0
  (queued.map (acctLen s gs)).sum + openRest

/-- Backlog in blocks, saturating. -/
def blocksOfBytes (n : Nat) : Nat := min 0xFFFFFF ((n + 47) / 48)

/-- Module time in ns at which the burst's upstream frame starts. -/
def frameStart (s : State) (g : Grant) : Int :=
  symbolTime s (framesTo s g.frame * 14062500 + 3600000 + g.delay) / (225 * 2 ^ 32 : Nat)

/-- EARLIEST of entry 0: 0xFFFF for none, 0xFFFE for later; a deadline before the frame's start is 0. -/
def earliest (s : State) (g : Grant) : Nat :=
  let l := ((s.sch.queues.filter fun e => e.2.cls == .timed && portOf s e.1 == g.gs).flatMap (·.2.frames)).filterMap (·.deadline)
  match l with
  | [] => 0xFFFF
  | d :: r => min 0xFFFE (((r.foldl min d : Nat) - frameStart s g) / 1000).toNat

/-- The four entries of the need report. -/
def needReport (s : State) (g : Grant) : List Word :=
  let entry (kind gs blocks e : Nat) : Word := word (at' gs 58 + at' kind 56 + at' blocks 32 + at' e 16)
  let total := ((List.range 64).map fun k =>
    backlog s k .timed + backlog s k .assured + backlog s k .bestEffort).sum
  [ entry 0 g.gs (blocksOfBytes (backlog s g.gs .timed)) (earliest s g)
  , entry 1 g.gs (blocksOfBytes (backlog s g.gs .assured)) 0xFFFF
  , entry 2 g.gs (blocksOfBytes (backlog s g.gs .bestEffort)) 0xFFFF
  , entry 3 0 (blocksOfBytes total) 0xFFFF ]

/-! ### The message of a burst (R109, R114, R123) -/

/-- The states in which a queued message may be sent. -/
def sentIn (type : Nat) (x : PfSt) : Bool :=
  match type with
  | 0x82 | 0x83 => x == .pf4
  | 0x86 => x == .pf5
  | _ => x == .pf3 || x == .pf4 || x == .pf5

/-- Precedence of a queued message, lower first (R114). -/
def msgRank (type : Nat) : Nat := if type = 0x83 then 0 else if type = 0x82 then 1 else if type = 0x86 then 3 else 4

/-- The queued message that goes next. -/
def nextQueued (s : State) : Option UpMsg :=
  (s.pf.upQ.filter fun m => sentIn m.type s.pf.st).foldl (fun best m =>
    match best with
    | none => some m
    | some b => if msgRank m.type < msgRank b.type then some m else best) none

/-- A message that is not queued takes the next SEQ. -/
def freshMsg (type : Nat) (payload : List Byte) (s : State) : Option UpMsg × State :=
  (some { type := type, seq := s.pf.upSeq % 256, payload := pad 44 payload },
    { s with pf := { s.pf with upSeq := (s.pf.upSeq + 1) % 256 } })

/-- The message that a burst carries, and its events. -/
def pickMessage (g : Grant) (s : State) : Option UpMsg × State :=
  let sending := s.pf.st == .pf3 || s.pf.st == .pf4 || s.pf.st == .pf5
  if g.discovery then freshMsg 0x81 (serialBytes s ++ natBe 4 g.r) (ev 0x031C s)
  else if sending && s.pwr.warn then
    freshMsg 0x84 (natBe 4 s.pf.warnFrame.toNat ++ natBe 1 (b2n s.tin.snapAck)) (ev 0x0327 s)
  else if sending && 0 < s.pf.restored then
    freshMsg 0x85 (natBe 4 s.pf.warnFrame.toNat ++ natBe 4 s.pf.recFrame.toNat)
      (ev 0x0328 { s with pf := { s.pf with restored := s.pf.restored - 1 } })
  else if !g.message then (none, s)
  else match nextQueued s with
    | some m => (some m, { s with pf := { s.pf with upQ := s.pf.upQ.erase m } })
    | none => if s.pf.st = .pf3 then freshMsg 0x81 (serialBytes s) s else (none, s)

/-- A message as its 48 bytes (R111). -/
def msgBytes (tid : Nat) (m : UpMsg) : List Byte := natBe 1 m.type ++ [0] ++ natBe 1 tid ++ natBe 1 m.seq ++ pad 44 m.payload

/-! ### The burst crust (R95-R97, R100) -/

/-- Scrambled information bits of a burst's codewords: the scrambler has passed the 1,280 bits of the burst crust (R94). -/
def scrambledCrumb (crumb : List Byte) : List Bool :=
  (lineScramble ((List.range 1280).foldl (fun r _ => scrStep r) scrReset) (bitsOf crumb)).1

/-- The CRC-32 of bytes, as four bytes most significant first (R76, R95). -/
def crcBytes (l : List Byte) : List Byte := natBe 4 (crc32 l).toNat

/-- The 160 bytes of a burst's crust. -/
def burstCrust (b : Burst) : List Byte :=
  let g := b.grant
  let ident := g.gs * 4 + b2n g.proofing * 2 + b2n g.circuit
  let bip := if g.length = 0 then 0 else (bip32 (scrambledCrumb b.crumb)).toNat
  let flags := b2n b.rdi * 128 + b2n b.message.isSome * 64 + b2n (!b.need.isEmpty) * 32 + b2n b.powerWarn * 16
  let arming := b2n b.psArmed.isSome * 128 + b.psPage % 2 * 64 + b2n b.keArmed.isSome * 32 + b2n b.keEpoch * 16
  let psF := match b.psArmed with
    | some (f, _) => f
    | none => 0
  let keF := match b.keArmed with
    | some (f, _) => f
    | none => 0
  let head := natBe 1 b.tid ++ natBe 1 ident ++ natBe 4 g.frame ++ natBe 4 bip ++ natBe 2 b.rei ++ natBe 1 flags
    ++ natBe 1 (if g.proofing then 0 else arming) ++ natBe 4 psF ++ natBe 4 keF ++ natBe 2 g.length ++ List.replicate 36 0
  let msg := match b.message with
    | some m => msgBytes b.tid m
    | none => List.replicate 48 0
  let need := if b.need.isEmpty then List.replicate 32 0 else b.need.flatMap fun w => natBe 8 w.toNat
  let body := msg ++ need ++ List.replicate 12 0
  head ++ crcBytes head ++ body ++ crcBytes body

/-- The codewords of a burst as sent. -/
def burstCodewords (crumb : List Byte) : List Bool :=
  (groupBits 19200 (crumb.length / 2400) (scrambledCrumb crumb)).flatMap ldpcWord

/-- The symbols of a burst from its first preamble symbol to its last terminator symbol (R94), as the values of R37. -/
def burstSymbols (b : Burst) : List Nat :=
  let g := b.grant
  let content :=
    if g.proofing then proofSymbols (proofBits b.crust)
    else
      let info := (lineScramble scrReset (bitsOf b.crust)).1
      pam4 (info ++ ldpcParity info ++ burstCodewords b.crumb)
  preamble g.pre g.levels g.proofing ++ delimiter ++ content ++ terminator

/-- Symbols of a burst (R84). -/
def burstSpan (g : Grant) : Nat :=
  if g.proofing then proofingSpan g.pre else g.pre + 256 + 2290 + 11250 * g.length + 128

/-! ### BURST_BUILD (R99) -/

/-- The proofing state still uses a grant taken (R102, R103). -/
def grantUsable (s : State) (g : Grant) : Bool :=
  match s.pf.st with
  | .pf2 => g.discovery
  | .pf3 | .pf4 => !g.discovery && g.proofing
  | .pf5 => !g.discovery
  | _ => false

/-- The laser may emit at all, TX_DISABLE apart, which acts at the lead point (R23, R47, R50). -/
def laserCould (s : State) : Bool :=
  s.line.rootLocked && lineTx { s with pwr := { s.pwr with txDisable := false } }

/-- The module's symbol count of a burst's first preamble symbol, modulo 2^32 upstream frames (R106). -/
def firstSymbol (g : Grant) : Nat := (g.frame * 14062500 + 3600000 + g.delay + g.start) % (2 ^ 32 * 14062500)

/-- Less than 2,048 symbols lie between the previous burst's end and this one's start (R108). -/
def guardFails (s : State) (g : Grant) : Bool :=
  match s.up.prevEnd with
  | none => false
  | some e =>
    let m := 2 ^ 32 * 14062500
    let d := (firstSymbol g + m - e % m) % m
    d < 2048 || m / 2 ≤ d

/-- The announced page switch that every taking-part slice is armed for (R143). -/
def psArmedNow (s : State) : Option (Nat × Nat) := if s.cir.moduleArmed then s.cir.announce else none

/-- The announced epoch switch that every taking-part core is armed for (R119). -/
def keArmedNow (s : State) : Option (Nat × Bool) := if coresArmed s then s.ke.announce else none

/-- The burst of a grant, its crust apart, as the state stands once its items are placed (R95-R100, R106). -/
def burstOf (g : Grant) (msg : Option UpMsg) (f : Fill) (s : State) : Burst :=
  let blocks := if g.circuit && s.pf.st == .pf5 then burstBlocks s g else []
  { grant := g, tid := if g.discovery then 0 else s.pf.tid, first := firstSymbol g, endSym := firstSymbol g + burstSpan g
    leadNs := (symbolTime s (grantSymbols s g - 512) / (225 * 2 ^ 32 : Nat)).toNat
    rei := s.up.rei, rdi := s.up.rdi, powerWarn := s.pwr.warn
    psArmed := if g.proofing then none else psArmedNow s, keArmed := if g.proofing then none else keArmedNow s
    psPage := match psArmedNow s with
      | some (_, p) => p
      | none => s.cir.active
    keEpoch := match keArmedNow s with
      | some (_, e) => e
      | none => (bitInForce s).getD false
    message := msg, need := if g.need then needReport s g else [], items := f.items, blocks := blocks
    crumb := if g.proofing then [] else if g.circuit then circuitBytes g blocks else f.bytes
    crust := [] }

/-- A burst is built: it waits for its lead point, and what it reports is reported (R97, R99). -/
def addBurst (b : Burst) (s : State) : State :=
  { s with up := { s.up with
    built := s.up.built ++ [{ b with crust := burstCrust b }], prevEnd := some b.endSym, rei := 0, rdi := sectionDefect s } }

/-- The content of a burst is fixed (R99). While TX_DISABLE is asserted no frame is placed in it. -/
def buildBurst (g : Grant) (s : State) : State :=
  let m := pickMessage g s
  let packets := !g.proofing && !g.circuit && !s.pwr.txDisable
  let x := if packets then fillBurst g m.2 else ({ grant := g, pos := 0, items := [] }, m.2)
  addBurst (burstOf g m.1 x.1 x.2) (if g.need then ev 0x0318 x.2 else x.2)

/-- BURST_BUILD (R99): the build point of the next grant taken. -/
def execBurstBuild (s : State) : Res :=
  match s.up.grants with
  | [] => done s s
  | g :: r =>
    let s1 := { s with up := { s.up with grants := r } }
    let errored (t : State) : State := if g.discovery then t else gsErrored g.frame g.gs t
    if !on s 12 then done s (errored (ev 0x0205 s1))
    else
      if !grantUsable s1 g then done s (errored (ev 0x030F s1))
      else if !laserCould s1 then done s (errored (ev 0x0205 s1))
      else if guardFails s1 g then done s (errored (ev 0x031E s1))
      else done s (buildBurst g s1)

end Sys2Proof.Machine
end

