-- ==== Sys2Proof/Machine/Perf.lean ====
section
/-! DEFINITION. Performance monitoring: seconds, availability, bins, BIN_READ (R150-R153, R430). -/

namespace Sys2Proof.Machine

/-! ### Counts of a bin (R151, R153) -/

/-- One end of a bin: seconds and errored blocks of one class are added, or taken back. -/
structure SecCount where
  es : Int
  ses : Int
  bbe : Int
  uas : Int
  deriving DecidableEq, Repr

/-- A second as available time counts it. -/
def availCount (x : Bool × Bool × Nat) : SecCount := { es := b2n x.1, ses := b2n x.2.1, bbe := x.2.2, uas := 0 }

/-- A second as unavailable time counts it. -/
def unavailCount : SecCount := { es := 0, ses := 0, bbe := 0, uas := 1 }

def SecCount.minus (a b : SecCount) : SecCount :=
  { es := a.es - b.es, ses := a.ses - b.ses, bbe := a.bbe - b.bbe, uas := a.uas - b.uas }

def addInt (n : Nat) (d : Int) : Nat := ((n : Int) + d).toNat

/-- A bin takes counts of its near end, or of its far end. -/
def Bin.add (far : Bool) (c : SecCount) (b : Bin) : Bin :=
  if far then
    { b with feEs := addInt b.feEs c.es, feSes := addInt b.feSes c.ses, feBbe := addInt b.feBbe c.bbe
             feUas := addInt b.feUas c.uas }
  else { b with es := addInt b.es c.es, ses := addInt b.ses c.ses, bbe := addInt b.bbe c.bbe, uas := addInt b.uas c.uas }

/-- Counts of the second that lies `back` seconds before the newest go to the bins that hold it: the current ones, or
the ones closed since. -/
def addBack (far : Bool) (back : Nat) (c : SecCount) (x : Perf) : Perf :=
  let y := if back < x.cur15.elapsed then { x with cur15 := x.cur15.add far c }
    else match x.recent with
      | b :: r => { x with recent := b.add far c :: r }
      | [] => x
  if back < y.cur24.elapsed then { y with cur24 := y.cur24.add far c }
  else { y with prev24 := y.prev24.map (·.add far c) }

/-- The seconds of a run change class, newest first. -/
def reclass (far toUnavail : Bool) (run : List (Bool × Bool × Nat)) (x : Perf) : Perf :=
  ((run.mapIdx fun i e => (i, e))).foldl (fun y e =>
    let a := availCount e.2
    addBack far e.1 (if toUnavail then unavailCount.minus a else a.minus unavailCount) y) x

/-! ### A second (R151) -/

/-- A second: errored, severely errored, and its background block errors. -/
def secondOf (errored : Nat) (defect : Bool) : Bool × Bool × Nat :=
  let ses := 2400 ≤ errored || defect
  (0 < errored || defect, ses, if ses then 0 else errored)

/-- One end's second: counted under the present availability, which 10 seconds of the other kind change from their
onset. -/
def classify (far : Bool) (sec : Bool × Bool × Nat) (a : Avail) (x : Perf) : Avail × Perf :=
  let x1 := addBack far 0 (if a.unavail then unavailCount else availCount sec) x
  let turns := sec.2.1 != a.unavail
  let run := if turns then sec :: a.run else []
  if run.length = 10 then ({ unavail := !a.unavail, run := [] }, reclass far (!a.unavail) run x1)
  else ({ a with run := run }, x1)

/-- The bins take a second of any kind: ELAPSED, EB, DS, the lock of time. -/
def Bin.tick (secs len eb : Nat) (ds unlocked : Bool) (b : Bin) : Bin :=
  { b with
    start := if b.elapsed = 0 && b.start = 0 then (secs - 1) / len * len else b.start
    elapsed := b.elapsed + 1, eb := b.eb + eb, dsSeconds := b.dsSeconds + b2n ds, unlocked := b.unlocked || unlocked }

/-- Module time in seconds. -/
def moduleSecs (s : State) : Nat := s.tmu.ns / 1000000000

/-- One entity's second is latched and classified; a defect that holds enters the next second (R150, R151). -/
def closeSecond (s : State) (e : Nat) : State :=
  let x := perf s e
  let near := entityDefect s e
  let far := entityFarDefect s e
  let unlocked := s.tmu.st != .locked
  let tick (len : Nat) : Bin → Bin := Bin.tick (moduleSecs s) len x.errored (entityDs s e) unlocked
  let y := { x with cur15 := tick 900 x.cur15, cur24 := tick 86400 x.cur24 }
  let (a, y1) := classify false (secondOf x.errored (x.defect || near)) y.near y
  let (f, y2) := if e / 4096 = 1 then classify true (secondOf x.feErrored (x.feDefect || far)) y1.far y1 else (y1.far, y1)
  setPerf e { y2 with
    near := a, far := f, blocks := 0, errored := 0, defect := near, feErrored := 0, feDefect := far } s

/-- A second that passes unclassified: firmware does not run (R152). -/
def dropSecond (s : State) (e : Nat) : State :=
  setPerf e { perf s e with
    blocks := 0, errored := 0, defect := entityDefect s e, feErrored := 0, feDefect := entityFarDefect s e } s

/-- SECOND_BOUNDARY (R151). -/
def execSecondBoundary (s : State) : Res :=
  if !timeReady s then done s s
  else if fwWorks s && on s 3 then done s (entities.foldl closeSecond s)
  else done s (entities.foldl dropSecond s)

/-! ### Bins (R152) -/

/-- A bin as it closes. -/
def Bin.close (len : Nat) (b : Bin) : Bin := { b with provisional := true, suspect := b.suspect || b.elapsed != len }

/-- BIN_CLOSE (R152): at a multiple of 900 s, or of 86,400 s. -/
def execBinClose (day : Bool) (s : State) : Res :=
  let t := moduleSecs s
  if !timeReady s || !on s 3 || t % (if day then 86400 else 900) != 0 then done s s
  else
    done s (entities.foldl (fun u e =>
      let x := perf u e
      setPerf e (if day then { x with prev24 := some (x.cur24.close 86400), cur24 := { binReset with start := t } }
        else { x with recent := (x.cur15.close 900 :: x.recent).take 32, cur15 := { binReset with start := t } }) u) s)

/-- A closed bin whose 10 s have passed is final. -/
def Bin.settle (t len : Nat) (b : Bin) : Bin :=
  if b.start + len + 10 ≤ t then { b with provisional := false } else b

/-- BIN_FINAL (R152). -/
def execBinFinal (s : State) : Res :=
  let t := moduleSecs s
  if !timeReady s || !on s 3 then done s s
  else done s { s with perf := mapTab perfReset (fun x => { x with
    recent := x.recent.map (·.settle t 900), prev24 := x.prev24.map (·.settle t 86400) }) s.perf }

/-- Every bin is cleared and the current ones SUSPECT (R152). -/
def clearBins (s : State) : State := mapBins (fun b => { b with suspect := true }) { s with perf := [] }

/-! ### BIN_READ (R153, R430) -/

/-- A bin by its number. -/
def binOf (x : Perf) (n : Nat) : Bin :=
  if n = 0 then x.cur15
  else if n ≤ 32 then nth x.recent (n - 1) binReset
  else if n = 33 then x.cur24
  else x.prev24.getD binReset

/-- The record of a bin (R153). -/
def binRecord (entity n : Nat) (b : Bin) : List Byte :=
  natLe 2 entity ++ natLe 1 n ++ natLe 1 (b2n b.suspect * 128 + b2n b.provisional * 64 + b2n b.unlocked * 32)
    ++ natLe 8 b.start ++ natLe 4 b.elapsed
    ++ natLe 4 b.es ++ natLe 4 b.ses ++ natLe 4 b.bbe ++ natLe 4 b.uas
    ++ natLe 4 b.feEs ++ natLe 4 b.feSes ++ natLe 4 b.feBbe ++ natLe 4 b.feUas
    ++ natLe 8 b.eb ++ natLe 4 b.dsSeconds ++ natLe 4 0

/-- BIN_READ (R153, R430). -/
def cmdBinRead : IfCmd where
  opcode := 0x0409
  len := lenIs 2
  range := fun _ ws =>
    onlyBits (arg ws 1) 0xFFFFFF && fld (arg ws 1) 23 16 ≤ 34 && entities.contains (fld (arg ws 1) 15 0)
  effect := fun _ ws s =>
    let e := fld (arg ws 1) 15 0
    let n := fld (arg ws 1) 23 16
    (s, .data (bytesWords 8 (binRecord e n (binOf (perf s e) n))))

def execBinRead (ch : Nat) (s : State) : Res := done s (runIf cmdBinRead ch s)

end Sys2Proof.Machine
end

