-- ==== Sys2Proof/Machine/Rings.lean ====
section
/-! DEFINITION. Host DMA: ring control, doorbells, the fetch of host frames with its checks, checksums and segments, and
the writing of received frames (R269, R270, R375-R397). -/

namespace Sys2Proof.Machine

/-! ### Ring control (R376-R380) -/

/-- The offset of a register of a ring's control block (R376). -/
def ringOffset (rx : Bool) (n reg : Nat) : Nat := (if rx then 0x120000 else 0x100000) + 0x40 * n + reg

/-- The value of a CTRL write lies in its ranges (R377, R378). -/
def ctrlOk (rx : Bool) (v : Word) : Bool :=
  fld v 7 4 ≤ 10 && fld v 11 8 ≤ 10 && (fld v 22 12 == 0 || 8 ≤ fld v 22 12) &&
    (if rx then 1 ≤ fld v 41 32 && fld v 41 32 ≤ 1000 else 1 ≤ fld v 30 24 && fld v 30 24 ≤ 64)

/-- The fields that are not reserved. -/
def ctrlMask (rx : Bool) : Word := word (if rx then 0x3FFFFFFFFF3 else 0x7F7FFFF3)

/-- The fields that may be changed only in STOPPED (R380). -/
def ctrlGuard (rx : Bool) : Word := word (if rx then 0x7800FF2 else 0xFF0)

/-- A control write is dropped in a state other than STOPPED (R380). -/
def cfgRefuse (rx : Bool) (n : Nat) (s : State) : State :=
  setRing rx n { ringOf s rx n with cfgRefused := true } s

/-- The state that ENABLE leads a ring to (R380). -/
def enableRing (v : Word) (r : Ring) : Ring :=
  if bit v 0 then
    if r.st = .stopped then
      { r with ctrl := v, st := .running, err := 0, prod := 0, done := 0, tail := 0, head := 0, reserved := 0, posted := []
               next := 0, waiting := false }
    else { r with ctrl := v }
  else if r.st = .running then { r with ctrl := v, st := .draining, waiting := false }
  else if r.st = .error then { r with ctrl := v, st := .stopped, err := 0 }
  else { r with ctrl := v }

/-- A write of DMA_TXn_CTRL or DMA_RXn_CTRL (R377-R380). -/
def writeCtrl (req : Req) (rx : Bool) (n : Nat) (value : Word) (s : State) : State :=
  let r := ringOf s rx n
  let v := value &&& ctrlMask rx
  if !ctrlOk rx value then enumDrop req (ringOffset rx n 0x18) s
  else if r.st ≠ .stopped ∧ (v ^^^ r.ctrl) &&& ctrlGuard rx ≠ 0 then cfgRefuse rx n s
  else setRing rx n (enableRing v r) s

/-- RING_ENABLE (R380): a CTRL write with ENABLE 1. -/
def execRingEnable (req : Req) (rx : Bool) (ring : Nat) (value : Word) (s : State) : Res :=
  if ring < 2048 && bit value 0 then
    done s (writeSide req (ringOffset rx ring 0x18) 5 value (writeCtrl req rx ring value) s)
  else done s s

/-- RING_DISABLE (R380): a CTRL write with ENABLE 0. -/
def execRingDisable (req : Req) (rx : Bool) (ring : Nat) (value : Word) (s : State) : Res :=
  if ring < 2048 && !bit value 0 then
    done s (writeSide req (ringOffset rx ring 0x18) 5 value (writeCtrl req rx ring value) s)
  else done s s

/-- RING_DRAINED (R380): nothing fetched or reserved is left. -/
def execRingDrained (rx : Bool) (ring : Nat) (s : State) : Res :=
  let r := ringOf s rx ring
  if r.st = .draining ∧ r.reserved = 0 then done s (setRing rx ring { r with st := .stopped } s) else done s s

/-! ### Errors (R396, R397) -/

/-- A ring enters ERROR, and a receive ring's reserved frames are discarded: for a cause within the module (R254 row 1), or
for the loss of the link. -/
def ringFails (rx : Bool) (n cause : Nat) (s : State) : State :=
  let resv := if rx && ringLive (rxRing s n) then (rxRing s n).resv else []
  let s1 := ringError rx n cause (cause != 4) s
  if resv.isEmpty then s1
  else
    let s2 := setRx n { rxRing s1 n with resv := [] } s1
    resv.foldl (fun t v =>
      let u := ev 0x0A10 t
      if cause = 4 then discardLine v.packet u else discardFrame v.packet true u) s2

/-! ### Doorbells (R381) -/

/-- The path of the host to BAR2 (R360, R543). -/
def hostReaches (s : State) : Bool := reaches s .host

/-- A doorbell value is in range (R381). -/
def bellOk (r : Ring) (tail : Bool) (v : BitVec 32) : Bool :=
  if tail then (v - r.tail).toNat ≤ ringDescSize r && (v - r.done).toNat ≤ ringDescSize r
  else (v - r.head).toNat ≤ ringCplSize r && (r.prod - v).toNat ≤ ringCplSize r

/-- A doorbell of page n as an access to BAR2 (R381). -/
def bellAccess (rx : Bool) (n : Nat) (tail : Bool) (value : Word) (descs : List DescRead) : Access :=
  { req := .host, bar := 2, offset := 4096 * n + (if rx then 0x10 else 0) + (if tail then 0 else 8), size := 8, write := true
    value := value, poisoned := false, descs := descs }

/-- A doorbell write that reaches PD05 is ignored, refused, or taken by `f` (R381). -/
def takeBell (rx : Bool) (n : Nat) (tail : Bool) (value : Word) (f : BitVec 32 → State → State) (s : State) : State :=
  let v := value.setWidth 32
  if !ringLive (ringOf s rx n) then ev 0x0A11 s
  else if bellOk (ringOf s rx n) tail v then f v s
  else ringFails rx n 1 s

/-- A doorbell write: held by a wake, or dropped, while PD05 is not ON (R543). -/
def ringBell (rx : Bool) (n : Nat) (tail : Bool) (value : Word) (descs : List DescRead)
    (f : BitVec 32 → State → State) (s : State) : State :=
  if !hostReaches s || 2048 ≤ n then s
  else if on s 5 then takeBell rx n tail value f s
  else if holds s 5 then holdAccess 5 (bellAccess rx n tail value descs) s
  else ev 0x0D09 s

/-- What each doorbell does with a value in range (R381); a fetch held for completion room may go on. -/
def bellTxTail (n : Nat) (v : BitVec 32) (t : State) : State := setTx n { txRing t n with tail := v } t

def bellTxHead (n : Nat) (v : BitVec 32) (t : State) : State := setTx n { txRing t n with head := v, waiting := false } t

def bellRxHead (n : Nat) (v : BitVec 32) (t : State) : State := setRx n { rxRing t n with head := v } t

/-- TX_DESC_TAIL (R381). -/
def execTxDescTail (ring : Nat) (value : Word) (s : State) : Res :=
  done s (ringBell false ring true value [] (bellTxTail ring) s)

/-- TX_CPL_HEAD (R381). -/
def execTxCplHead (ring : Nat) (value : Word) (s : State) : Res :=
  done s (ringBell false ring false value [] (bellTxHead ring) s)

/-- RX_CPL_HEAD (R381). -/
def execRxCplHead (ring : Nat) (value : Word) (s : State) : Res :=
  done s (ringBell true ring false value [] (bellRxHead ring) s)

/-- The posted receive descriptors are read in index order; a bad read or length is DESC_DMA (R391, R396). -/
def readPosted : List DescRead → Nat → Option (List (Nat × Nat))
  | _, 0 => some []
  | [], _ + 1 => none
  | d :: r, k + 1 =>
    let len := le d.raw 8 2 % 16384
    if d.ok && 64 ≤ len then (readPosted r k).map ((le d.raw 0 8, len) :: ·) else none

/-- The tail moves, and a FRAMES ring reads what was posted. -/
def takePosted (ring : Nat) (descs : List DescRead) (v : BitVec 32) (s : State) : State :=
  let r := rxRing s ring
  let s1 := setRx ring { r with tail := v } s
  if !ringFrames r then s1
  else match readPosted descs (v - r.tail).toNat with
    | some l => setRx ring { r with tail := v, posted := r.posted ++ l } s1
    | none => ringFails true ring 2 s1

/-- RX_DESC_TAIL (R381, R391): `descs` are the descriptors posted by it, as host DMA reads them. -/
def execRxDescTail (ring : Nat) (value : Word) (descs : List DescRead) (s : State) : Res :=
  done s (ringBell true ring true value descs (takePosted ring descs) s)

/-! ### Transmit descriptors (R383, R385) -/

/-- The SOP fields of a transmit descriptor. -/
structure TxDesc where
  addr : Nat
  len : Nat
  flags : Nat
  off : Nat
  l3 : Nat
  l4 : Nat
  deadline : Nat
  tag : Nat
  mss : Nat
  hdr : Nat
  rest : Nat
  total : Nat
  deriving DecidableEq, Repr

def txDesc (b : List Byte) : TxDesc :=
  { addr := le b 0 8, len := le b 8 2, flags := le b 10 1, off := le b 11 1, l3 := le b 12 2, l4 := le b 14 2
    deadline := le b 16 4, tag := le b 20 2, mss := le b 22 2, hdr := le b 24 2, rest := le b 26 2, total := le b 28 4 }

def TxDesc.sop (d : TxDesc) : Bool := d.flags.testBit 0
def TxDesc.eop (d : TxDesc) : Bool := d.flags.testBit 1
def TxDesc.stamp (d : TxDesc) : Bool := d.flags.testBit 2
def TxDesc.report (d : TxDesc) : Bool := d.flags.testBit 3
def TxDesc.accept (d : TxDesc) : Bool := d.flags.testBit 4
def TxDesc.dlValid (d : TxDesc) : Bool := d.flags.testBit 5
def TxDesc.csumL3 (d : TxDesc) : Bool := d.flags.testBit 6
def TxDesc.csumL4 (d : TxDesc) : Bool := d.flags.testBit 7
def TxDesc.segment (d : TxDesc) : Bool := d.off.testBit 0
def TxDesc.l4kind (d : TxDesc) : Nat := d.off / 2 % 4

/-- The descriptors of one frame: through the first EOP, or 64; none where neither is posted (R384). -/
def frameDescs : Nat → List DescRead → Option (List DescRead)
  | 0, _ => some []
  | _ + 1, [] => none
  | n + 1, d :: r => if (txDesc d.raw).eop then some [d] else (frameDescs n r).map (d :: ·)

/-- The fields that must be zero in a descriptor without SOP. -/
def laterDescOk (d : TxDesc) : Bool :=
  d.flags &&& 0xFD == 0 && d.off == 0 && d.l3 == 0 && d.l4 == 0 && d.deadline == 0 && d.tag == 0 && d.mss == 0 && d.hdr == 0
    && d.total == 0

/-- The bytes of a frame, none where a buffer could not be read. -/
def frameData (ds : List DescRead) : Option (List Byte) :=
  ds.foldr (fun d acc => match d.data, acc with
    | some b, some r => some (pad ((txDesc d.raw).len % 16384) b ++ r)
    | _, _ => none) (some [])

/-- The IP version at L3OFF is not 4 or 6, where one is needed (R385). -/
def versionBad (h : TxDesc) (data : Option (List Byte)) : Bool :=
  match data with
  | some b => (h.segment || h.csumL3 || h.csumL4) && h.l3 < b.length
      && be b h.l3 1 / 16 != 4 && be b h.l3 1 / 16 != 6
  | none => false

/-- BAD_DESCRIPTOR (R385). -/
def descBad (ds : List DescRead) (h : TxDesc) : Bool :=
  let l := ds.map fun d => txDesc d.raw
  !h.sop || !((l.getLast?.map (·.eop)).getD false) || ((l.drop 1).any fun d => d.sop || !laterDescOk d)
    || (l.any fun d => d.len == 0 || 16384 ≤ d.len || d.rest != 0)
    || 8 ≤ h.off || 512 ≤ h.l3 || 512 ≤ h.l4 || 2 ^ 19 ≤ h.total || h.total != (l.map (·.len)).sum
    || h.l4kind == 3 || ((h.segment || h.csumL4) && h.l4kind == 0) || versionBad h (frameData ds)

/-- LENGTH_LIMIT (R270, R385). -/
def lengthBad (h : TxDesc) : Bool :=
  if h.segment then
    h.hdr < 14 || 256 < h.hdr || h.total ≤ h.hdr || 262144 < h.total - h.hdr || h.mss < 64 || 16000 < h.mss
      || 16383 < h.hdr + h.mss
  else h.total < 14 || 16383 < h.total

/-- Where the checksum field of TCP or UDP stands in its header. -/
def l4Field (kind : Nat) : Nat := if kind = 1 then 16 else 6

/-- CSUM_OFFSET (R269, R385): a header that an offset names does not lie within the frame, or within the header of a
segmented send. -/
def offsetBad (h : TxDesc) : Bool :=
  let lim := if h.segment then h.hdr else h.total
  ((h.csumL3 || h.csumL4 || h.segment) && lim < h.l3 + 20)
    || ((h.csumL4 || h.segment) && lim < h.l4 + l4Field h.l4kind + 2)

/-- The status of a frame at fetch (R385), none where it passes. -/
def fetchStatus (ds : List DescRead) (h : TxDesc) : Option Nat :=
  if descBad ds h then some 0x10
  else if lengthBad h then some 0x11
  else if offsetBad h then some 0x12
  else if (frameData ds).isNone then some 0x13
  else none

/-! ### Checksums and segments (R269, R270) -/

def isV6 (b : List Byte) (l3 : Nat) : Bool := be b l3 1 / 16 == 6

def ihl (b : List Byte) (l3 : Nat) : Nat := be b l3 1 % 16 * 4

/-- The IPv4 header checksum is inserted (R269). -/
def insertL3 (l3 : Nat) (b : List Byte) : List Byte :=
  if isV6 b l3 then b
  else
    let z := put16 b (l3 + 10) 0
    put16 z (l3 + 10) (0xFFFF - fold16 (sum16 (slice z l3 (ihl b l3))))

/-- The TCP or UDP checksum is inserted (R269). -/
def insertL4 (l3 l4 kind : Nat) (b : List Byte) : List Byte :=
  let len := if isV6 b l3 then be b (l3 + 4) 2 else be b (l3 + 2) 2 - ihl b l3
  let i : IpInfo := { v6 := isV6 b l3, off := l3, hlen := 0, l4len := len, proto := if kind = 1 then 6 else 17, frag := false }
  let o := l4 + l4Field kind
  let z := put16 b o 0
  let c := 0xFFFF - fold16 (pseudoSum z i len + sum16 (slice z l4 len))
  put16 z o (if kind = 2 ∧ c = 0 then 0xFFFF else c)

/-- The checksums that a descriptor asks for (R269). -/
def insertSums (h : TxDesc) (b : List Byte) : List Byte :=
  let c := if h.csumL4 then insertL4 h.l3 h.l4 h.l4kind b else b
  if h.csumL3 then insertL3 h.l3 c else c

/-- Segments of a send: ⌈P / M⌉ (R270). -/
def segCount (h : TxDesc) : Nat := (h.total - h.hdr + h.mss - 1) / h.mss

/-- The IP header of segment k rewritten (R270). -/
def segIp (h : TxDesc) (k : Nat) (b : List Byte) : List Byte :=
  if isV6 b h.l3 then put16 b (h.l3 + 4) (b.length - h.l3 - 40)
  else put16 (put16 b (h.l3 + 2) (b.length - h.l3)) (h.l3 + 4) ((be b (h.l3 + 4) 2 + k) % 65536)

/-- The TCP or UDP header of segment k rewritten (R270). -/
def segL4 (h : TxDesc) (k : Nat) (b : List Byte) : List Byte :=
  if h.l4kind = 1 then
    let seq := (be b (h.l4 + 4) 4 + k * h.mss) % 2 ^ 32
    let f := be b (h.l4 + 13) 1
    let f1 := if k + 1 = segCount h then f else f - f % 2 - 8 * (f / 8 % 2)
    let f2 := if k = 0 then f1 else f1 % 128
    b.take (h.l4 + 4) ++ natBe 4 seq ++ slice b (h.l4 + 8) 5 ++ natBe 1 f2 ++ b.drop (h.l4 + 14)
  else put16 b (h.l4 + 4) (b.length - h.l4)

/-- Segment k of a send, with every checksum inserted (R270). -/
def segment (h : TxDesc) (data : List Byte) (k : Nat) : List Byte :=
  let b := data.take h.hdr ++ ((data.drop h.hdr).drop (k * h.mss)).take h.mss
  insertL3 h.l3 (insertL4 h.l3 h.l4 h.l4kind (segL4 h k (segIp h k b)))

/-! ### The fetch (R384-R386) -/

/-- The event of a failed fetch (R399). -/
def failEvent (st : Nat) : Nat := if st = 0x10 then 0x0A02 else if st = 0x11 then 0x0A03 else if st = 0x12 then 0x0A04 else 0x0A05

/-- The completion of a frame that failed at fetch, written at once (R385, R388). -/
def fetchFailed (ring st desc : Nat) (h : TxDesc) (s : State) : State :=
  let r := txRing s ring
  let s1 := setTx ring { r with bad := r.bad + 1 } (ev (failEvent st) s)
  writeLive false ring (txCpl desc st 0xFF (if h.sop && h.stamp then h.tag else 0) 0 0xFFFFF s.tmu.ns 1 0 0) s1

/-- The host's part of a packet (R383). -/
def txInfoOf (ring desc : Nat) (h : TxDesc) (k n : Nat) : TxInfo :=
  { ring := ring, descIndex := desc, stamp := h.stamp, stampTag := h.tag, report := h.report
    acceptReport := h.accept && !h.segment, deadlineValid := h.dlValid, deadline := h.deadline
    segmented := h.segment, segIndex := k, segCount := n }

/-- One frame of a host ring enters parse (R384). -/
def hostFrame (ring desc : Nat) (h : TxDesc) (k n : Nat) (b : List Byte) (s : State) : State :=
  offerParse 0x0A 0 0 { newPacket .host ring b s.tmu.ns s.tmu.frac with tx := some (txInfoOf ring desc h k n) } s

/-- A frame that passes its checks is sent, whole or in segments (R270, R386). -/
def fetchGood (ring desc : Nat) (h : TxDesc) (data : List Byte) (s : State) : State :=
  let r := txRing s ring
  if h.segment then
    let n := segCount h
    let s1 := setTx ring { r with reserved := r.reserved + 1 } s
    let s2 := { s1 with dma := { s1.dma with sends := s1.dma.sends ++
      [{ ring := ring, desc := desc, total := n, arrival := s.tmu.ns, tag := if h.stamp then h.tag else 0, ends := [] }] } }
    (List.range n).foldl (fun t k => hostFrame ring desc h k n (segment h data k) (ev 0x0A06 t)) s2
  else
    let s1 := setTx ring { r with reserved := r.reserved + (if h.accept then 2 else 1) } s
    hostFrame ring desc h 0 1 (insertSums h data) s1

/-- Completion slots that a frame needs at fetch (R386). -/
def slotsNeeded (h : TxDesc) : Nat := if h.sop && h.accept && !h.segment then 2 else 1

/-- One frame is fetched from a ring: its descriptors are consumed, then it is checked (R384, R385). -/
def fetchFrame (ring : Nat) (ds : List DescRead) (s : State) : State :=
  let r := txRing s ring
  let h := txDesc ((ds.head?.map (·.raw)).getD [])
  if !ds.all (·.ok) then ringFails false ring 2 s
  else if ringCplSize r < cplUsed r + slotsNeeded h then
    if r.waiting then s else ev 0x0A07 (setTx ring { r with waiting := true } s)
  else
    let s1 := ev 0x0A01 (setTx ring { r with
      done := r.done + BitVec.ofNat 32 ds.length, good := r.good + 1, waiting := false } s)
    match fetchStatus ds h with
    | some st => fetchFailed ring st r.done.toNat h s1
    | none => fetchGood ring r.done.toNat h ((frameData ds).getD []) s1

/-- HOST_TX_FETCH (R384): a RUNNING ring takes its turn; `descs` are its posted descriptors from DESC_DONE on, as host DMA
reads them. -/
def execHostTxFetch (ring : Nat) (descs : List DescRead) (s : State) : Res :=
  let r := txRing s ring
  if ring < 2048 && hostMem s && r.st == .running then
    match frameDescs 64 (descs.take (r.tail - r.done).toNat) with
    | some ds => done s (fetchFrame ring ds s)
    | none => done s s
  else done s s

/-! ### Receive (R393-R395) -/

def deliveryCode : Delivery → Nat
  | .queue => 0
  | .filter => 1
  | .exception => 2
  | .circuit => 3

/-- ID of a receive completion (R395). -/
def rxId (p : Packet) : Nat :=
  match p.delivery with
  | .filter => p.filter.getD 0
  | .circuit => p.circuit.getD 0
  | .queue | .exception => flowId p.ctx

/-- A receive completion (R395). -/
def rxCpl (v : Resv) : List Byte :=
  let p := v.packet
  let parsed := p.delivery == .queue || p.delivery == .exception
  let user := match p.ctx with
    | some c => if parsed then fld c.c2 31 0 else 0
    | none => 0
  natLe 4 v.index.toNat ++ natLe 2 p.bytes.length ++ natLe 1 v.bufs.length
    ++ natLe 1 (kindCode p.kind + at' (deliveryCode p.delivery) 3 + at' (b2n p.corrupt) 5)
    ++ natLe 4 (rxId p) ++ natLe 4 user ++ natLe 4 (if parsed then p.facts.user else 0) ++ natLe 4 (p.arrival % 2 ^ 32)
    ++ natLe 2 (p.arrivalFrac / 2 ^ 16) ++ natLe 1 (if p.delivery = .exception then p.reason else 0)
    ++ natLe 1 (if parsed then p.pflags.toNat else 0) ++ natLe 1 (p.csumL3 + at' p.csumL4 2) ++ natLe 3 p.index

/-- The frame's bytes go into its buffers in order, each filled before the next (R393). -/
def fillBufs : List (Nat × Nat) → List Byte → State → State
  | [], _, s => s
  | (a, n) :: r, b, s => fillBufs r (b.drop n) (if b.isEmpty then s else emit (.hostWrite a (b.take n)) s)

/-- RX_DELIVERED (R393): the oldest reserved frame is written, then its completion; its boundary is passed (R252). -/
def execRxDelivered (ring : Nat) (s : State) : Res :=
  let r := rxRing s ring
  match r.resv with
  | v :: rest =>
    if hostMem s && ringLive r then
      let s1 := setRx ring { r with
        resv := rest, reserved := r.reserved - 1, done := r.done + BitVec.ofNat 32 v.bufs.length, good := r.good + 1 }
        (fillBufs v.bufs v.packet.bytes s)
      let s2 := ev 0x0A08 (writeCpl true ring (rxCpl v) s1)
      done s (framePasses v.packet (68 + ringGroup r) s.tmu.ns s2)
    else done s s
  | [] => done s s

/-- RX_HOLD_DROP (R394): the wait of a head frame reaches HOLD, and it still cannot reserve. -/
def execRxHoldDrop (port : Nat) (source : HeadSrc) (s : State) : Res :=
  if isGroup port && on s 5 && s.dma.waits.contains source then
    match headOf s source with
    | some (p, r) =>
      if canReserve s r (port - 68) p then done s s
      else
        let s1 := { s with dma := { s.dma with waits := s.dma.waits.filter (· != source) } }
        done s (judgeHeads port (discardLine p (ev 0x0A0A (ringDrop r (popHead source s1)))))
    | none => done s s
  else done s s

end Sys2Proof.Machine
end

