-- ==== Sys2Proof/Machine/TinOps.lean ====
section
/-! DEFINITION. The tin as a device: its keys, its log, its records, its seconds and bins, its snapshots (R336-R351). -/

namespace Sys2Proof

open Sys2Proof.Machine

/-- A second of tin time in units of 1/32,768 s (R341). -/
def tinSec : Nat := 32768

def TinDevice.secs (d : TinDevice) : Nat := d.time / tinSec

/-- The tin serial as it stands in derivations and messages: 8 bytes, little-endian (R3, R346). -/
def TinDevice.t (d : TinDevice) : List Byte := natLe 8 d.serial.toNat

def TinDevice.kProv (d : TinDevice) : List Byte := kdf d.kTT "CHNL-TIN-PROV" d.t

def TinDevice.kRec (d : TinDevice) : List Byte := kdf d.kOp "CHNL-TIN-REC" d.t

def TinDevice.kLog (d : TinDevice) : List Byte := kdf d.kOp "CHNL-TIN-LOG" d.t

def TinDevice.kCmd (d : TinDevice) : List Byte := kdf d.kOp "CHNL-TIN-CMD" d.t

def TinDevice.kWrap (d : TinDevice) : List Byte := kdf d.kOp "CHNL-TIN-WRAP" d.t

/-- The uncertainty U in ms, rounded up (R342). -/
def TinDevice.uncert (d : TinDevice) : Nat :=
  if d.timeLost then 0xFFFFFFFF
  else (1000 + (20 * (d.time - d.disciplined) + tinSec - 1) / tinSec + 999) / 1000

/-! ### Log (R350) -/

/-- A log entry is written; none once the case has been opened (R352, R356). -/
def tlog (code : Nat) (data : List Nat) (d : TinDevice) : TinDevice :=
  if d.mode = .tampered then d
  else
    let b := natLe 8 d.nextLog ++ natLe 8 d.secs ++ natLe 2 code ++ [0, 0] ++ pad 20 (data.flatMap (natLe 8))
      ++ pad 8 d.lastLogCmac
    let c := if d.kOp.isEmpty then List.replicate 16 0 else cmac d.kLog b
    { d with
      nextLog := d.nextLog + 1, lastLogCmac := c
      log := (d.log ++ [({ seq := d.nextLog, bytes := b ++ c } : TinRecord)]).drop (d.log.length + 1 - 4096) }

/-! ### Bins (R343, R344) -/

def tinBinReset : TinBin :=
  { octDown := 0, octUp := 0, kept := 0, brokenHe := 0, brokenLf := 0, brokenLp := 0, shortfall := 0, pushes := 0
    availS := 0, unavailS := 0, noDataS := 0, dipCount := 0, flags := 0, maxUncert := 0, secPushes := 0, secErrored := 0
    secDefect := false, unavailable := false, runLen := 0, runSes := false }

def TinDevice.objects (d : TinDevice) : List Nat :=
  match d.map with
  | some m => m.objects
  | none => []

/-- The slots of the map that name an object. -/
def TinDevice.slots (d : TinDevice) : List Nat := (List.range 64).filter fun k => nth d.objects k 0 != 0

/-- The tin meters: METERING, bound to the module's serial (R338). -/
def TinDevice.meters (d : TinDevice) (serial : Word) : Bool :=
  d.running && d.mode == .metering && (match d.map with | some m => m.serial == serial | none => false)

def TinDevice.bin (d : TinDevice) (k : Nat) : TinBin := mget tinBinReset d.bins k

def TinDevice.setBin (k : Nat) (b : TinBin) (d : TinDevice) : TinDevice := { d with bins := mput tinBinReset d.bins k b }

/-- Every open bin changes. -/
def TinDevice.mapBins (f : TinBin → TinBin) (d : TinDevice) : TinDevice :=
  d.slots.foldl (fun t k => t.setBin k (f (t.bin k))) d

/-- A flag of R345 in a bin. -/
def TinBin.flag (n : Nat) (b : TinBin) : TinBin := { b with flags := b.flags ||| BitVec.ofNat 8 (2 ^ n) }

def TinBin.seconds (b : TinBin) : Nat := b.availS + b.unavailS + b.noDataS

/-- `n` seconds move from available to unavailable, or back. -/
def TinBin.moveSecs (toUnavail : Bool) (n : Nat) (b : TinBin) : TinBin :=
  if toUnavail then { b with availS := b.availS - n, unavailS := b.unavailS + n }
  else { b with availS := b.availS + n, unavailS := b.unavailS - n }

/-- The second of a slot ends (R343): its class, and the run of ten, whose seconds may lie in the bin just closed. -/
def classifySecond (prev b : TinBin) : TinBin × TinBin :=
  let b1 := { b with secPushes := 0, secErrored := 0, secDefect := false }
  if b.secPushes = 0 then (prev, { b1 with noDataS := b.noDataS + 1, unavailable := false, runLen := 0 })
  else
    let ses := decide (2400 ≤ b.secErrored) || b.secDefect
    let b2 := if b.unavailable then { b1 with unavailS := b.unavailS + 1, runSes := ses }
      else { b1 with availS := b.availS + 1, runSes := ses }
    if ses = b.unavailable then (prev, { b2 with runLen := 0 })
    else if b.runLen + 1 < 10 then (prev, { b2 with runLen := b.runLen + 1 })
    else
      let inCur := min 10 b2.seconds
      (prev.moveSecs ses (10 - inCur), { b2.moveSecs ses inCur with unavailable := ses, runLen := 0 })

/-- The last closing bin's slot changes. -/
def putClosing (k : Nat) (b : TinBin) : List TinClosing → List TinClosing
  | [] => []
  | [c] => [{ c with bins := mput tinBinReset c.bins k b }]
  | c :: r => c :: putClosing k b r

/-- The second of every metered object ends. -/
def secondEnds (d : TinDevice) : TinDevice :=
  d.slots.foldl (fun t k =>
    match t.closing.getLast? with
    | some c =>
      let r := classifySecond (mget tinBinReset c.bins k) (t.bin k)
      { t.setBin k r.2 with closing := putClosing k r.1 t.closing }
    | none => t.setBin k (classifySecond tinBinReset (t.bin k)).2) d

/-- The open bins note the tin's uncertainty (R342). -/
def noteUncert (d : TinDevice) : TinDevice := d.mapBins fun b => { b with maxUncert := max b.maxUncert d.uncert }

/-- The bin that follows a closed one: only availability and its run go on. -/
def TinBin.next (b : TinBin) : TinBin :=
  { tinBinReset with
    unavailable := b.unavailable, runLen := b.runLen, runSes := b.runSes
    secPushes := b.secPushes, secErrored := b.secErrored, secDefect := b.secDefect }

/-- The open bins close; the next begins at `start` (R344). -/
def closeBins (start : Nat) (closed : Bool) (d : TinDevice) : TinDevice :=
  let c : TinClosing := { start := d.binStart, bins := d.bins, closedFlag := closed, objects := d.objects, configSeq := d.configSeq }
  d.slots.foldl (fun t k => t.setBin k (d.bin k).next) { d with closing := d.closing ++ [c], bins := [], binStart := start }

/-- The start of the bin that holds the present tin time. -/
def TinDevice.binNow (d : TinDevice) : Nat := d.secs / 900 * 900

/-! ### Records (R345, R347) -/

def satN (bits n : Nat) : Nat := min n (2 ^ bits - 1)

/-- Bytes 0-111 of a record. -/
def recordBody (d : TinDevice) (c : TinClosing) (slot : Nat) : List Byte :=
  let b := mget tinBinReset c.bins slot
  let part := c.closedFlag || decide (b.seconds < 900) || b.noDataS != 0
  let flags := b.flags ||| BitVec.ofNat 8 (b2n part) ||| BitVec.ofNat 8 (128 * b2n c.closedFlag)
  natLe 8 d.nextSeq ++ natLe 8 c.start ++ natLe 2 (nth c.objects slot 0) ++ natLe 1 slot ++ [flags] ++ natLe 4 b.maxUncert
    ++ natLe 8 b.octDown ++ natLe 8 b.octUp ++ natLe 2 b.availS ++ natLe 2 b.unavailS ++ natLe 2 b.noDataS
    ++ natLe 2 (satN 16 b.dipCount) ++ natLe 8 b.kept ++ natLe 8 b.brokenHe ++ natLe 8 b.brokenLf ++ natLe 8 b.brokenLp
    ++ natLe 8 b.shortfall ++ natLe 4 b.pushes ++ natLe 4 c.configSeq ++ natLe 4 d.keyGen ++ natLe 4 0 ++ pad 8 d.lastCmac

/-- The oldest record leaves a full ring of 258,048 slots; its SEQ, where it was not collected. -/
def makeRoom (d : TinDevice) : TinDevice × Option Nat :=
  if d.records.length < 258048 then (d, none)
  else
    let old := (d.records.head?.map (·.seq)).getD 0
    ({ d with records := d.records.drop 1 }, if d.collected < old then some old else none)

/-- One record is written; the SEQs of the uncollected records it overwrites are gathered. -/
def writeOne (c : TinClosing) (x : TinDevice × List Nat) (slot : Nat) : TinDevice × List Nat :=
  let (d, lost) := makeRoom x.1
  let b := recordBody d c slot
  let m := cmac d.kRec b
  ({ d with nextSeq := d.nextSeq + 1, lastCmac := m, records := d.records ++ [{ seq := d.nextSeq, bytes := b ++ m }] },
    x.2 ++ lost.toList)

/-- Uncollected records held. -/
def TinDevice.uncollected (d : TinDevice) : Nat := (d.records.filter fun r => d.collected < r.seq).length

/-- The records of a closed bin are written in slot order; overwriting is logged with its range. The notices that R347
sends on T2H1 follow: kinds 0 and 1. -/
def writeBin (c : TinClosing) (d : TinDevice) : TinDevice × List Nat :=
  let slots := (List.range 64).filter fun k => nth c.objects k 0 != 0
  let (d1, lost) := slots.foldl (writeOne c) (d, [])
  let d2 := match lost with
    | [] => d1
    | a :: _ => tlog 0x0040 [a, lost.getLastD a] d1
  let full := decide (232243 < d2.uncollected)
  ({ d2 with noticed90 := full }, (if lost.isEmpty then [] else [0]) ++ (if full && !d2.noticed90 then [1] else []))

/-- Every closed bin is written. -/
def writeAll : List TinClosing → TinDevice → TinDevice × List Nat
  | [], d => (d, [])
  | c :: r, d =>
    let (d1, n1) := writeBin c { d with closing := r }
    let (d2, n2) := writeAll r d1
    (d2, n1 ++ n2)

/-! ### Power (R351) -/

/-- A snapshot of the open bins and of tin time. -/
def snapshot (d : TinDevice) : TinDevice := { d with snapBins := d.bins, snapStart := d.binStart, snapTime := d.time }

/-- `n` seconds without pushes. -/
def TinBin.idleSecs (n : Nat) (b : TinBin) : TinBin :=
  if n = 0 then b else { b with noDataS := b.noDataS + n, unavailable := false, runLen := 0 }

/-- The tin is powered again: its snapshot is restored, the interrupted bin goes on or is written at once. -/
def powerOn (d : TinDevice) : TinDevice × List Nat :=
  let d0 : TinDevice := { d with running := true, warnHeld := false, mismatch := false, bins := d.snapBins, binStart := d.snapStart }
  let d1 := if d.capacitorOk then d0 else tlog 0x0031 [] { d0 with time := d.snapTime, timeLost := true }
  let snap := d1.snapTime / tinSec
  let (d2, n2) :=
    if d1.mode != .metering then (d1, [])
    else
      -- the interrupted second ends as it was, when tin time has left it
      let gone := d1.secs - snap
      let d3 := if gone = 0 then d1 else secondEnds d1
      let d4 := d3.mapBins fun b => TinBin.flag 4 (if d1.timeLost then b.flag 2 else b)
      if d1.secs < d1.binStart + 900 then (d4.mapBins (·.idleSecs (gone - 1)), [])
      else
        let d5 := d4.mapBins (·.idleSecs (d1.binStart + 900 - snap - 1))
        let d6 := closeBins d1.binNow false d5
        let d7 := d6.mapBins fun b => TinBin.flag 4 (b.idleSecs (d1.secs - d1.binNow))
        writeAll d7.closing d7
  let d8 := noteUncert (tlog 0x0022 [] (tlog 0x0021 [snap] d2))
  (if d8.bayLatched then { (tlog 0x0010 [d8.bayTime] d8).mapBins (·.flag 6) with bayLatched := false } else d8, n2)

end Sys2Proof
end

