-- ==== Sys2Proof/Machine/Tin.lean ====
section
/-! DEFINITION. The metering link and its taps, the rows of the tin, its messages, the bay, the tin relay (R10, R336-R356,
R439). -/

namespace Sys2Proof.Machine

def setTin (d : TinDevice) (s : State) : State := { s with tin := { s.tin with dev := some d } }

/-! ### What the tin sends (R348) -/

/-- The oldest message for a channel goes out when the channel is free; firmware takes a relayed reply at once. -/
def tinTrySend (c : Nat) (s : State) : State :=
  match s.tin.out.find? (·.1 == c) with
  | some m =>
    if on s 6 && (chan s c).st != .posted then
      let x := chan s c
      let t := post c (setChan c { x with words := putWords 0 m.2 x.words }
        { s with tin := { s.tin with out := s.tin.out.erase m } })
      if c = 20 && fwTalks t then
        finishWait .tinRelay 0 (m.2.drop 1) (acknowledge 20 (chan t 20).postedSeq 0 0 t)
      else if c = 20 then wakeMgmt 20 t
      else t
    else s
  | none => s

def tinSend (c : Nat) (words : List Word) (s : State) : State :=
  tinTrySend c { s with tin := { s.tin with out := s.tin.out ++ [(c, words)] } }

/-- The tin's notices on T2H1 (R347). -/
def tinNotices (l : List Nat) (s : State) : State := l.foldl (fun t k => tinSend 17 [Config.tinNotice k] t) s

/-- The tin after its device and its notices changed. -/
def putTin (x : TinDevice × List Nat) (s : State) : State := tinNotices x.2 (setTin x.1 s)

/-- A row of the tin, while one is powered. -/
def onTin (f : TinDevice → TinDevice × List Nat) (s : State) : State :=
  match s.tin.dev with
  | some d => if d.running then putTin (f d) s else s
  | none => s

/-! ### Taps and the link (R338-R340) -/

/-- The tap map that the tin writes: its objects while it meters this module (R338). -/
def tapMap (d : TinDevice) (serial : Word) : List Nat :=
  if d.meters serial then (List.range 64).map fun k => nth d.objects k 0 else List.replicate 64 0

/-- The tin writes the tap map, and the taps clear their accumulators. -/
def writeTaps (s : State) : State :=
  match s.tin.dev with
  | some d => { s with tin := { s.tin with map := tapMap d s.fw.serial, accs := [] } }
  | none => { s with tin := { s.tin with map := List.replicate 64 0, accs := [] } }

/-- The link goes down: the taps lose what they held (R340). -/
def tinLinkDown (s : State) : State := { s with tin := { s.tin with link := false, accs := [], snapAck := false } }

/-- METERING_LINK_UP (R338). -/
def execMeteringLinkUp (s : State) : Res :=
  match s.tin.dev with
  | some d =>
    if d.running && s.pwr.supplyGood then done s (writeTaps { s with tin := { s.tin with link := true } })
    else done s s
  | none => done s s

/-- DEFECT of a pushed object beyond the taps' own: absent from the active page, or without a contract (R339). -/
def absent (s : State) (obj : Nat) : Bool :=
  if obj / 0x1000 = 1 then
    blocksOf s s.cir.active (obj % 0x1000) false == 0 && blocksOf s s.cir.active (obj % 0x1000) true == 0
  else (gsContract s (obj % 0x1000)).cur.isNone

/-- A push reaches a slot of the tin (R343). -/
def takeEntry (s : State) (d : TinDevice) (k : Nat) : TinDevice :=
  let a := tap s k
  let b := d.bin k
  d.setBin k { b with
    octDown := b.octDown + a.octDown, octUp := b.octUp + a.octUp, kept := b.kept + a.kept
    brokenHe := b.brokenHe + a.brokenHe, brokenLf := b.brokenLf + a.brokenLf, brokenLp := b.brokenLp + a.brokenLp
    shortfall := b.shortfall + a.shortfall, pushes := b.pushes + 1, secPushes := b.secPushes + 1
    secErrored := b.secErrored + b2n a.errored, secDefect := b.secDefect || a.defect || entityDefect s (nth d.objects k 0) || absent s (nth d.objects k 0) }

/-- What the tin makes of POWER_WARN in a push (R351). -/
def takeWarn (warn : Bool) (d : TinDevice) : TinDevice :=
  if warn && !d.warnHeld then snapshot { d with warnHeld := true, warnAt := d.secs }
  else if !warn && d.warnHeld then
    let d1 := tlog 0x0020 [d.warnAt, d.secs] { d with warnHeld := false }
    d1.mapBins fun b => TinBin.flag 3 { b with dipCount := b.dipCount + 1 }
  else d

/-- The tin takes a push (R339, R343, R353). -/
def takePush (s : State) (d : TinDevice) : TinDevice :=
  let wrong := d.mode == .metering && (match d.map with | some m => m.serial != s.fw.serial | none => false)
  let d1 : TinDevice := { (if wrong && !d.mismatch then tlog 0x0042 [s.fw.serial.toNat] d else d) with mismatch := wrong }
  let d2 := if d1.meters s.fw.serial then d1.slots.foldl (takeEntry s) d1 else d1
  takeWarn s.pwr.warn d2

/-- METERING_PUSH (R339, R340): once per line frame; the taps clear what an acknowledged push carried. -/
def execMeteringPush (acked : Bool) (s : State) : Res :=
  match s.tin.dev with
  | some d =>
    if tinReady s && d.running then
      let s1 := { s with tin := { s.tin with pushSeq := s.tin.pushSeq + 1 } }
      if acked then
        done s { s1 with tin := { s1.tin with
          dev := some (takePush s d), accs := [], snapAck := s.pwr.warn } }
      else done s s1
    else done s s
  | none => done s s

/-! ### Tin time, seconds, bins (R341-R344, R351) -/

/-- The tin steps, slews or trims by δ ns (R341). A step that leaves the second closes the bin it passes. -/
def discipline (delta : Int) (d : TinDevice) : TinDevice :=
  let d0 := noteUncert d
  let d1 :=
    if 1000000 < delta then
      let t := d.time + (roundDiv (delta * tinSec) 1000000000).toNat
      let stepped := tlog 0x0030 [delta.toNat] { d0 with time := t, slew := 0 }
      let cut := if t / tinSec = d.secs then stepped
        else stepped.mapBins fun b => { b with secPushes := 0, secErrored := 0, secDefect := false }
      let marked := cut.mapBins (·.flag 1)
      if marked.mode = .metering ∧ marked.binStart + 900 ≤ marked.secs then
        (closeBins marked.binNow false marked).mapBins (·.flag 1)
      else marked
    else if delta < -1000000 then { d0 with slew := (roundDiv (-delta * tinSec) 1000000000).toNat }
    else { d0 with slew := 0, trimPpm := max (-50) (min 50 (roundDiv delta 16000)) }
  let d2 := { d1 with disciplined := d1.time, timeLost := false }
  if d.timeLost then tlog 0x0032 [] d2 else d2

/-- TIN_TIME_DISCIPLINE (R341): when the push shows LOCKED and an UNCERTAINTY of at most 100,000 ns. -/
def execTinTimeDiscipline (s : State) : Res :=
  if tinReady s && timeReady s && s.tmu.st == .locked && uncertainty s ≤ 100000 then
    done s (onTin (fun d => (discipline ((s.tmu.ns : Int) - (d.time * 1000000000 / tinSec : Nat)) d, [])) s)
  else done s s

/-- TIN_SECOND (R343): a second of tin time ends. An unpowered tin only counts it (R336). -/
def execTinSecond (s : State) : Res :=
  match s.tin.dev with
  | some d =>
    let d1 := if d.meters s.fw.serial then secondEnds d else d
    let d2 := { d1 with time := (d.secs + 1) * tinSec }
    done s (setTin (if d.running then noteUncert d2 else d2) s)
  | none => done s s

/-- TIN_BIN_CLOSE (R344): tin time has reached the end of the bin. -/
def execTinBinClose (s : State) : Res :=
  done s (onTin (fun d =>
    if d.mode = .metering ∧ d.binStart + 900 ≤ d.secs then (closeBins d.binNow false d, []) else (d, [])) s)

/-- TIN_RECORD_WRITE (R344): 10 s after a bin's close, its records. -/
def execTinRecordWrite (s : State) : Res :=
  done s (onTin (fun d =>
    match d.closing with
    | c :: r => if c.start + 910 ≤ d.secs then writeBin c { d with closing := r } else (d, [])
    | [] => (d, [])) s)

/-- TIN_SNAPSHOT (R351): once per second. -/
def execTinSnapshot (s : State) : Res := done s (onTin (fun d => (snapshot d, [])) s)

/-- TIN_WARN_SNAPSHOT (R351): every 1 ms while POWER_WARN holds. -/
def execTinWarnSnapshot (s : State) : Res := done s (onTin (fun d => (if d.warnHeld then snapshot d else d, [])) s)

/-- MAP_APPLIED (R338): at E the pending map takes force; the bins of the old map close first. -/
def applyMap (d : TinDevice) : TinDevice :=
  match d.pendingMap with
  | some m =>
    if m.effective ≤ d.secs then
      let d1 := if d.mode = .metering ∧ d.binStart < d.binNow then closeBins d.binNow false d else d
      let d2 : TinDevice := { d1 with
        mode := .metering, map := some m, pendingMap := none, configSeq := d1.configSeq + 1, bins := [], binStart := d.binNow }
      noteUncert ((tlog 0x0002 [d2.configSeq, m.effective] d2).mapBins (·.flag 5))
    else d
  | none => d

def execMapApplied (s : State) : Res :=
  match s.tin.dev with
  | some d =>
    let d1 := applyMap d
    if d.running && d1.pendingMap.isNone && d.pendingMap.isSome then done s (writeTaps (setTin d1 s)) else done s s
  | none => done s s

/-! ### Messages (R348, R349) -/

/-- The types of R349. -/
def tinTypes : List Nat := [1, 2, 3, 4, 0x10, 0x11, 0x12, 0x13, 0x14]

/-- A message waits for the tin on H2T0 or F2T0, of this type. -/
def tinMsg (s : State) (viaFw : Bool) (type : Nat) : Option (List Word) :=
  let c := chan s (if viaFw then 19 else 18)
  if tinReady s && on s 6 && c.st == .posted && fld (chanWord c 0) 63 48 == type then some (msgWords c) else none

/-- What the tin answers: its code, and the reply's words from word 1. -/
abbrev TinAns := Nat × Option (List Word)

/-- The message is acknowledged, and its reply goes out (R348); a relay without a reply ends with the code (R439). -/
def tinAnswer (viaFw : Bool) (ws : List Word) (a : TinAns) (s : State) : State :=
  let w := arg ws 0
  let s1 := acknowledge (if viaFw then 19 else 18) (fld w 47 32) 0 a.1 s
  match a.2 with
  | some body =>
    tinSend (if viaFw then 20 else 16)
      (word (at' (fld w 63 48 ||| 0x8000) 48 + at' (fld w 47 32) 32 + at' (1 + body.length) 24) :: body) s1
  | none => if viaFw && fwTalks s1 then finishWait .tinRelay a.1 [] s1 else s1

/-- One message is taken: `n` is its length in words. -/
def tinTake (viaFw : Bool) (type n : Nat) (f : TinDevice → List Word → TinDevice × List Nat × TinAns) (s : State) : State :=
  match s.tin.dev, tinMsg s viaFw type with
  | some d, some ws =>
    if ws.length ≠ n then tinAnswer viaFw ws (0x8002, none) s
    else
      let r := f d ws
      tinAnswer viaFw ws r.2.2 (putTin (r.1, r.2.1) s)
  | _, _ => s

/-- A message that only reads. -/
def tinRead (viaFw : Bool) (type n : Nat) (f : TinDevice → List Word → TinAns) (s : State) : State :=
  tinTake viaFw type n (fun d ws => (d, [], f d ws)) s

def tinModeCode : TinMode → Nat
  | .unprovisioned => 0
  | .provisioned => 1
  | .metering => 2
  | .closed => 3
  | .tampered => 4

/-- A map in a reply: the bound serial, E, the 64 slots. -/
def mapWords (m : Option TinMap) : List Word :=
  match m with
  | some m => m.serial :: word m.effective :: bytesWords 16 ((List.range 64).flatMap fun k => natLe 2 (nth m.objects k 0))
  | none => List.replicate 18 0

def newestSeq (l : List TinRecord) (next : Nat) : Nat := if l.isEmpty then 0 else next - 1

/-- The fields of STATUS in the order of R349, a word each. -/
def statusWords (d : TinDevice) : List Word :=
  [word (tinModeCode d.mode), d.serial, word d.secs, word d.uncert, word d.keyGen, word d.configSeq,
    (match d.map with | some m => m.serial | none => 0), word ((d.records.head?.map (·.seq)).getD 0),
    word (newestSeq d.records d.nextSeq), word d.collected, word d.lastCounter, word (newestSeq d.log d.nextLog)]
    ++ (mapWords d.pendingMap).drop 2
    ++ [(match d.pendingMap with | some m => word m.effective | none => 0)]

/-- STATUS (R349). -/
def execTinStatus (viaFw : Bool) (s : State) : Res := done s (tinRead viaFw 1 1 (fun d _ => (0, some (statusWords d))) s)

/-- `n` held entries from a sequence number on, or NOT_FOUND. -/
def readEntries (l : List TinRecord) (first n most words : Nat) : TinAns :=
  if n = 0 ∨ most < n then (0x8006, none)
  else
    let r := (List.range n).filterMap fun k => l.find? fun e => e.seq == first + k
    if r.length < n then (0x8D05, none) else (0, some (r.flatMap fun e => bytesWords words e.bytes))

/-- READ_RECORDS (R349). -/
def execTinReadRecords (viaFw : Bool) (s : State) : Res :=
  done s (tinRead viaFw 2 3 (fun d ws => readEntries d.records (arg ws 1).toNat (arg ws 2).toNat 3 16) s)

/-- READ_LOG (R349). -/
def execTinReadLog (viaFw : Bool) (s : State) : Res :=
  done s (tinRead viaFw 3 3 (fun d ws => readEntries d.log (arg ws 1).toNat (arg ws 2).toNat 7 8) s)

/-- READ_MAP (R349). -/
def execTinReadMap (viaFw : Bool) (s : State) : Res :=
  done s (tinRead viaFw 4 1 (fun d _ => (0, some (mapWords d.map ++ mapWords d.pendingMap))) s)

/-- The refusal of an authenticated message, in the order of R349; none when it passes. -/
def authRefusal (d : TinDevice) (modes : List TinMode) (key : List Byte) (ws : List Word) : Option Nat :=
  let body := ws.dropLast.dropLast
  if d.mode = .tampered then some 0x8D04
  else if !modes.contains d.mode then some 0x8D03
  else if cmac key (wordsBytes body) ≠ wordsBytes (ws.drop body.length) ∨ arg ws 2 ≠ d.serial then some 0x8D01
  else if (arg ws 1).toNat ≤ d.lastCounter then some 0x8D02
  else none

/-- An authenticated message: refused and logged, refused for its arguments, or taken with its COUNTER. -/
def tinAuth (viaFw : Bool) (type n : Nat) (modes : List TinMode) (key : TinDevice → List Byte)
    (f : TinDevice → List Word → Option (TinDevice × List Nat)) (s : State) : State :=
  tinTake viaFw type n (fun d ws =>
    match authRefusal d modes (key d) ws with
    | some c =>
      let d1 := if c = 0x8D01 ∨ c = 0x8D02 then tlog 0x0041 [type, (arg ws 1).toNat] d else d
      (d1, [], (c, none))
    | none =>
      match f { d with lastCounter := (arg ws 1).toNat } ws with
      | some r => (r.1, r.2, (0, none))
      | none => (d, [], (0x8006, none))) s

/-- The wrapped key of PROVISION and REKEY: 40 bytes in words 3-7. -/
def wrapped (ws : List Word) : List Byte := wordsBytes ((List.range 5).map fun k => arg ws (3 + k))

/-- PROVISION (R346): COUNTER and SEQ start afresh. -/
def execTinProvision (viaFw : Bool) (s : State) : Res :=
  done s (tinAuth viaFw 0x10 10 [.unprovisioned] TinDevice.kProv (fun d ws =>
    (kwUnwrap d.kProv (wrapped ws)).map fun k =>
      let d1 : TinDevice := { d with
        kOp := k, mode := .provisioned, keyGen := d.keyGen + 1, lastCounter := 0, nextSeq := 1, lastCmac := [] }
      (tlog 0x0001 [d1.keyGen] d1, [])) s)

/-- E of SET_OBJECTS (R338): none where it is out of range. -/
def effectiveAt (d : TinDevice) (e : Nat) : Option Nat :=
  if e = 0 then some ((d.secs + 60 + 899) / 900 * 900)
  else if e % 900 = 0 ∧ d.secs + 60 ≤ e then some e
  else none

/-- An OBJECT code of R345, or an empty slot. -/
def objectOk (o : Nat) : Bool := o == 0 || (0x1000 ≤ o && o ≤ 0x10FF) || (0x2000 ≤ o && o ≤ 0x203F)

/-- SET_OBJECTS (R338). -/
def execTinSetObjects (viaFw : Bool) (s : State) : Res :=
  done s (tinAuth viaFw 0x11 23 [.provisioned, .metering, .closed] TinDevice.kCmd (fun d ws =>
    let b := wordsBytes ((List.range 16).map fun k => arg ws (5 + k))
    let objs := (List.range 64).map fun k => le b (2 * k) 2
    let named := objs.filter (· != 0)
    match effectiveAt d (arg ws 4).toNat with
    | some e =>
      if objs.all objectOk && decide named.Nodup then
        some ({ d with pendingMap := some { serial := arg ws 3, effective := e, objects := objs } }, [])
      else none
    | none => none) s)

/-- MARK_COLLECTED (R347): the mark moves only upward. -/
def execTinMarkCollected (viaFw : Bool) (s : State) : Res :=
  done s (tinAuth viaFw 0x12 6 [.provisioned, .metering, .closed] TinDevice.kCmd (fun d ws =>
    let n := (arg ws 3).toNat
    if newestSeq d.records d.nextSeq < n then none
    else if n ≤ d.collected then some (d, [])
    else
      let d1 := tlog 0x0004 [n] { d with collected := n }
      some ({ d1 with noticed90 := decide (232243 < d1.uncollected) }, [])) s)

/-- REKEY (R346). -/
def execTinRekey (viaFw : Bool) (s : State) : Res :=
  done s (tinAuth viaFw 0x13 10 [.provisioned, .metering] TinDevice.kCmd (fun d ws =>
    (kwUnwrap d.kWrap (wrapped ws)).map fun k =>
      (tlog 0x0003 [d.keyGen + 1] { d with kOp := k, keyGen := d.keyGen + 1 }, [])) s)

/-- CLOSE_FOR_REMOVAL (R353): the open bins end and are written at once. -/
def closeForRemoval (d : TinDevice) : TinDevice × List Nat :=
  let d1 := if d.mode = .metering then closeBins d.binNow true d else d
  let (d2, n) := writeAll d1.closing d1
  let d3 := tlog 0x0005 [newestSeq d2.records d2.nextSeq] d2
  ({ d3 with mode := .closed, pendingMap := none, bins := [] }, n)

def execTinCloseForRemoval (viaFw : Bool) (s : State) : Res :=
  let t := tinAuth viaFw 0x14 5 [.provisioned, .metering] TinDevice.kCmd (fun d _ => some (closeForRemoval d)) s
  done s (if (t.tin.dev.map (·.mode)) = some .closed ∧ (s.tin.dev.map (·.mode)) ≠ some .closed then writeTaps t else t)

/-! ### The bay and the case (R352-R354) -/

/-- BAY_OPENED (R352): latched, then logged with the open bins flagged while the tin is powered. -/
def execBayOpened (s : State) : Res :=
  let s1 := { s with tin := { s.tin with bayOpen := true } }
  match s.tin.dev with
  | some d =>
    let d1 : TinDevice := { d with bayLatched := true, bayTime := d.secs }
    if d.running && d.mode != .tampered then
      done s (setTin { (tlog 0x0010 [d1.bayTime] d1).mapBins (·.flag 6) with bayLatched := false } s1)
    else done s (setTin d1 s1)
  | none => done s s1

/-- BAY_CLOSED (R350). -/
def execBayClosed (s : State) : Res :=
  done s (onTin (fun d => (tlog 0x0011 [] d, [])) { s with tin := { s.tin with bayOpen := false } })

/-- TAMPERED (R352): K_OP and every derived key are zeroised, for good. -/
def execTinTampered (s : State) : Res :=
  match s.tin.dev with
  | some d =>
    done s (writeTaps (setTin { d with
      mode := .tampered, kOp := [], pendingMap := none, bins := [], closing := [], snapBins := [] } s))
  | none => done s s

/-- TIN_REMOVED (R353): TIN clears. -/
def execTinRemoved (s : State) : Res :=
  done s (tinLinkDown { s with tin := { s.tin with dev := none, out := [] } })

/-- TIN_INSERTED (R353, R354): the tin is powered, resumes under R351, and the link comes up. -/
def execTinInserted (device : TinDevice) (s : State) : Res :=
  if s.tin.dev.isNone then
    if s.pwr.supplyGood then
      let t := putTin (powerOn device) s
      done s (writeTaps { t with tin := { t.tin with link := true } })
    else done s (setTin { device with running := false } s)
  else done s s

/-- POWER_RETURN (R351): the module's supply reaches the tin again. -/
def execPowerReturn (s : State) : Res :=
  match s.tin.dev with
  | some d => if !d.running && s.pwr.supplyGood then done s (putTin (powerOn d) s) else done s s
  | none => done s s

/-- The module's supply is gone: the tin runs on its supercapacitor, the link is down (R336, R351). -/
def tinPowerLost (s : State) : State :=
  let t := tinLinkDown { s with tin := { s.tin with out := [] } }
  { t with tin := { t.tin with dev := t.tin.dev.map fun d => { d with running := false } } }

/-! ### TIN_RELAY (R439) -/

/-- TIN_RELAY (R439): the length must be that of the relayed message's word 0 (R545). -/
def cmdTinRelay : IfCmd where
  opcode := 0x0D01
  len := fun ws l => 2 ≤ l && l == 1 + fld (arg ws 1) 31 24
  ready := fun s _ => tinReady s
  check := fun s _ => if waiting s .tinRelay || (chan s 19).st == .posted then some (0x8003, none) else none
  effect := fun _ ws s =>
    let x := chan s 19
    (post 19 (setChan 19 { x with words := putWords 0 (ws.drop 1) x.words } s), .pend .tinRelay)

def execTinRelay (ch : Nat) (s : State) : Res := done s (runIf cmdTinRelay ch s)

end Sys2Proof.Machine
end

