-- ==== Sys2Proof/Machine/DomOps.lean ====
section
/-! DEFINITION. What a power domain's leaving ON, its reaching OFF and its reaching ON do to the blocks that it holds (R20,
R26, R210, R299, R454-R463), the loss of the PCI Express link (R374, R397), and a restart of firmware (R410, R470). -/

namespace Sys2Proof.Machine

/-! ### Firmware stops (R410, R414, R470) -/

/-- Nothing of the management processor runs; its PENDING commands and its outbound messages are gone (R410, R414). -/
def stopFirmware (s : State) : State :=
  { s with
    fw := { s.fw with running := false, mailbox := false, recovery := false, starter := none, opened := none, closing := false }
    mbx := { s.mbx with pend := [], out := [], overflow := [], stalled := [] } }

/-- Firmware restarts; the starter will try the area `first` ahead of the other (R327, R368, R410, R470). -/
def restartFirmware (first : Nat) (s : State) : State :=
  let s1 := stopFirmware (lockLost 0 s)
  setError 3 { s1 with fw := { s1.fw with first := first } }

/-! ### The link to the host (R374, R397) -/

/-- Every live ring enters ERROR with LINK_DOWN (R397). -/
def ringsLinkDown (s : State) : State :=
  let t := (s.dma.tx.map (·.1)).foldl (fun u n => ringFails false n 4 u) s
  (s.dma.rx.map (·.1)).foldl (fun u n => ringFails true n 4 u) t

/-- The PCI Express link goes down (R254, R327, R374, R397). Accesses of the host that a wake holds have no answer. -/
def linkDown (s : State) : State :=
  if s.pcie.linkUp then
    let s1 := ringsLinkDown { s with
      pcie := { s.pcie with linkUp := false }
      pwr := { s.pwr with held := s.pwr.held.filter fun e => e.2.req != .host } }
    markCauses isGroup (fun c => { c with lineFault := true }) (lockLost 1 s1)
  else s

/-- Configuration space, BAR assignments, the MSI-X table and its Pending Bit Array at reset; GAP lies in IRQ_ (R479). -/
def resetFunction (s : State) : State :=
  { s with pcie := { s.pcie with
    ready := false, d3hot := false, msixEnable := false, funcMask := false
    vecs := s.pcie.vecs.foldl (fun m e => mput vecReset m e.1 { vecReset with gap := e.2.gap, gapRunning := e.2.gapRunning }) [] } }

/-- Every DMA_ block at reset and every ring STOPPED (R380, R479). Frames in delivery queues stay, fetched frames go on
unreported, and reserved frames are discarded. -/
def resetRings (s : State) : State :=
  let resv := s.dma.rx.flatMap fun e => e.2.resv.map (·.packet)
  let s1 := mapPackets (fun p => { p with tx := p.tx.map fun x => { x with ring := 2048 } }) s
  let s2 := { s1 with dma := { s1.dma with
    tx := []
    rx := s1.dma.rx.foldl (fun m e => mput rxRingReset m e.1 { rxRingReset with delivery := e.2.delivery, tags := e.2.tags }) []
    sends := [] } }
  resv.foldl (fun t p => discardLine p (ev 0x0A10 t)) s2

/-! ### Frames in the buffer (R26, R210) -/

/-- The frames of the egress queues that meet `keep`, with the release order that is left (R138). -/
def keepEgress (keep : Packet → Bool) (s : State) : State :=
  let order := s.cir.relOrder.foldl (fun (x : List Nat × Map Nat) c =>
    let i := mget 0 x.2 c
    let stays := match (circ s c).egressQ[i]? with
      | some p => keep p
      | none => false
    (if stays then x.1 ++ [c] else x.1, mput 0 x.2 c (i + 1))) ([], [])
  { s with cir := { s.cir with
    relOrder := order.1
    circuits := mapTab circuitReset (fun c => { c with ingress := c.ingress.filter keep, egressQ := c.egressQ.filter keep }) s.cir.circuits } }

/-- The frames that wait in queues, delivery queues and circuit queues. -/
def waitingFrames (s : State) : List Packet :=
  (s.sch.queues.flatMap fun e => e.2.frames) ++ (s.dma.rx.flatMap fun e => e.2.delivery)
    ++ s.cir.circuits.flatMap fun e => e.2.ingress ++ e.2.egressQ

/-- The waiting frames that meet `gone` are discarded, each counted as an event, their cells leaving their queue (R26). -/
def discardWaiting (event : Nat) (gone : Packet → Bool) (s : State) : State :=
  let l := (waitingFrames s).filter gone
  let keep (p : Packet) : Bool := !gone p
  let s1 := keepEgress keep { s with
    sch := { s.sch with queues := mapTab queueReset (fun q => { q with frames := q.frames.filter keep }) s.sch.queues }
    dma := { s.dma with rx := mapTab rxRingReset (fun r => { r with delivery := r.delivery.filter keep }) s.dma.rx } }
  followTags (discardFrames l true (count event 0 l.length s1))

/-- PD41 leaves ON: the frames of every queue are discarded and counted, with those that wait for admission (R20, R210). -/
def discardQueued (s : State) : State :=
  let l := s.sch.queues.flatMap fun e => e.2.frames
  let w := s.sch.inLine ++ s.sch.inClient
  let s1 := { s with sch := { s.sch with
    queues := mapTab queueReset (fun q => { q with frames := [] }) s.sch.queues, inLine := [], inClient := [] } }
  followTags (discardFrames w false (discardFrames l true (count 0x0709 0 l.length s1)))

/-! ### Leaving ON (R460) -/

/-- A stamp queue loses its records (R299, R302). -/
def loseStamps (s : State) (q : Nat) : State :=
  let x := tsq s q
  let n := x.recs.length
  if n = 0 then s
  else setTmuEvent 5 (count 0x0C0C 0 n (setTsq q { x with
    recs := [], lostTotal := x.lostTotal + BitVec.ofNat 64 n, lostSince := x.lostSince + n } s))

/-- Module time as PD00 keeps it, the stamp queues emptied (R299). -/
def saveTime (s : State) : State :=
  let v : TimeSaved := { ns := s.tmu.ns, frac := s.tmu.frac, adj := s.tmu.adj, uncertainty := uncertainty s
                         aonNs := s.tmu.aonNs, aon := s.pwr.aon }
  let s1 := (List.range 5).foldl loseStamps s
  -- a bridge outstanding keeps what was saved first
  { s1 with tmu := { s1.tmu with saved := some (s1.tmu.saved.getD v) } }

/-- The burst on the air ends as its transmitter leaves ON; no event of R51 is its cause. -/
def loseAir (s : State) : State :=
  match s.up.onAir with
  | some b => gsErrored b.grant.frame b.grant.gs (loseBurst b (emit (.burstCut false) { s with
      up := { s.up with onAir := none }, line := { s.line with laserOn := false } }))
  | none => s

/-- The upstream framer leaves ON: the bursts built and the frames left open are lost. -/
def loseFramer (s : State) : State :=
  let s1 := loseBuilt (loseAir s)
  let l := s1.up.frags.map fun e => e.2.packet
  discardFrames l false { s1 with up := { s1.up with frags := [] } }

/-- A slice leaves ON: it is disarmed (R146), and the frames in its ingress queues and those it has not yet released are
discarded (R20). -/
def loseSlice (k : Nat) (s : State) : State :=
  let s1 := disarmSlice s k
  let mine (e : Nat × Circuit) : Bool := e.1 % 16 == k
  let l := (s1.cir.circuits.filter mine).flatMap fun e => e.2.ingress ++ e.2.done.map (·.2)
  let clear (e : Nat × Circuit) : Nat × Circuit :=
    if mine e then (e.1, { e.2 with ingress := [], done := [], taken := [], txRest := [] }) else e
  discardFrames l false { s1 with cir := { s1.cir with circuits := s1.cir.circuits.map clear } }

/-- The cipher engine leaves ON: the units in its queues are discarded and the lock is lost (R20, R315, R327). -/
def loseCipher (s : State) : State :=
  let s1 := lockLost s.cph.owner s
  let jobs := s1.cph.queue
  let l := s1.frm.toCipher.map (·.packet)
  let s2 := { s1 with cph := { s1.cph with queue := [], upWait := [] }, frm := { s1.frm with toCipher := [] } }
  discardFrames l false (jobs.foldl (fun t j => finishJob j 9 0 0 t) s2)

/-- The armed flags of cores that leave ON are cleared (R119). -/
def disarmCores (mask : BitVec 8) (s : State) : State := { s with ke := { s.ke with armed := s.ke.armed &&& ~~~mask } }

/-- Receive reservations not yet written are undone and their frames discarded, so that each ring stays as it was (R20,
R380). -/
def loseReserved (s : State) : State :=
  let one (t : State) (n : Nat) : State :=
    let r := rxRing t n
    match r.resv with
    | [] => t
    | v :: _ =>
      let t1 := setRx n { r with
        resv := [], posted := r.resv.flatMap (·.bufs) ++ r.posted, next := v.index, reserved := r.reserved - r.resv.length } t
      r.resv.foldl (fun u x => discardFrame x.packet false (ev 0x0A10 u)) t1
  let s1 := (s.dma.rx.map (·.1)).foldl one s
  { s1 with dma := { s1.dma with waits := [] } }

/-- The dump being written is not written after all (R498). -/
def loseDump (s : State) : State :=
  match s.cnt.dump with
  | some d => ev 0x0C42 { s with cnt := { s.cnt with
      dump := none, lost := s.cnt.lost + 1, dumpsLost := d.lost + 1 + s.cnt.dumpsLost } }
  | none => s

/-- What the beginning of a domain's leaving ON does (R20, R26, R146, R210, R262, R299, R327, R374). -/
def leaveEffects (d : Nat) (s : State) : State :=
  if d = 4 then linkDown s
  else if d = 5 then loseReserved s
  else if d = 7 then saveTime s
  else if d = 8 ∨ d = 10 then loseAir s
  else if d = 9 then rxLost s
  else if d = 11 then syncLost s
  else if d = 12 then loseFramer s
  else if 14 ≤ d ∧ d ≤ 17 then laneDown (d - 14) s
  else if d = 18 then
    let t := allPortsDown s
    { t with line := { t.line with eqReading := false } }
  else if 19 ≤ d ∧ d ≤ 34 then loseSlice (d - 19) s
  else if d = 39 then
    let l := s.prs.inLine ++ s.prs.inClient ++ s.prs.inRecirc
    discardFrames l false { s with prs := { s.prs with inLine := [], inClient := [], inRecirc := [] } }
  else if d = 40 then
    let l := s.flw.inLine ++ s.flw.inClient
    discardFrames l false { s with flw := { s.flw with inLine := [], inClient := [] } }
  else if d = 41 then discardQueued s
  else if 42 ≤ d ∧ d ≤ 45 then discardWaiting 0x0709 (fun p => p.quadrant == d - 42) s
  else if d = 46 then disarmCores 0x0F (loseCipher s)
  else if d = 47 then disarmCores 0xF0 s
  else if d = 48 then
    loseDump s
  else s

/-- The drain of a domain that leaves ON is complete (R26, R159, R315, R460). -/
def drained (d : Nat) (s : State) : Bool :=
  if 35 ≤ d ∧ d ≤ 38 then s.prs.engines.all fun e => e.1 / 32 != d - 35
  else if 42 ≤ d ∧ d ≤ 45 then
    (s.prt.ports.all fun e => e.2.tx.all fun p => p.quadrant != d - 42) &&
      s.dma.rx.all fun e => e.2.resv.all fun v => v.packet.quadrant != d - 42
  else if d = 46 then s.cph.cores.all (fun e => 4 ≤ e.1) && s.cph.saved.isEmpty
  else if d = 47 then s.cph.cores.all fun e => e.1 < 4
  else true

/-- A domain begins to leave ON toward RETAIN or OFF (R454, R460). -/
def beginLeave (d : Nat) (toSt : DomSt) (s : State) : State :=
  let t := leaveEffects d s
  setDom d { dom t d with st := toSt } t

/-! ### Reaching OFF (R461) -/

/-- Every event counter of the domain reads zero, its INVALID flags gone (R461, R484). -/
def zeroCounters (d : Nat) (s : State) : State :=
  let other (k : Nat) : Bool := evDom (k / 16) (k % 16) != d
  { s with cnt := { s.cnt with
    counters := s.cnt.counters.filter fun e => other e.1, invalid := s.cnt.invalid.filter fun e => other e.1 } }

/-- The receiver's own fields of the line at reset. -/
def resetReceiver (l : Line) : Line :=
  { lineReset with
    laserCal := l.laserCal, rogueCut := l.rogueCut, recalSinceCut := l.recalSinceCut, cuts := l.cuts
    hostRelease := l.hostRelease, laserOn := l.laserOn, txReleased := l.txReleased, lanes := l.lanes
    eqTries := l.eqTries, eqReading := l.eqReading, eqRaw := l.eqRaw, eqReady := l.eqReady, eqFromRom := l.eqFromRom
    carrierId := l.carrierId, eqEntries := l.eqEntries
    prbs := { l.prbs with chk := 0, chkPre := false, checker := checkerReset } }

/-- The fields that a domain's block loses at OFF take their reset values (R461). What firmware holds, and what the text
gives no domain, stays. -/
def offReset (d : Nat) (s : State) : State :=
  if d = 2 then stopFirmware (lockLost 0 s)
  else if d = 3 then clearBins { s with mbx := { s.mbx with evSeq := 0, maskedEv := [] } }
  else if d = 4 then resetFunction s
  else if d = 5 then
    let t := resetRings s
    { t with dma := { dmaReset with rx := t.dma.rx } }
  else if d = 6 then
    { s with
      glb := glbReset
      pcie := { s.pcie with testVector := 0, vecs := s.pcie.vecs.foldl (fun m e =>
        mput vecReset m e.1 { e.2 with gap := 0, gapRunning := false }) [] }
      mbx := { s.mbx with chans := [], events := 0, crossed := 0, discards := [] } }
  else if d = 7 then
    { s with tmu := { tmuReset with
      e := s.tmu.e, aonNs := s.tmu.aonNs, released := s.tmu.released, saved := s.tmu.saved, touts := s.tmu.touts
      disc := { discReset with
        mode := s.tmu.disc.mode, threshold := s.tmu.disc.threshold, asym := s.tmu.disc.asym, params := s.tmu.disc.params }
      ppsDelay := s.tmu.ppsDelay, ppsTol := s.tmu.ppsTol } }
  else if d = 8 then { s with line := { s.line with laserCal := false } }
  else if d = 9 then { s with line := resetReceiver s.line }
  else if d = 10 then
    { s with line := { s.line with loop := none, prbs := { prbsReset with
      chk := s.line.prbs.chk, chkPre := s.line.prbs.chkPre, checker := s.line.prbs.checker } } }
  else if d = 11 then { s with frm := { frmReset with toCipher := s.frm.toCipher } }
  else if d = 12 then { s with up := { s.up with prevEnd := none } }
  else if 14 ≤ d ∧ d ≤ 17 then setLane (d - 14) laneReset s
  else if d = 18 then
    { s with
      prt := { prtReset with mode := s.prt.mode }
      line := { s.line with eqTries := 0, eqReading := false, eqRaw := none, eqReady := false, eqFromRom := false
                            carrierId := 0, eqEntries := lineReset.eqEntries } }
  else if 19 ≤ d ∧ d ≤ 34 then
    let k := d - 19
    let clear (e : Nat × Circuit) : Nat × Circuit :=
      if e.1 % 16 = k then (e.1, { e.2 with gfp := .hunt, rxStream := [], rxScr := 0, txScr := 0 }) else e
    setSlice k sliceReset { s with cir := { s.cir with
      inited := s.cir.inited &&& ~~~(BitVec.ofNat 16 (2 ^ k)), circuits := s.cir.circuits.map clear } }
  else if d = 39 then
    { mapPackets (fun p => { p with version := none }) s with prs := prsReset }
  else if d = 40 then
    let t := s.cph.pairs.foldl (fun u e => eraseKey (e.2 + 1) (eraseKey e.2 u)) s
    { t with flw := { flowReset with seed := s.flw.seed, seeded := s.flw.seeded }, cph := { t.cph with pairs := [] } }
  else if d = 41 then { s with sch := { schReset with quads := s.sch.quads }, adm := admReset }
  else if 42 ≤ d ∧ d ≤ 45 then
    { s with sch := { s.sch with quads := s.sch.quads &&& ~~~(BitVec.ofNat 4 (2 ^ (d - 42))) } }
  else if d = 46 then
    { s with cph := { cphReset with
      pairs := s.cph.pairs, lineSlots := s.cph.lineSlots, cores := s.cph.cores, order := s.cph.order, nextId := s.cph.nextId } }
  else if d = 48 then { s with cnt := { cntReset with counters := s.cnt.counters, invalid := s.cnt.invalid } }
  else if d = 49 then { s with tmu := { s.tmu with touts := [] } }
  else s

/-- A domain is OFF: its content is lost (R454, R461). -/
def enterOff (d : Nat) (s : State) : State :=
  let t := zeroCounters d (offReset d s)
  setDom d { dom t d with st := .off, fromOff := true } t

/-! ### Reaching ON (R458, R461) -/

/-- Channels whose doorbell woke PD02 wait no longer (R403, R408). -/
def wakingEnds (s : State) : State :=
  (List.range 21).foldl (fun t c => if (chan t c).waking then setChan c { chan t c with waking := false } t else t) s

/-- Firmware sends what it held while PD02 was in RETAIN (R414). -/
def sendAll (s : State) : State := (List.range 8).foldl (fun t n => trySend n t) s

/-- The stored port mode is applied, once firmware has taken its start steps (R260, R475). -/
def applyPortMode (s : State) : State :=
  if s.prt.mode = s.fw.want.portMode then s
  else
    let t := allPortsDown s
    keepCurves t { t with prt := { t.prt with mode := s.fw.want.portMode } }

/-- What a domain's reaching ON does; `fromOff` where its content was lost (R44, R47, R60, R260, R414, R461, R470). -/
def onEffects (d : Nat) (fromOff : Bool) (s : State) : State :=
  if d = 2 then
    let t := wakingEnds s
    if fromOff then
      (if s.fw.started then restartFirmware s.fw.image t else { t with fw := { t.fw with first := s.fw.want.image } })
    else sendAll t
  else if d = 8 then { s with line := { s.line with laserCal := false } }
  else if d = 9 then { s with line := { s.line with calibrated := false, tracking := false, stepExp := 10 } }
  else if d = 18 then
    let t := if s.fw.mailbox && s.fw.running && on s 2 then applyPortMode s else s
    if s.pwr.vio then startEqRead t else t
  else s

/-- A domain reaches ON: the credits toward it are restored (R20), and its blocks take up their work. -/
def enterOn (d : Nat) (s : State) : State :=
  let f := (dom s d).fromOff
  onEffects d f (restoreCredits d (setDom d { st := .on, fromOff := false, everOn := true } s))

/-! ### DOMAIN_SET in progress (R428, R456, R459) -/

/-- The domains of a set that firmware itself stands on: PD02 leaves ON after the result is posted, and PD03 and PD06 with
it or after it (R414, R428). -/
def lastOut (x : DomainSet) (d : Nat) : Bool := bit x.domains 2 && x.target != 0 && (d == 2 || d == 3 || d == 6)

/-- A state code of R428. -/
def targetSt (t : Nat) : DomSt := if t = 0 then .on else if t = 1 then .retain else .off

/-- The domains that require a domain. -/
def dependents (d : Nat) : List Nat := (List.range 50).filter fun n => (requires n).contains d

/-- The result of a set has left for the host. -/
def resultPosted (x : DomainSet) (s : State) : Bool :=
  x.sent && (outQ s x.ch).all fun m => !(m.isResult && fld (nth m.words 0 0) 47 32 == x.seq)

/-- One domain of a set begins its move, when R455 lets it: required domains first on the way up, dependents first on the
way down (R456). -/
def startMove (x : DomainSet) (s : State) (d : Nat) : State :=
  let st := (dom s d).st
  let rest (n : Nat) : DomSt := (dom s n).st
  if bit x.failed d || (lastOut x d && !resultPosted x s) then s
  else if x.target = 0 then startOn s d
  else if x.target = 1 then
    if st = .on ∧ (dependents d).all (fun n => rest n == .retain || rest n == .off) then beginLeave d .toRetain s
    else if st = .off ∧ (requires d).all (fun n => rest n == .on || rest n == .retain) then
      setDom d { dom s d with st := .toRetain } s
    else s
  else if (dependents d).all (fun n => rest n == .off) then
    (if st = .on then beginLeave d .toOff s
     else if st = .retain then setDom d { dom s d with st := .toOff } s
     else s)
  else s

/-- The domains that a set names. -/
def DomainSet.named (x : DomainSet) : List Nat := (List.range 50).filter (bit x.domains)

def startMoves (s : State) : State := s.pwr.sets.foldl (fun t x => x.named.foldl (startMove x) t) s

/-- A domain is on its way. -/
def moving (s : State) (d : Nat) : Bool :=
  match (dom s d).st with
  | .toOn | .toRetain | .toOff => true
  | _ => false

/-- A domain that a set still moves: it is moving, or one that it waits for is. -/
def unsettled (x : DomainSet) (s : State) (d : Nat) : Bool :=
  !bit x.failed d && (dom s d).st != targetSt x.target &&
    (moving s d || (if x.target = 0 then closure 5 d else dependents d).any (moving s))

/-- The result of a set is sent (R428, R459). -/
def setResult (x : DomainSet) (s : State) : State :=
  let p : Pend := { ch := x.ch, seq := x.seq, opcode := 0x0201, wait := .domainSet }
  -- a restart or a host reset has ended the command without a result (R410, R480)
  if s.mbx.pend.contains p then
    finishPend p (if x.failed = 0 then 0 else 0x8201) (if x.failed = 0 then [] else [x.failed]) s
  else s

/-- A set that is complete ends; one that takes PD02 down ends with PD02. -/
def finishSet (s : State) (x : DomainSet) : State :=
  let put (l : List DomainSet) (t : State) : State := { t with pwr := { t.pwr with sets := l } }
  let others := s.pwr.sets.filter fun y => !(y.ch == x.ch && y.seq == x.seq)
  let early := x.named.filter fun d => !lastOut x d
  let late := x.named.filter (lastOut x)
  if early.any (unsettled x s) then s
  else if late.isEmpty then setResult x (put others s)
  else if !x.sent then
    setResult x (put (s.pwr.sets.map fun y => if y.ch = x.ch ∧ y.seq = x.seq then { y with sent := true } else y) s)
  else if late.all (fun d => (dom s d).st == targetSt x.target || bit x.failed d) then put others s
  else s

/-- The power controller goes on with every set. -/
def advanceSets (s : State) : State :=
  let t := startMoves s
  startMoves (t.pwr.sets.foldl finishSet t)

end Sys2Proof.Machine
end

