-- ==== Sys2Proof/Machine/Mail.lean ====
section
/-! DEFINITION. The mailbox channels as their parties and the detectors act on them (R400-R415), and the Ifeif commands of
group 0x01. -/

namespace Sys2Proof.Machine

/-! ### Parties (R400, R401) -/

/-- The requester that sends on a channel; the tin is none. -/
def senderOf (c : Nat) : Option Req :=
  if c < 8 ∨ c = 18 then some .host else if c < 16 ∨ c = 19 then some .mgmt else none

/-- The requester that receives on a channel. -/
def receiverOf (c : Nat) : Option Req :=
  if c < 8 ∨ c = 20 then some .mgmt else if c < 18 then some .host else none

def isSender (r : Req) (c : Nat) : Bool := senderOf c == some r

def isReceiver (r : Req) (c : Nat) : Bool := receiverOf c == some r

/-- A write that R401 drops. -/
def nonParty (s : State) : State := setMbxEvent 10 (ev 0x0E06 s)

/-- A write of the payload or of CTRL by the sender of a POSTED message is dropped (R402). -/
def whilePosted (s : State) : State := ev 0x0E05 s

/-- The offset of a register of a channel (R402). -/
def mbxOffset (c reg : Nat) : Nat := 0x20000 + 0x400 * c + reg

/-! ### Opcodes that no row lists (R418 check 1) -/

/-- The opcodes of the catalogue (R427-R440). -/
def knownOpcode (o : Nat) : Bool :=
  let n := nth [0, 4, 3, 10, 9, 10, 9, 8, 8, 9, 12, 4, 6, 1, 5] (o / 256) 0
  1 ≤ o % 256 && o % 256 ≤ n

/-- Firmware answers a message whose opcode no row lists (R418, R471). -/
def answerUnknown (s : State) (c : Nat) : State :=
  let x := chan s c
  if c < 8 && fwTalks s && x.st == .posted && !knownOpcode (fld (chanWord x 0) 63 48) then
    acknowledge c (fld (chanWord x 0) 47 32) 0 (if s.fw.recovery then 0x8004 else 0x8001) s
  else s

/-- Firmware takes up its channels: the messages of unknown opcode are answered, and what waits is sent (R409, R412). A
reply of the tin that waits on T2F0 is taken (R439). -/
def takeUpMail (s : State) : State :=
  let t := sendAll ((List.range 8).foldl answerUnknown s)
  let x := chan t 20
  if fwTalks t && x.st == .posted then
    tinTrySend 20 (finishWait .tinRelay 0 ((msgWords x).drop 1) (acknowledge 20 x.postedSeq 0 0 t))
  else t

/-! ### Doorbell (R406, R408) -/

/-- The hardware acknowledges with NOT_READY (R408). -/
def notReadyAck (c : Nat) (s : State) : State :=
  let x := posted s (chan s c)
  ev 0x0E08 (setChan c { x with st := .acked, ackValid := true, ackSeq := x.postedSeq, ackNote := 0, ackCode := 0x8004 } s)

/-- The tin answers a message of a TYPE it does not list (R348). -/
def tinUnknown (c : Nat) (s : State) : State :=
  let x := chan s c
  if tinTypes.contains (fld (chanWord x 0) 63 48) then s else tinAnswer (c == 19) (msgWords x) (0x8001, none) s

/-- An accepted doorbell. -/
def ring (c : Nat) (s : State) : State :=
  if c < 8 then
    match (dom s 2).st with
    | .off | .toOff => wakeUp 2 (notReadyAck c s)
    | .toOn => if (dom s 2).fromOff then notReadyAck c s
               else let t := post c s; setChan c { chan t c with waking := true } t
    | _ => answerUnknown (wakeMgmt c (post c s)) c
  else if c = 18 ∨ c = 19 then
    (if tinReady s then tinUnknown c (post c s) else notReadyAck c s)
  else post c s

/-- A write of MBX_c_DOORBELL with RING. -/
def writeDoorbell (req : Req) (c : Nat) (s : State) : State :=
  if !isSender req c then nonParty s
  else if (chan s c).st == .posted then setMbxEvent 12 (ev 0x0E03 s)
  else ring c s

/-- MBX_DOORBELL (R406). -/
def execMbxDoorbell (req : Req) (ch : Nat) (s : State) : Res :=
  if ch < 21 then done s (writeSide req (mbxOffset ch 0x200) 6 1 (writeDoorbell req ch) s) else done s s

/-! ### Acknowledgement (R404, R409, R413) -/

/-- The host has acknowledged on F2Hn: the PENDING command of an acknowledged result ends, an overflow ends, and firmware
sends on, after an overflow the essential messages first. -/
def hostAcked (n : Nat) (s : State) : State :=
  let w0 := chanWord (chan s (8 + n)) 0
  let isResult (p : Pend) : Bool := p.ch == n && p.seq == fld w0 47 32 && p.wait == .result && fld w0 63 48 != 0
  let q := outQ s n
  let s1 := if s.mbx.overflow.contains n then
      setOutQ n (q.filter (·.essential) ++ q.filter fun m => !m.essential) s
    else s
  advanceSets (trySend n { s1 with mbx := { s1.mbx with
    pend := s1.mbx.pend.filter fun p => !isResult p
    overflow := s1.mbx.overflow.filter (· != n), stalled := s1.mbx.stalled.filter (· != n) } })

/-- A write of MBX_c_ACK. -/
def writeAck (req : Req) (c : Nat) (v : Word) (s : State) : State :=
  if !isReceiver req c then nonParty s
  else if (chan s c).st == .posted && fld v 47 32 == (chan s c).postedSeq then
    let t := acknowledge c (fld v 47 32) (fld v 31 16) (fld v 15 0) s
    if 8 ≤ c ∧ c ≤ 15 then hostAcked (c - 8) t
    else if c = 16 ∨ c = 17 ∨ c = 20 then tinTrySend c t
    else t
  else setMbxEvent 11 (ev 0x0E04 s)

/-- MBX_ACK (R404). -/
def execMbxAck (req : Req) (ch : Nat) (value : Word) (s : State) : Res :=
  if ch < 21 then done s (writeSide req (mbxOffset ch 0x208) 6 value (writeAck req ch value) s) else done s s

/-! ### Payload (R402) -/

/-- A write of MBX_c_CTRL with ZERO. -/
def writeZero (req : Req) (c : Nat) (s : State) : State :=
  if !(isSender req c || isReceiver req c) then nonParty s
  else if isSender req c && (chan s c).st == .posted then whilePosted s
  else setChan c { chan s c with words := [] } s

/-- MBX_ZERO (R402). -/
def execMbxZero (req : Req) (ch : Nat) (s : State) : Res :=
  if ch < 21 then done s (writeSide req (mbxOffset ch 0x218) 6 1 (writeZero req ch) s) else done s s

/-- A write of a payload word. -/
def writePayload (req : Req) (c w : Nat) (v : Word) (s : State) : State :=
  if !isSender req c then nonParty s
  else if (chan s c).st == .posted then whilePosted s
  else setChan c { chan s c with words := mput 0 (chan s c).words w v } s

/-! ### Detectors (R411, R413) -/

def isPosted (s : State) (c : Nat) : Bool := (chan s c).st == .posted

/-- Always-on periods since the doorbell. -/
def ageTicks (s : State) (c : Nat) : Nat := (s.pwr.aon - (chan s c).postedAt).toNat

/-- AGE in us (R403), a period being 409.6 ns. -/
def age (s : State) (c : Nat) : Nat := if isPosted s c then min 0xFFFFFFFF (ageTicks s c * 4096 / 10000) else 0

/-- The POSTED channel of a list with the largest AGE, the lowest number on a tie. -/
def oldest (s : State) (l : List Nat) : Nat :=
  ((l.filter (isPosted s)).foldl (fun (b : Option Nat) c =>
    match b with
    | some x => if ageTicks s x < ageTicks s c then some c else b
    | none => some c) none).getD 0

/-- One detection: the record of the first, FURTHER of the later ones (R411). -/
def crossedOnce (n : Nat) (s : State) : State :=
  let r := s.mbx.crossed
  let r' := if bit r 63 then
      (if fld r 62 48 < 0x7FFF then r + BitVec.ofNat 64 (2 ^ 48) else r)
    else word (2 ^ 63 + at' (oldest s ((List.range 16).drop 8 ++ [16, 17])) 8 + oldest s (List.range 8 ++ [18]))
  setMbxEvent n (ev 0x0E09 { s with mbx := { s.mbx with crossed := r' } })

/-- MBX_CROSSED_WAIT (R411). -/
def execMbxCrossedWait (s : State) : Res :=
  if on s 6 then
    let host := (List.range 8).any (isPosted s) && (List.range 8).any fun n => isPosted s (8 + n)
    let tin := isPosted s 18 && (isPosted s 16 || isPosted s 17)
    let s1 := if host then crossedOnce 0 s else s
    done s (if tin then crossedOnce 1 s1 else s1)
  else done s s

/-- MBX_OVERFLOW (R413): F2Hn has been POSTED for more than 100 ms. -/
def execMbxOverflow (n : Nat) (s : State) : Res :=
  if n < 8 && fwTalks s && isPosted s (8 + n) && !s.mbx.stalled.contains n then
    let q := outQ s n
    let gone := (q.filter fun m => !m.essential).length
    let s1 := beginOverflow n (setOutQ n (q.filter (·.essential)) { s with mbx := { s.mbx with stalled := n :: s.mbx.stalled } })
    done s (if gone = 0 then s1 else discardOut n gone s1)
  else done s s

/-! ### Group 0x01 (R427) -/

/-- GLB_FW (R365). -/
def glbFw (s : State) : Word := word (s.fw.version.toNat + at' s.fw.image 32 + at' (b2n s.fw.fallback) 33)

/-- IDENTITY (R427). -/
def cmdIdentity : IfCmd where
  opcode := 0x0101
  len := lenIs 1
  effect := fun _ _ s => (s, .data [s.fw.serial, glbFw s, word s.fw.starterVersion.toNat])

def execIdentity (ch : Nat) (s : State) : Res := done s (runIf cmdIdentity ch s)

/-- ECHO (R427). -/
def cmdEcho : IfCmd where
  opcode := 0x0102
  len := fun _ _ => true
  effect := fun _ ws s => (s, .data (ws.drop 1))

def execEcho (ch : Nat) (s : State) : Res := done s (runIf cmdEcho ch s)

/-- EVENT_MASK (R425): an event that R424 lists, and not an essential one. -/
def cmdEventMask : IfCmd where
  opcode := 0x0103
  len := lenIs 2
  range := fun _ ws =>
    onlyBits (arg ws 1) 0x1FFFF && (maskableEvents ++ essentialEvents).contains (fld (arg ws 1) 15 0)
  check := fun _ ws => if essentialEvents.contains (fld (arg ws 1) 15 0) then some (0x8005, none) else none
  effect := fun _ ws s =>
    let e := fld (arg ws 1) 15 0
    let l := s.mbx.maskedEv.filter (· != e)
    ({ s with mbx := { s.mbx with maskedEv := if bit (arg ws 1) 16 then l else e :: l } }, .done)

def execEventMask (ch : Nat) (s : State) : Res := done s (runIf cmdEventMask ch s)

/-- STORE_READ (R427). -/
def cmdStoreRead : IfCmd where
  opcode := 0x0104
  len := lenIs 1
  effect := fun _ _ s =>
    let x := s.fw.store
    (s, .data [word (x.portMode + at' (b2n x.emergency) 2 + at' (b2n x.lineStop) 3 + at' x.image 4)])

def execStoreRead (ch : Nat) (s : State) : Res := done s (runIf cmdStoreRead ch s)

end Sys2Proof.Machine
end

