-- ==== Sys2Proof/Machine/Boot.lean ====
section
/-! DEFINITION. From supply good to service: hardware initialisation, the starter, the start of firmware, the image areas
(R468-R475), and the Ifeif commands of group 0x0E (R440). -/

namespace Sys2Proof.Machine

/-! ### Hardware initialisation (R474) -/

/-- The domain of a block is ON and its initialisation still runs. -/
def initDue (b : InitBlock) (s : State) : Bool :=
  match b with
  | .buffer q => q < 4 && on s (42 + q) && !s.sch.quads.getLsbD q
  | .scheduler => on s 41 && !s.sch.inited
  | .ringState => on s 5 && !s.dma.inited
  | .counters => on s 48 && !s.cnt.inited
  | .slice k => k < 16 && on s (19 + k) && !s.cir.inited.getLsbD k

/-- A block's initialisation is complete: its memory holds what OFF left, its reset content. -/
def initDone (b : InitBlock) (s : State) : State :=
  match b with
  | .buffer q => { s with sch := { s.sch with quads := s.sch.quads ||| BitVec.ofNat 4 (2 ^ q) } }
  | .scheduler => { s with sch := { s.sch with inited := true } }
  | .ringState => { s with dma := { s.dma with inited := true } }
  | .counters => { s with cnt := { s.cnt with inited := true } }
  | .slice k => { s with cir := { s.cir with inited := s.cir.inited ||| BitVec.ofNat 16 (2 ^ k) } }

/-- HARDWARE_INITIALISATION_DONE (R474). -/
def execHardwareInitialisationDone (block : InitBlock) (s : State) : Res :=
  if initDue block s then done s (initDone block s) else done s s

/-! ### Image areas (R468, R469) -/

/-- Bytes of an image area (R468). -/
def areaSize : Nat := 28 * 2 ^ 20

def area (s : State) (a : Nat) : Area := if a = 0 then s.fw.area0 else s.fw.area1

def setArea (a : Nat) (x : Area) (s : State) : State :=
  { s with fw := if a = 0 then { s.fw with area0 := x } else { s.fw with area1 := x } }

/-- Byte n of an area: 0xFF where nothing is written. -/
def Area.byte (x : Area) (n : Nat) : Byte := mget 0xFF x.bytes n

/-- `len` bytes from `off`, little-endian, as a number. -/
def Area.le (x : Area) (off len : Nat) : Nat := leNat ((List.range len).map fun k => x.byte (off + k))

/-- Bytes [a, b) read zero. -/
def Area.zero (x : Area) (a b : Nat) : Bool := (List.range (b - a)).all fun k => x.byte (a + k) == 0

/-- The starter's checks of the header (R469, R470 step 1). -/
def Area.headerOk (x : Area) : Bool :=
  let len := x.le 0x0C 4
  x.le 0x00 4 == 0x49574643 && x.le 0x04 1 == 0x01 && x.zero 0x05 0x08 && 1 ≤ len && len ≤ 6291456 && x.le 0x10 4 < len
    && x.zero 0x14 0x20 && x.zero 0xB0 0x100

/-- The area passes every check of R470: those of its header, and those of its signature and hash, whose outcome the
command brings. -/
def areaPasses (x : Area) (signatureOk : Bool) : Bool := signatureOk && !x.invalid && (!x.known || x.headerOk)

/-- VERSION of the image in an area. -/
def areaVersion (s : State) (a : Nat) : BitVec 32 :=
  if (area s a).known then BitVec.ofNat 32 ((area s a).le 0x08 4) else Config.imageVersion a

/-! ### The starter (R470, R471) -/

/-- STARTER_RUN (R470): PD02 is ON and nothing runs on the management processor. -/
def execStarterRun (s : State) : Res :=
  if on s 2 && s.pwr.supplyGood && !s.fw.running && !s.fw.recovery && s.fw.starter.isNone then
    let clear (x : Area) : Area := { x with passed := false }
    done s { s with fw := { s.fw with
      starter := some [s.fw.first, 1 - s.fw.first], area0 := clear s.fw.area0, area1 := clear s.fw.area1 } }
  else done s s

/-- The image of an area starts: FIRMWARE is set, and GLB_FW written (R365, R470). FALLBACK compares with the area that is
selected: after supply good, the stored choice. -/
def startImage (a : Nat) (s : State) : State :=
  let selected := if s.fw.started then s.fw.want.image else s.fw.store.image
  let t := setArea a { area s a with passed := true } s
  { t with fw := { t.fw with
    running := true, starter := none, version := areaVersion s a, image := a, fallback := a != selected } }

/-- Both areas have failed (R471). -/
def enterRecovery (s : State) : State :=
  takeUpMail { s with fw := { s.fw with
    starter := none, recovery := true, mailbox := true, version := 0, image := 0, fallback := false } }

/-- IMAGE_AREA_CHECKED (R470, R471). -/
def execImageAreaChecked (area : Nat) (signatureOk : Bool) (s : State) : Res :=
  match s.fw.starter with
  | some (a :: rest) =>
    if on s 2 && a == area then
      (if areaPasses (Machine.area s a) signatureOk then done s (startImage a s)
       else if rest.isEmpty then done s (enterRecovery s)
       else done s { s with fw := { s.fw with starter := some rest } })
    else done s s
  | _ => done s s

/-! ### The start of firmware (R472, R475) -/

/-- Batch 1 is committed, with no entry address (R475 step 2). -/
def commitFirst (s : State) : State :=
  if on s 39 && !s.prs.committed then let (t, slot, _) := openBatch s; commitSlot slot t else s

/-- The four steps after supply good (R475). -/
def firstStart (s : State) : State :=
  let s1 := commitFirst { s with fw := { s.fw with want := s.fw.store } }
  let s2 := if on s 18 then applyPortMode s1 else s1
  let s3 := { s2 with fw := { s2.fw with started := true } }
  if s3.fw.store.emergency then pfGo .pf7 false { s3 with pf := { s3.pf with started := true } }
  else { s3 with pf := { s3.pf with held := s3.fw.store.lineStop, started := true } }

/-- The start after a restart (R152, R423, R472): the current bins are SUSPECT; a two-bit error in their region has cost
the bins, the event sequence and the masks. -/
def laterStart (s : State) : State :=
  if s.fw.binsLost then
    let t := clearBins s
    { t with fw := { t.fw with binsLost := false }, mbx := { t.mbx with evSeq := 0, maskedEv := [] } }
  else mapBins (fun b => { b with suspect := true }) s

/-- FIRMWARE_START (R475). -/
def execFirmwareStart (s : State) : Res :=
  if on s 2 && s.fw.running && !s.fw.mailbox then
    let t := if s.fw.started then laterStart s else firstStart s
    done s (pfFollow (takeUpMail { t with fw := { t.fw with mailbox := true } }))
  else done s s

/-! ### Group 0x0E (R440) -/

/-- The area that IMAGE_OPEN, IMAGE_WRITE and IMAGE_CLOSE act on. -/
def updateArea (s : State) : Nat := if s.fw.recovery then s.fw.want.image else 1 - s.fw.image

/-- A PENDING command still changes the area that is not running (R421). -/
def imageBusy (s : State) : Bool :=
  s.mbx.pend.any fun p => (p.opcode == 0x0E01 || p.opcode == 0x0E02 || p.opcode == 0x0E03) && p.wait != .result

/-- IMAGE_OPEN: the area is erased. -/
def cmdImageOpen : IfCmd where
  opcode := 0x0E01
  len := lenIs 2
  flash := true
  range := fun _ ws => onlyBits (arg ws 1) 0xFFFFFFFF && fld (arg ws 1) 31 0 ≤ areaSize
  check := fun s _ => if imageBusy s then some (0x8003, none) else none
  effect := fun _ ws s =>
    let len := fld (arg ws 1) 31 0
    let a := updateArea s
    let t := setArea a { area s a with known := false, verified := false, passed := false, invalid := false } s
    ({ t with fw := { t.fw with opened := some (len, a, false) } }, .pend (.imageOpen len))

def execImageOpen (ch : Nat) (s : State) : Res := done s (runIf cmdImageOpen ch s)

/-- IMAGE_AREA_ERASED (R440, R449): an erase already running completes whatever the supply does. -/
def execImageAreaErased (s : State) : Res :=
  match s.fw.opened with
  | some (len, a, false) =>
    let t := setArea a { area s a with bytes := [], known := true } s
    done s (finishWait (.imageOpen len) 0 [] { t with fw := { t.fw with opened := some (len, a, true) } })
  | _ => done s s

/-- Bytes programmed into an area from `off` on. -/
def programBytes : Nat → List Byte → Map Byte → Map Byte
  | _, [], m => m
  | off, b :: r, m => programBytes (off + 1) r (mput 0xFF m off b)

/-- IMAGE_WRITE: whole words up to the one that holds the last byte of the opened length. -/
def cmdImageWrite : IfCmd where
  opcode := 0x0E02
  len := fun _ l => 3 ≤ l && l ≤ 64
  flash := true
  range := fun s ws =>
    let off := fld (arg ws 1) 31 0
    onlyBits (arg ws 1) 0xFFFFFFFF && off % 8 == 0 &&
      match s.fw.opened with
      | some (len, _, _) => off + 8 * (ws.length - 2) ≤ (len + 7) / 8 * 8
      | none => true
  check := fun s _ => if imageBusy s then some (0x8003, none) else if s.fw.opened.isNone then some (0x8005, none) else none
  effect := fun _ ws s =>
    match s.fw.opened with
    | some (len, a, _) =>
      let off := fld (arg ws 1) 31 0
      let data := (wordsBytes (ws.drop 2)).take (len - off)
      (setArea a { area s a with bytes := programBytes off data (area s a).bytes } s, .done)
    | none => (s, .done)

def execImageWrite (ch : Nat) (s : State) : Res := done s (runIf cmdImageWrite ch s)

/-- IMAGE_CLOSE: the area is verified. -/
def cmdImageClose : IfCmd where
  opcode := 0x0E03
  len := lenIs 1
  check := fun s _ => if imageBusy s then some (0x8003, none) else if s.fw.opened.isNone then some (0x8005, none) else none
  effect := fun _ _ s => ({ s with fw := { s.fw with closing := true } }, .pend .imageClose)

def execImageClose (ch : Nat) (s : State) : Res := done s (runIf cmdImageClose ch s)

/-- IMAGE_VERIFICATION_DONE (R440). -/
def execImageVerificationDone (signatureOk : Bool) (s : State) : Res :=
  match s.fw.opened with
  | some (_, a, _) =>
    if s.fw.closing then
      let ok := areaPasses (area s a) signatureOk
      let t := setArea a { area s a with verified := ok, invalid := !ok } s
      done s (finishWait .imageClose (if ok then 0 else 0x8E01) [] { t with fw := { t.fw with opened := none, closing := false } })
    else done s s
  | none => done s s

/-- The area is verified (R440). -/
def areaVerified (s : State) (a : Nat) : Bool :=
  (s.fw.running && s.fw.image == a) || (area s a).passed || (area s a).verified

/-- IMAGE_SELECT; the recovery service never writes the store (R471). -/
def cmdImageSelect : IfCmd where
  opcode := 0x0E04
  len := lenIs 2
  flash := true
  range := fun _ ws => onlyBits (arg ws 1) 1
  check := fun s ws => if areaVerified s (fld (arg ws 1) 0 0) then none else some (0x8005, none)
  effect := fun _ ws s =>
    let a := fld (arg ws 1) 0 0
    (if s.fw.recovery then { s with fw := { s.fw with want := { s.fw.want with image := a } } }
     else saveStore (fun x => { x with image := a }) s, .done)

def execImageSelect (ch : Nat) (s : State) : Res :=
  done s (runIf (if s.fw.recovery then { cmdImageSelect with flash := false } else cmdImageSelect) ch s)

/-- FIRMWARE_RESTART (R440, R470). -/
def cmdFirmwareRestart : IfCmd where
  opcode := 0x0E05
  len := lenIs 1
  check := fun s _ => if s.fw.opened.isSome || imageBusy s then some (0x8003, none) else none
  effect := fun _ _ s => (restartFirmware s.fw.want.image s, .done)

def execFirmwareRestart (ch : Nat) (s : State) : Res := done s (runIf cmdFirmwareRestart ch s)

end Sys2Proof.Machine
end

