-- ==== Sys2Proof/Machine/Peel.lean ====
section
/-! DEFINITION. The peel, the probes and the histogram engines (R483-R505), and the Ifeif commands of group 0x0C. -/

namespace Sys2Proof.Machine

/-! ### A strobe (R494-R497) -/

/-- Every event counter, as event and instance, in ascending order (R483-R489, R496). -/
def allCounters : List (Nat × Nat) :=
  (List.range 14).flatMap fun b => (List.range 256).flatMap fun e =>
    let n := (b + 1) * 256 + e
    (List.range (evInsts n)).map fun i => (n, i)

/-- The value of a counter at the last strobe that found its domain ON (R495). -/
def latchedAt (s : State) (n i : Nat) : BitVec 64 := mget 0 s.cnt.latched (evKey n i)

/-- Every counter of an ON domain is latched (R495). -/
def latchCounters (s : State) : State :=
  { s with cnt := { s.cnt with latched := allCounters.foldl (fun m x =>
    if on s (evDom x.1 x.2) then mput 0 m (evKey x.1 x.2) (counter s x.1 x.2) else m) s.cnt.latched } }

def probe (s : State) (p : Nat) : Probe := mget probeOff s.cnt.probes p

/-- The entry of an event counter, after the latch (R495, R497). -/
def counterEntry (s : State) (x : Nat × Nat) : DumpEntry :=
  let d := dom s (evDom x.1 x.2)
  let inv := mget false s.cnt.invalid (evKey x.1 x.2)
  let live := d.st == .on
  { value := if d.everOn then latchedAt s x.1 x.2 else 0, event := x.1, inst := x.2
    flags := BitVec.ofNat 8 (b2n (d.everOn && !live) + at' (b2n (d.everOn && inv)) 1 + at' (b2n (!d.everOn)) 2)
    index := 0, bin := 0 }

/-- The entry of a probe. -/
def probeEntry (s : State) (p : Nat) : DumpEntry :=
  let x := probe s p
  { value := x.value, event := x.event, inst := 0, flags := BitVec.ofNat 8 (at' 1 6 + at' (b2n x.invalid) 1), index := p, bin := 0 }

/-- The 32 bins and the maximum of a histogram engine. -/
def histEntries (s : State) (e : Nat) : List DumpEntry :=
  let h := histEng s e
  let flags (kind k : Nat) : BitVec 8 := BitVec.ofNat 8 (at' kind 6 + at' (b2n (mget false h.invalid k)) 1)
  let bin (k : Nat) : DumpEntry :=
    { value := mget 0 h.bins k, event := 0, inst := 0, flags := flags 2 k, index := e, bin := k }
  (List.range 32).map bin ++ [{ value := word h.max, event := 0, inst := 0, flags := flags 3 32, index := e, bin := 0 }]

/-- Every entry of a dump in its order (R496). -/
def dumpEntries (s : State) : List DumpEntry :=
  allCounters.map (counterEntry s) ++ (List.range 64).map (probeEntry s) ++ (List.range 64).flatMap (histEntries s)

/-- The domains that meet `f`, a bit each. -/
def domainBits (s : State) (f : DomSt → Bool) : BitVec 64 :=
  BitVec.ofNat 64 (((List.range 50).map fun n => at' (b2n (f (dom s n).st)) n).sum)

/-- The strobe multiple at or before now (R494). -/
def strobeTime (s : State) : Nat := s.tmu.ns / (s.cnt.period * 1000000) * (s.cnt.period * 1000000)

/-- The dump of a strobe at `t`. -/
def latchDump (t : Nat) (s : State) : Dump :=
  { seq := s.cnt.seq
    flags := BitVec.ofNat 8 (b2n s.cnt.stepped + at' (b2n s.cnt.bridged) 1 + at' (b2n s.cnt.first) 2)
    timeState := timeStCode s.tmu.st, strobeNs := t, aon := s.pwr.aon, period := s.cnt.period
    domainsOn := domainBits s (· == .on), domainsRetain := domainBits s (· == .retain)
    lost := s.cnt.dumpsLost, entries := dumpEntries s }

/-- A dump that is due is not written (R498). -/
def dumpLost (s : State) : State :=
  ev 0x0C42 { s with cnt := { s.cnt with lost := s.cnt.lost + 1, dumpsLost := s.cnt.dumpsLost + 1 } }

/-- A strobe is made at `t` (R494-R498): everything is latched, SEQ rises, and with ENABLE a dump is due. -/
def strobe (t : Nat) (s : State) : State :=
  let s1 := ev 0x0C40 (latchCounters { s with cnt := { s.cnt with seq := s.cnt.seq + 1, lastStrobe := t } })
  let s2 :=
    if !s.cnt.enable then s1
    else if s.cnt.dump.isSome || s.cnt.slots ≤ (s.cnt.prod - s.cnt.cons).toNat then dumpLost s1
    else { s1 with cnt := { s1.cnt with
      -- what is latched is what stood before the strobe was counted (R504)
      dump := some { latchDump t s with seq := s1.cnt.seq, entries := dumpEntries { s1 with cnt := { s1.cnt with
        probes := s.cnt.probes } } }
      dumpsLost := 0, stepped := false, first := false } }
  { s2 with cnt := { s2.cnt with bridged := false } }

/-- PEEL_STROBE (R494): at a multiple of the period that module time has not passed before. -/
def execPeelStrobe (s : State) : Res :=
  if on s 48 && timeReady s && s.cnt.period != 0 && s.cnt.lastStrobe < strobeTime s then done s (strobe (strobeTime s) s)
  else done s s

/-! ### Writing a dump (R496-R498) -/

/-- The 16 bytes of an entry (R497). -/
def DumpEntry.bytes (x : DumpEntry) : List Byte :=
  natLe 8 x.value.toNat ++ natLe 2 x.event ++ natLe 1 x.inst ++ [x.flags] ++ natLe 1 x.index ++ natLe 1 x.bin ++ [0, 0]

/-- Header bytes 0-59 (R496). -/
def Dump.header (d : Dump) : List Byte :=
  natLe 4 d.seq.toNat ++ natLe 2 d.entries.length ++ [d.flags] ++ natLe 1 d.timeState ++ natLe 8 d.strobeNs
    ++ natLe 8 d.aon.toNat ++ natLe 2 (min 0xFFFF d.lost) ++ [0, 0] ++ natLe 4 d.period
    ++ natLe 8 d.domainsOn.toNat ++ natLe 8 d.domainsRetain.toNat ++ List.replicate 12 0

/-- PEEL_DUMP_WRITTEN (R498): entries, header, PEEL_PROD, the writeback word, vector 5. While host memory cannot be reached
the dump is not written (R397). -/
def execPeelDumpWritten (s : State) : Res :=
  match s.cnt.dump with
  | none => done s s
  | some d =>
    if !on s 48 then done s s
    else if !(s.pcie.linkUp && on s 4) || s.cnt.slots = 0 then done s (loseDump s)
    else
      let slot := s.cnt.ringBase.toNat + 65536 * (s.cnt.prod.toNat % s.cnt.slots)
      let body := d.entries.flatMap DumpEntry.bytes
      let head := d.header
      let crc := natLe 4 (crc32 (head ++ body)).toNat
      let s1 := emit (.hostWrite slot (head ++ crc)) (emit (.hostWrite (slot + 64) (pad (65536 - 64) body)) s)
      let prod := s.cnt.prod + 1
      let s2 := emit (.hostWrite s.cnt.wbAddr.toNat (natLe 4 prod.toNat ++ natLe 4 d.seq.toNat))
        { s1 with cnt := { s1.cnt with prod := prod, dump := none } }
      done s (raise 5 (ev 0x0C41 s2))

/-! ### The registers of the peel (R492, R493) -/

/-- A write of PEEL_CTRL: a SLOTS out of range, or changed while ENABLE is 1, drops it. -/
def writePeelCtrl (req : Req) (v : Word) (s : State) : State :=
  let slots := fld v 11 1
  if slots < 2 || 1024 < slots || (s.cnt.enable && slots != s.cnt.slots) then enumDrop req 0x60010 s
  else
    let s1 := { s with cnt := { s.cnt with slots := slots, enable := bit v 0 } }
    if bit v 0 && !s.cnt.enable then { s1 with cnt := { s1.cnt with prod := 0, cons := 0, first := true } } else s1

/-- A write of PEEL_RING_BASE or PEEL_WB_ADDR (R493): one that would change it while ENABLE is 1 is dropped. -/
def writePeelAddr (req : Req) (wb : Bool) (v : Word) (s : State) : State :=
  let x := if wb then v &&& ~~~7 else v &&& ~~~0xFFFF
  let old := if wb then s.cnt.wbAddr else s.cnt.ringBase
  if s.cnt.enable && x != old then enumDrop req (if wb then 0x60008 else 0x60000) s
  else if wb then { s with cnt := { s.cnt with wbAddr := x } }
  else { s with cnt := { s.cnt with ringBase := x } }

/-- A write of PEEL_CONS (R493): taken only within SLOTS of PEEL_PROD. -/
def writePeelCons (v : Word) (s : State) : State :=
  let c : BitVec 32 := v.setWidth 32
  if (s.cnt.prod - c).toNat ≤ s.cnt.slots then { s with cnt := { s.cnt with cons := c } } else ev 0x0C43 s

/-- PEEL_CONS_WRITE (R493). -/
def execPeelConsWrite (req : Req) (value : Word) (s : State) : Res :=
  done s (writeSide req 0x60020 48 value (writePeelCons value) s)

/-- PEEL_ENABLE (R493): a write of PEEL_CTRL with ENABLE 1. -/
def execPeelEnable (req : Req) (value : Word) (s : State) : Res :=
  if bit value 0 then done s (writeSide req 0x60010 48 value (writePeelCtrl req value) s) else done s s

/-! ### Group 0x0C (R438) -/

def setProbe (p : Nat) (x : Probe) (s : State) : State :=
  { s with cnt := { s.cnt with probes := mput probeOff s.cnt.probes p x } }

/-- PROBE_SET (R491). -/
def cmdProbeSet : IfCmd where
  opcode := 0x0C01
  len := lenIs 2
  domains := fun _ => [48]
  range := fun _ ws => onlyBits (arg ws 1) 0x1FFFF003F && evInsts (fld (arg ws 1) 31 16) != 0
  effect := fun _ ws s =>
    let p := fld (arg ws 1) 5 0
    let x := probe s p
    let c := bit (arg ws 1) 32
    (setProbe p { event := fld (arg ws 1) 31 16, enabled := true, value := if c then 0 else x.value
                  invalid := !c && x.invalid } s, .done)

def execProbeSet (ch : Nat) (s : State) : Res := done s (runIf cmdProbeSet ch s)

/-- The event and the instance that a counter command names. -/
def counterArg (ws : List Word) : Nat × Nat := (fld (arg ws 1) 15 0, fld (arg ws 1) 19 16)

def counterRange (ws : List Word) : Bool :=
  onlyBits (arg ws 1) 0xFFFFF && (counterArg ws).2 < evInsts (counterArg ws).1

/-- COUNTER_READ (R490). -/
def cmdCounterRead : IfCmd where
  opcode := 0x0C02
  len := lenIs 2
  domains := fun ws => [evDom (counterArg ws).1 (counterArg ws).2]
  range := fun _ ws => counterRange ws
  effect := fun _ ws s =>
    let x := counterArg ws
    (s, .data [counter s x.1 x.2, word (b2n (mget false s.cnt.invalid (evKey x.1 x.2)))])

def execCounterRead (ch : Nat) (s : State) : Res := done s (runIf cmdCounterRead ch s)

/-- COUNTER_VALIDATE (R438, R490). -/
def cmdCounterValidate : IfCmd where
  opcode := 0x0C06
  len := lenIs 2
  domains := fun ws => [evDom (counterArg ws).1 (counterArg ws).2]
  range := fun _ ws => counterRange ws
  effect := fun _ ws s =>
    let x := counterArg ws
    ({ s with cnt := { s.cnt with invalid := mput false s.cnt.invalid (evKey x.1 x.2) false } }, .done)

def execCounterValidate (ch : Nat) (s : State) : Res := done s (runIf cmdCounterValidate ch s)

/-- The bins, the maximum and the INVALID flags of an engine are cleared (R503). -/
def clearHist (s : State) (e : Nat) : State := setHistEng e { histEng s e with bins := [], max := 0, invalid := [] } s

/-- A configuration word of R500. -/
def histOk (w : Word) : Bool :=
  onlyBits w 0xFFFFF && fld w 2 1 ≤ 2 && (fld w 19 9 = 0 || 8 ≤ fld w 19 9)

/-- HIST_SET (R500, R503). -/
def cmdHistSet : IfCmd where
  opcode := 0x0C03
  len := lenIs 3
  domains := fun _ => [48]
  range := fun _ ws => onlyBits (arg ws 1) 0x3F && histOk (arg ws 2)
  effect := fun _ ws s =>
    let e := fld (arg ws 1) 5 0
    let s1 := if fld (histEng s e).config 2 1 = fld (arg ws 2) 2 1 then s else clearHist s e
    (setHistEng e { histEng s1 e with config := arg ws 2 } s1, .done)

def execHistSet (ch : Nat) (s : State) : Res := done s (runIf cmdHistSet ch s)

/-- HIST_CLEAR (R503). -/
def cmdHistClear : IfCmd where
  opcode := 0x0C04
  len := lenIs 2
  domains := fun _ => [48]
  effect := fun _ ws s => (((List.range 64).filter (bit (arg ws 1))).foldl clearHist s, .done)

def execHistClear (ch : Nat) (s : State) : Res := done s (runIf cmdHistClear ch s)

/-- PEEL_PERIOD (R494). -/
def cmdPeelPeriod : IfCmd where
  opcode := 0x0C05
  len := lenIs 2
  domains := fun _ => [48]
  range := fun _ ws => onlyBits (arg ws 1) 0xFFFFFFFF && fld (arg ws 1) 31 0 ≤ 60000
  effect := fun _ ws s => ({ s with cnt := { s.cnt with period := fld (arg ws 1) 31 0 } }, .done)

def execPeelPeriod (ch : Nat) (s : State) : Res := done s (runIf cmdPeelPeriod ch s)

end Sys2Proof.Machine
end

