-- ==== Sys2Proof/Machine/Regs.lean ====
section
/-! DEFINITION. The register space (R4-R7, R361-R369): what every register of BAR0 reads, what a write of it stores, the
doorbells of BAR2, the MSI-X table of BAR4, and an access with the rules it may break. -/

namespace Sys2Proof.Machine

/-! ### The map of BAR0 (R364) -/

/-- The domain of the block at an offset of BAR0, none where the offset lies in no listed block. -/
def blockDom (o : Nat) : Option Nat :=
  if o < 0x30000 then some 6
  else if o < 0x40000 then some 0
  else if o < 0x50000 then some 7
  else if o < 0x60000 then some 46
  else if o < 0x70000 then some 48
  else if 0x80000 ≤ o ∧ o < 0x84000 then some 18
  else if 0x100000 ≤ o ∧ o < 0x140000 then some 5
  else none

/-! ### Reads -/

/-- IRQ_CAUSE0 (R372); a block that is not ON shows no cause (R462). -/
def irqCause0 (s : State) : Word :=
  word (b2n (s.glb.error != 0) + at' (b2n (s.glb.changed &&& s.glb.mask != 0)) 1
    + ((List.range 4).map fun n => at' (b2n (on s 18 && (cport s n).events != 0)) (2 + n)).sum
    + at' (b2n (on s 46 && s.cph.events != 0)) 6)

/-- The GLB_ block (R365). -/
def readGlb (o : Nat) (s : State) : Word :=
  if o = 0x00 then word (0x2200 + at' 0x01 16 + at' 0x01 24)
  else if o = 0x08 then glbFw s
  else if o = 0x10 then glbReady s
  else if o = 0x18 then s.glb.changed
  else if o = 0x20 then s.glb.mask
  else if o = 0x28 then s.glb.error
  else if o = 0x30 then s.glb.accessErr
  else if o = 0x38 then s.glb.offDomain
  else if o = 0x40 then s.glb.scratch
  else 0

/-- The IRQ_ block (R372). -/
def readIrq (o : Nat) (s : State) : Word :=
  if o = 0x00 then irqCause0 s
  else if o = 0x08 then word s.pcie.testVector
  else if 0x100 ≤ o ∧ o < 0x4100 then word (vec s ((o - 0x100) / 8)).gap
  else 0

/-- MBX_c_STATUS (R403). -/
def mbxStatus (s : State) (c : Nat) : Word :=
  let x := chan s c
  let st := match x.st with
    | .empty => 0
    | .posted => 1
    | .acked => 2
  word (st + at' (b2n x.waking) 2 + at' x.postedSeq 16 + at' (age s c) 32)

/-- MBX_c_ACK (R404). -/
def mbxAckWord (s : State) (c : Nat) : Word :=
  let x := chan s c
  word (x.ackCode + at' x.ackNote 16 + at' x.ackSeq 32 + at' (b2n x.ackValid) 63)

/-- A register of a channel (R401, R402): the payload only for a party. -/
def readChan (r : Req) (c o : Nat) (s : State) : Word :=
  if o < 0x200 then (if isSender r c || isReceiver r c then chanWord (chan s c) (o / 8) else 0)
  else if o = 0x208 then mbxAckWord s c
  else if o = 0x210 then mbxStatus s c
  else 0

/-- MBX_HOST_PENDING (R402). -/
def hostPending (s : State) : Word :=
  word (((List.range 8).map fun n => at' (b2n (isPosted s (8 + n))) n).sum
    + at' (b2n (isPosted s 16)) 8 + at' (b2n (isPosted s 17)) 9)

/-- The MBX_ block (R402). -/
def readMbx (r : Req) (o : Nat) (s : State) : Word :=
  if o < 0x5400 then readChan r (o / 0x400) (o % 0x400) s
  else if o = 0x8000 then s.mbx.events
  else if o = 0x8008 then s.mbx.crossed
  else if o = 0x8010 then hostPending s
  else if 0x8040 ≤ o ∧ o < 0x8080 then word (mget 0 s.mbx.discards ((o - 0x8040) / 8))
  else 0

/-- The code of a domain's state (R428). -/
def domCode (s : State) (n : Nat) : Nat :=
  match (dom s n).st with
  | .on => 0
  | .retain => 1
  | .off => 2
  | .toOn | .toRetain | .toOff => 3

/-- The states of the domains from `first` on, two bits each (R428). -/
def domainWord (s : State) (first n : Nat) : Word :=
  word (((List.range n).map fun m => at' (domCode s (first + m)) (2 * m)).sum)

/-- Completed intervals of `us` microseconds since supply good, by the always-on counter. -/
def intervals (s : State) (us : Nat) : Nat := s.pwr.aon.toNat * 4096 / (us * 10000)

/-- PWR_STATUS (R452). -/
def pwrStatus (s : State) : Word :=
  let k := intervals s 100
  let j := intervals s 100000
  let mv := if k = 0 then 0 else (Config.busMv s.pwr.boots k).toNat
  let dw := if j = 0 then 0 else (Config.loadDw s.pwr.boots j).toNat
  word (b2n s.pwr.supplyGood + at' (b2n s.pwr.warn) 1 + at' (b2n s.pwr.recovering) 2 + at' mv 16 + at' dw 32)

/-- The PWR_ block (R451). -/
def readPwr (o : Nat) (s : State) : Word :=
  if o = 0x00 then pwrStatus s
  else if o = 0x08 then s.pwr.events
  else if o = 0x10 then domainWord s 0 32
  else if o = 0x18 then domainWord s 32 18
  else if o = 0x20 then s.pwr.wake
  else if o = 0x28 then word (s.pwr.warnings.toNat + at' s.pwr.recoveries.toNat 32)
  else if o = 0x30 then word s.pwr.aon.toNat
  else 0

/-- TMU_QUALITY (R285). -/
def tmuQuality (s : State) : Word :=
  word (timeStCode s.tmu.st + at' (b2n s.tmu.disc.heHoldover) 3 + at' (b2n (!s.line.rootLocked)) 4
    + at' s.tmu.disc.mode 5 + at' (b2n s.tmu.released) 7 + at' (uncertainty s) 32)

/-- TMU_TSQq_HEAD as it stands (R303). -/
def headWord (s : State) (q : Nat) : Word :=
  match (tsq s q).recs with
  | [] => 0
  | r :: _ => stampWord r

/-- A register of a stamp queue (R284). -/
def readTsq (r : Req) (q o : Nat) (s : State) : Word :=
  if o = 0x00 then headWord s q
  else if o = 0x08 then mget 0 (latch s r).tsq q
  else if o = 0x10 then (tsq s q).lostTotal
  else 0

/-- The TMU_ block (R284). -/
def readTmu (r : Req) (o : Nat) (s : State) : Word :=
  if o = 0x00 then word s.tmu.ns
  else if o = 0x08 then word (latch s r).frac
  else if o = 0x10 then word (wrap 40 (incEff s))
  else if o = 0x18 then word (wrap 32 s.tmu.adj)
  else if o = 0x20 then tmuQuality s
  else if o = 0x28 then s.tmu.events
  else if o = 0x30 then word s.tmu.ppsTime
  else if o = 0x38 then word (wrap 32 s.tmu.ppsDiff + at' s.tmu.ppsEdges.toNat 32)
  else if 0x100 ≤ o ∧ o < 0x1A0 then readTsq r ((o - 0x100) / 0x20) (o % 0x20) s
  else 0

/-- CPH_STATUS (R328). -/
def cphStatus (s : State) : Word :=
  word ((16 - s.cph.queue.length) + at' (laCores s) 8 + at' (coresOn s) 16 + at' s.cph.jobsDone.toNat 32)

/-- The CPH_ block (R324, R325, R328). -/
def readCph (r : Req) (o : Nat) (s : State) : Word :=
  if o = 0x00 then lockValue r s
  else if o = 0x08 then cphStatus s
  else if o = 0x10 then word (s.cph.vector + at' s.cph.timeout 16)
  else if o = 0x18 then s.cph.events
  else if 0x40 ≤ o ∧ o < 0x80 then mget 0 s.cph.job ((o - 0x40) / 8)
  else 0

/-- PEEL_STATUS (R493). -/
def peelStatus (s : State) : Word :=
  word (b2n (s.cnt.enable && s.cnt.period != 0) + at' (b2n (!timeReady s)) 1 + at' s.cnt.period 16)

/-- The PEEL_ block (R492). -/
def readPeel (o : Nat) (s : State) : Word :=
  if o = 0x00 then s.cnt.ringBase
  else if o = 0x08 then s.cnt.wbAddr
  else if o = 0x10 then word (b2n s.cnt.enable + at' s.cnt.slots 1)
  else if o = 0x18 then word s.cnt.prod.toNat
  else if o = 0x20 then word s.cnt.cons.toNat
  else if o = 0x28 then peelStatus s
  else if o = 0x30 then word s.cnt.lost.toNat
  else if 0x100 ≤ o ∧ o < 0x300 then (probe s ((o - 0x100) / 8)).value
  else if 0x300 ≤ o ∧ o < 0x500 then
    let p := probe s ((o - 0x300) / 8)
    word (p.event + at' (b2n p.enabled) 16)
  else 0

/-- The HST_ block (R502). -/
def readHst (o : Nat) (s : State) : Word :=
  if o < 0x4000 then mget 0 (histEng s (o / 0x100)).bins (o % 0x100 / 8)
  else if o < 0x4200 then (histEng s ((o - 0x4000) / 8)).config
  else if o < 0x4400 then word (histEng s ((o - 0x4200) / 8)).max
  else 0

/-- A bit for each of eight priorities. -/
def prioBits (f : Nat → Bool) : Nat := ((List.range 8).map fun p => at' (b2n (f p)) p).sum

/-- CPn_STATUS of a used port (R278). -/
def cpStatus (s : State) (n : Nat) : Word :=
  let c := cport s n
  let p (k : Nat) : PauseSt := pauseReset' c k
  word (b2n c.up + at' (b2n c.amLock) 1 + at' (b2n c.hiSer) 2 + at' (b2n c.localFault) 3 + at' (b2n c.remoteFault) 4
    + at' (b2n ((portLanes s n).any fun k => (lane s k).loop != 0)) 5 + at' s.prt.mode 8 + at' c.flow 10
    + at' (b2n c.preTx) 12 + at' (b2n c.preRx) 13
    + at' (prioBits fun k => (p k).timer && !(p k).ignoring) 16 + at' (prioBits fun k => (p k).ignoring) 24
    + at' (prioBits fun k => (p k).xoff) 32)

/-- The CPn_ block (R277): an unused port reads zero. -/
def readCp (n o : Nat) (s : State) : Word :=
  if (portLanes s n).isEmpty then 0
  else if o = 0x00 then cpStatus s n
  else if o = 0x08 then (cport s n).events
  else if o = 0x10 then word (cport s n).fecOk
  else if o = 0x18 then word (cport s n).fecBad
  else 0

def ringStCode : RingSt → Nat
  | .stopped => 0
  | .running => 1
  | .draining => 2
  | .error => 3

/-- WAITING (R379): a fetch held for completion room, or a head frame whose wait runs. -/
def ringWaits (s : State) (rx : Bool) (n : Nat) : Bool :=
  if rx then s.dma.waits.any fun h => (headOf s h).any fun x => x.2 == n else (txRing s n).waiting

/-- The control block of a ring (R376, R379). -/
def readDma (rx : Bool) (n o : Nat) (s : State) : Word :=
  let r := ringOf s rx n
  if o = 0x00 then r.descBase
  else if o = 0x08 then r.cplBase
  else if o = 0x10 then r.wbAddr
  else if o = 0x18 then r.ctrl
  else if o = 0x20 then
    word (ringStCode r.st + at' r.err 4 + at' (b2n r.cfgRefused) 8 + at' (b2n (ringWaits s rx n)) 9)
  else if o = 0x28 then word (r.prod.toNat + at' r.done.toNat 32)
  else if o = 0x30 then word (r.good.toNat + at' r.bad.toNat 32)
  else 0

/-- What a register of BAR0 holds for a requester, without the side effect of a read (R362, R364). -/
def readReg (r : Req) (o : Nat) (s : State) : Word :=
  if o < 0x10000 then readGlb o s
  else if o < 0x20000 then readIrq (o - 0x10000) s
  else if o < 0x30000 then readMbx r (o - 0x20000) s
  else if o < 0x40000 then readPwr (o - 0x30000) s
  else if o < 0x50000 then readTmu r (o - 0x40000) s
  else if o < 0x60000 then readCph r (o - 0x50000) s
  else if o < 0x68000 then readPeel (o - 0x60000) s
  else if o < 0x70000 then readHst (o - 0x68000) s
  else if 0x80000 ≤ o ∧ o < 0x84000 then readCp ((o - 0x80000) / 0x1000) (o % 0x1000) s
  else if 0x100000 ≤ o ∧ o < 0x120000 then readDma false ((o - 0x100000) / 0x40) (o % 0x40) s
  else if 0x120000 ≤ o ∧ o < 0x140000 then readDma true ((o - 0x120000) / 0x40) (o % 0x40) s
  else 0

/-- The side effect of a 64-bit read, with its value (R303, R326, R284). -/
def readEffect (r : Req) (o : Nat) : Option (State → BitVec 64 × State) :=
  if o = 0x40000 then some (readNow r)
  else if 0x40100 ≤ o ∧ o < 0x401A0 ∧ o % 0x20 = 0 then some (readHead r ((o - 0x40100) / 0x20))
  else if o = 0x50000 then some (readLock r)
  else none

/-- The half of a 64-bit value that a 32-bit read addresses (R362). -/
def halfOf (v : BitVec 64) (o : Nat) : BitVec 64 := if o % 8 = 0 then v &&& 0xFFFFFFFF else v >>> 32

/-! ### Writes -/

/-- A record of R369 or R411 after a write: 1 in VALID clears it whole. -/
def clearRecord (r v : Word) : Word := if bit v 63 then 0 else r

/-- The GLB_ block (R365, R368, R369). -/
def writeGlb (o : Nat) (v : Word) (s : State) : State :=
  if o = 0x18 then { s with glb := { s.glb with changed := s.glb.changed &&& ~~~v } }
  else if o = 0x20 then { s with glb := { s.glb with mask := v &&& 0x3FFFFFF } }
  else if o = 0x28 then { s with glb := { s.glb with error := s.glb.error &&& ~~~v } }
  else if o = 0x30 then { s with glb := { s.glb with accessErr := clearRecord s.glb.accessErr v } }
  else if o = 0x38 then { s with glb := { s.glb with offDomain := clearRecord s.glb.offDomain v } }
  else if o = 0x40 then { s with glb := { s.glb with scratch := v } }
  else s

/-- A write of IRQ_TEST (R372). -/
def writeIrqTest (v : Word) (s : State) : State :=
  let s1 := { s with pcie := { s.pcie with testVector := fld v 10 0 } }
  if bit v 63 then raise (fld v 10 0) s1 else s1

/-- The IRQ_ block (R372): a GAP above 10,000 drops the write. -/
def writeIrq (req : Req) (o : Nat) (v : Word) (s : State) : State :=
  if o = 0x08 then writeIrqTest v s
  else if 0x100 ≤ o ∧ o < 0x4100 then
    let n := (o - 0x100) / 8
    if 10000 < fld v 13 0 then enumDrop req (0x10000 + o) s
    else setVec n { vec s n with gap := fld v 13 0 } s
  else s

/-- A register of a channel (R401, R402). -/
def writeChan (req : Req) (c o : Nat) (v : Word) (s : State) : State :=
  if o < 0x200 then writePayload req c (o / 8) v s
  else if o = 0x200 then
    (if !isSender req c then nonParty s else if bit v 0 then writeDoorbell req c s else s)
  else if o = 0x208 then writeAck req c v s
  else if o = 0x218 then
    (if !(isSender req c || isReceiver req c) then nonParty s
     else if isSender req c && isPosted s c then whilePosted s
     else if bit v 0 then writeZero req c s else s)
  else s

/-- The MBX_ block (R402, R405, R411). -/
def writeMbx (req : Req) (o : Nat) (v : Word) (s : State) : State :=
  if o < 0x5400 then writeChan req (o / 0x400) (o % 0x400) v s
  else if o = 0x8000 then
    (if req != .host then nonParty s else { s with mbx := { s.mbx with events := s.mbx.events &&& ~~~v } })
  else if o = 0x8008 then
    (if req != .host then nonParty s else { s with mbx := { s.mbx with crossed := clearRecord s.mbx.crossed v } })
  else s

/-- A write of CPH_CONFIG by the lock's owner (R328). -/
def writeCphConfig (req : Req) (v : Word) (s : State) : State :=
  let n := fld v 10 0
  let t := fld v 31 16
  if (1 ≤ n && n ≤ 7) || t = 0 || 10000 < t then enumDrop req 0x50010 s
  else { s with cph := { s.cph with vector := n, timeout := t } }

/-- The CPH_ block (R324, R325, R328). -/
def writeCph (req : Req) (o : Nat) (v : Word) (s : State) : State :=
  if o = 0x00 then writeLock req v s
  else if o = 0x10 then (if ownsCph s req then writeCphConfig req v s else nonOwner s)
  else if o = 0x18 then { s with cph := { s.cph with events := s.cph.events &&& ~~~v } }
  else if 0x40 ≤ o ∧ o < 0x80 then
    (if ownsCph s req then { s with cph := { s.cph with job := mput 0 s.cph.job ((o - 0x40) / 8) v } } else nonOwner s)
  else if o = 0x80 then writeSubmit req v s
  else s

/-- The PEEL_ block (R492, R493). -/
def writePeel (req : Req) (o : Nat) (v : Word) (s : State) : State :=
  if o = 0x00 then writePeelAddr req false v s
  else if o = 0x08 then writePeelAddr req true v s
  else if o = 0x10 then writePeelCtrl req v s
  else if o = 0x20 then writePeelCons v s
  else s

/-- A write of an address field that is guarded outside STOPPED (R380). -/
def guardBase (rx : Bool) (n : Nat) (old new : Word) (f : Ring → Ring) (s : State) : State :=
  let r := ringOf s rx n
  if r.st ≠ .stopped ∧ new ≠ old then cfgRefuse rx n s else setRing rx n (f r) s

/-- The control block of a ring (R376-R380). -/
def writeDma (req : Req) (rx : Bool) (n o : Nat) (v : Word) (s : State) : State :=
  let r := ringOf s rx n
  let page := v &&& ~~~0xFFF
  if o = 0x00 then guardBase rx n r.descBase page (fun x => { x with descBase := page }) s
  else if o = 0x08 then guardBase rx n r.cplBase page (fun x => { x with cplBase := page }) s
  else if o = 0x10 then guardBase rx n r.wbAddr (v &&& ~~~7) (fun x => { x with wbAddr := v &&& ~~~7 }) s
  else if o = 0x18 then writeCtrl req rx n v s
  else if o = 0x20 then (if bit v 8 then setRing rx n { r with cfgRefused := false } s else s)
  else s

/-- What a 64-bit write of a register of BAR0 stores (R4, R362). -/
def writeReg (req : Req) (o : Nat) (v : Word) (s : State) : State :=
  if o < 0x10000 then writeGlb o v s
  else if o < 0x20000 then writeIrq req (o - 0x10000) v s
  else if o < 0x30000 then writeMbx req (o - 0x20000) v s
  else if o = 0x30008 then { s with pwr := { s.pwr with events := s.pwr.events &&& ~~~v } }
  else if o = 0x40028 then { s with tmu := { s.tmu with events := s.tmu.events &&& ~~~v } }
  else if 0x50000 ≤ o ∧ o < 0x60000 then writeCph req (o - 0x50000) v s
  else if 0x60000 ≤ o ∧ o < 0x68000 then writePeel req (o - 0x60000) v s
  else if 0x80000 ≤ o ∧ o < 0x84000 ∧ o % 0x1000 = 8 then
    let n := (o - 0x80000) / 0x1000
    setCport n { cport s n with events := (cport s n).events &&& ~~~v } s
  else if 0x100000 ≤ o ∧ o < 0x120000 then writeDma req false ((o - 0x100000) / 0x40) (o % 0x40) v s
  else if 0x120000 ≤ o ∧ o < 0x140000 then writeDma req true ((o - 0x120000) / 0x40) (o % 0x40) v s
  else s

/-! ### An access to BAR0 (R362, R364, R464) -/

/-- A size other than 4 or 8, or an offset that is not naturally aligned. -/
def badSize (a : Access) : Bool := !((a.size == 4 || a.size == 8) && a.offset % a.size == 0)

/-- The CODE of the rule of R362 or R364 that an access to BAR0 breaks. -/
def brokenRule (a : Access) : Option Nat :=
  if badSize a then some 4
  else if a.write && a.poisoned then some 5
  else if a.write && a.size == 4 then some 1
  else if (blockDom a.offset).isNone then some 2
  else none

/-- The answer to an access that breaks a rule: both records where its block is not ON besides. -/
def refuseAccess (a : Access) (code : Nat) (s : State) : State :=
  let s1 := accessErr a.req a.offset a.write code s
  let s2 := match blockDom a.offset with
    | some d => if on s d then s1 else offDomainRec a.req a.offset a.write d s1
    | none => s1
  if a.write then s2 else emit (if code = 4 then .unsupported a.req else .readReply a.req 0) s2

/-- A read of a register whose block is ON. -/
def readAccess (a : Access) (s : State) : State :=
  if a.size = 8 then
    match readEffect a.req a.offset with
    | some f => emit (.readReply a.req (f s).1) (f s).2
    | none => emit (.readReply a.req (readReg a.req a.offset s)) s
  else
    -- what a 64-bit read would return, and nothing changed
    let o := a.offset - a.offset % 8
    let v := if o = 0x50000 then readReg a.req o s else match readEffect a.req o with
      | some f => (f s).1
      | none => readReg a.req o s
    emit (.readReply a.req (halfOf v a.offset)) s

/-- An access to BAR0 that no wake holds. -/
def access0 (a : Access) (s : State) : State :=
  match brokenRule a, blockDom a.offset with
  | some code, _ => refuseAccess a code s
  | none, none => s
  | none, some d =>
    if !on s d then
      let t := offDomainRec a.req a.offset a.write d s
      if a.write then t
      else emit (.readReply a.req (if a.size = 8 then offValue d else halfOf (offValue d) a.offset)) t
    else if a.write then writeReg a.req a.offset a.value s
    else readAccess a s

/-! ### BAR2 and BAR4 (R361, R381, R543) -/

/-- The offset names a doorbell, or its upper half. -/
def isBell (o : Nat) : Bool := o < 0x800000 && o % 4096 < 0x20

/-- The value a doorbell read returns: the index last taken (R381). -/
def bellValue (s : State) (o : Nat) : BitVec 64 :=
  let n := o / 4096
  let k := o % 4096 / 8
  word (if k = 0 then (txRing s n).tail else if k = 1 then (txRing s n).head
    else if k = 2 then (rxRing s n).tail else (rxRing s n).head).toNat

/-- A doorbell write that reaches PD05. -/
def writeBell (a : Access) (s : State) : State :=
  let n := a.offset / 4096
  let k := a.offset % 4096
  if k = 0x00 then takeBell false n true a.value (bellTxTail n) s
  else if k = 0x08 then takeBell false n false a.value (bellTxHead n) s
  else if k = 0x10 then takeBell true n true a.value (takePosted n a.descs) s
  else if k = 0x18 then takeBell true n false a.value (bellRxHead n) s
  else s

/-- An access of a bad size or alignment, or a poisoned write, to BAR2 or BAR4: counted, and not logged (R543). -/
def refuseBar (a : Access) (s : State) : State :=
  if badSize a then
    let t := ev 0x0E23 s
    if a.write then t else emit (.unsupported a.req) t
  else ev 0x0E24 s

def badBar (a : Access) : Bool := badSize a || (a.write && a.poisoned)

/-- The value as a read of this size returns it. -/
def sized (a : Access) (v : BitVec 64) : BitVec 64 := if a.size = 8 then v else halfOf v a.offset

/-- An access to BAR2 that no wake holds. -/
def access2 (a : Access) (s : State) : State :=
  if badBar a then refuseBar a s
  else if !isBell a.offset then (if a.write then s else emit (.readReply a.req 0) s)
  else if a.write then
    (if a.offset % 8 ≠ 0 then s else if on s 5 then writeBell a s else ev 0x0D09 s)
  else if on s 5 then emit (.readReply a.req (sized a (bellValue s a.offset))) s
  else emit (.readReply a.req (sized a (offValue 5))) (ev 0x0D08 s)

/-- The message of a vector that waits is sent, when nothing holds it any longer (R371). -/
def sendPending (s : State) (v : Nat) : State := if s.pcie.msixEnable && (vec s v).pending && canSend s v then sendMsix v s else s

/-- Every message that waits and may be sent is sent. -/
def sendAllPending (s : State) : State := (s.pcie.vecs.map (·.1)).foldl sendPending s

/-- A word of BAR4 (R361): entry words, then the Pending Bit Array. -/
def bar4Word (s : State) (o : Nat) : BitVec 64 :=
  if o < 0x8000 then
    let x := vec s (o / 16)
    if o % 16 = 0 then x.addr else word (x.data.toNat + at' (b2n x.masked) 32)
  else if o < 0x8100 then
    word (((List.range 64).map fun k => at' (b2n (vec s ((o - 0x8000) * 8 + k)).pending) k).sum)
  else 0

/-- An entry of the MSI-X table with one of its four doublewords written. -/
def writeEntry (k : Nat) (w : BitVec 32) (x : Vec) : Vec :=
  if k = 0 then { x with addr := word (x.addr.toNat / 2 ^ 32 * 2 ^ 32 + w.toNat / 4 * 4) }
  else if k = 1 then { x with addr := word (x.addr.toNat % 2 ^ 32 + w.toNat * 2 ^ 32) }
  else if k = 2 then { x with data := w }
  else { x with masked := w.getLsbD 0 }

/-- A write of the MSI-X table; unmasking sends what is pending (R371). -/
def writeBar4 (a : Access) (s : State) : State :=
  if a.offset < 0x8000 then
    let n := a.offset / 16
    let k := a.offset % 16 / 4
    let x := writeEntry k (a.value.setWidth 32) (vec s n)
    let y := if a.size = 8 then writeEntry (k + 1) ((a.value >>> 32).setWidth 32) x else x
    sendPending (setVec n y s) n
  else s

/-- An access to BAR4. -/
def access4 (a : Access) (s : State) : State :=
  if badBar a then refuseBar a s
  else if a.write then writeBar4 a s
  else emit (.readReply a.req (sized a (bar4Word s (a.offset - a.offset % 8)))) s

/-! ### Any access -/

/-- An access that no wake holds. -/
def doAccess (a : Access) (s : State) : State :=
  if !reaches s a.req then (if inD3 s a.req && !a.write then emit (.unsupported a.req) s else s)
  else if a.bar = 0 then access0 a s
  else if a.req != .host then s
  else if a.bar = 2 then access2 a s
  else if a.bar = 4 then access4 a s
  else s

/-- The domain that an access needs, where it breaks no rule. -/
def accessDom (a : Access) : Option Nat :=
  if a.bar = 0 then (if (brokenRule a).isNone then blockDom a.offset else none)
  else if a.bar = 2 then (if badBar a || !isBell a.offset || (a.write && a.offset % 8 != 0) then none else some 5)
  else none

/-- The domain whose wake holds the access (R465). -/
def heldBy (s : State) (a : Access) : Option Nat :=
  match accessDom a with
  | some d => if reaches s a.req && (a.bar == 0 || a.req == .host) && holds s d then some d else none
  | none => none

/-- An access, held by a wake or not. -/
def access (a : Access) (s : State) : State :=
  match heldBy s a with
  | some d => holdAccess d a s
  | none => doAccess a s

/-! ### Rows -/

/-- REGISTER_WRITE (R4): a 64-bit write. -/
def execRegisterWrite (req : Req) (bar offset : Nat) (value : Word) (s : State) : Res :=
  done s (access { req := req, bar := bar, offset := offset, size := 8, write := true, value := value, poisoned := false
                   descs := [] } s)

/-- UNSUPPORTED_ACCESS (R362, R364, R543). -/
def execUnsupportedAccess (acc : Access) (s : State) : Res :=
  if (if acc.bar = 0 then (brokenRule acc).isSome else badBar acc) then done s (doAccess acc s) else done s s

/-- OFF_DOMAIN_ACCESS (R464, R543). -/
def execOffDomainAccess (acc : Access) (s : State) : Res :=
  match accessDom acc with
  | some d => if !on s d && (heldBy s acc).isNone then done s (doAccess acc s) else done s s
  | none => done s s

/-- ACCESS_WAKE (R465, R543). -/
def execAccessWake (acc : Access) (s : State) : Res :=
  match heldBy s acc with
  | some d => done s (holdAccess d acc s)
  | none => done s s

/-- The held accesses of a domain, oldest first. -/
def heldOf (s : State) (d : Nat) : List Access := ((s.pwr.held.filter fun e => e.1 == d).map (·.2)).reverse

/-- The domain holds no access any longer. -/
def dropHeld (d : Nat) (s : State) : State :=
  { s with pwr := { s.pwr with held := s.pwr.held.filter fun e => e.1 != d } }

/-- Held accesses complete under R464, each counted as a time-out. -/
def timeoutAccess (s : State) (a : Access) : State := doAccess a (ev 0x0D0B s)

/-- WAKE_TIMEOUT (R465): the oldest held access of the domain has waited 400 us. -/
def execWakeTimeout (domain : Nat) (s : State) : Res :=
  match heldOf s domain with
  | a :: r =>
    if on s domain then done s s
    else
      let t := dropHeld domain s
      done s (timeoutAccess { t with pwr := { t.pwr with held := t.pwr.held ++ (r.reverse.map fun x => (domain, x)) } } a)
  | [] => done s s

/-- IRQ_TEST (R372). -/
def execIrqTest (req : Req) (value : Word) (s : State) : Res :=
  done s (writeSide req 0x10008 6 value (writeIrqTest value) s)

/-- MSIX_GAP_END (R371). -/
def execMsixGapEnd (vector : Nat) (s : State) : Res :=
  if (vec s vector).gapRunning then done s (sendPending (setVec vector { vec s vector with gapRunning := false } s) vector)
  else done s s

/-- MSIX_UNMASK (R371): of a vector, or of the function where none is named. -/
def execMsixUnmask (target : Option Nat) (s : State) : Res :=
  if !(s.pcie.linkUp && on s 4) then done s s
  else match target with
    | some v =>
      if v < 2048 && !s.pcie.d3hot then done s (sendPending (setVec v { vec s v with masked := false } s) v) else done s s
    | none => done s (sendAllPending { s with pcie := { s.pcie with funcMask := false } })

/-- A doubleword of configuration space (R358). -/
def configWord (o : Nat) : BitVec 32 :=
  if o = 0x00 then BitVec.ofNat 32 (0x2200 * 2 ^ 16 + (Config.configSpace 0).toNat % 2 ^ 16)
  else if o = 0x08 then BitVec.ofNat 32 (0x028000 * 2 ^ 8 + 0x01)
  else Config.configSpace o

/-- What a configuration request does once the function is ready (R358, R360, R371). -/
def configDo (op : ConfigOp) (s : State) : State :=
  match op with
  | .read o => emit (.readReply .host ((configWord o).setWidth 64)) s
  | .msix e m => sendAllPending { s with pcie := { s.pcie with msixEnable := e, funcMask := m } }
  | .power d3 => sendAllPending { s with pcie := { s.pcie with d3hot := d3 } }
  | .write _ => s

/-- CONFIG_REQUEST (R359). -/
def execConfigRequest (op : ConfigOp) (s : State) : Res :=
  if !(s.pcie.linkUp && on s 4) then done s s
  else if s.pcie.ready then done s (configDo op s)
  else done s (emit .configRetry s)

/-- The conditions under which the link may train (R478, R479, R511). -/
def linkMayTrain (s : State) : Bool := s.pwr.supplyGood && on s 4 && s.pwr.vio && !s.pwr.perst

/-- FUNCTION_READY (R478). -/
def execFunctionReady (s : State) : Res :=
  if linkMayTrain s then done s { s with pcie := { s.pcie with ready := true } } else done s s

/-- PCIE_LINK_DOWN (R374). -/
def execPcieLinkDown (s : State) : Res := done s (linkDown s)

/-- PCIE_LINK_UP (R374): the messages that waited are sent. -/
def execPcieLinkUp (s : State) : Res :=
  if linkMayTrain s && !s.pcie.linkUp then done s (sendAllPending { s with pcie := { s.pcie with linkUp := true } })
  else done s s

end Sys2Proof.Machine
end

