-- ==== Sys2Proof/Machine/Domains.lean ====
section
/-! DEFINITION. The moves of the power domains (R454-R466), and the Ifeif commands of group 0x02 (R428). -/

namespace Sys2Proof.Machine

/-! ### Bring-up (R473) -/

/-- The domains of a bring-up wave. -/
def waveDomains (w : Nat) : List Nat :=
  nth [[], [3, 6, 7, 9], [2, 4, 10, 18], [5, 8, 11, 39], [13, 40, 41, 46], [12, 47, 42, 43], [44, 45, 35, 36], [37, 38, 48, 49],
    [14, 15, 16, 17], [19, 20, 21, 22], [23, 24, 25, 26], [27, 28, 29, 30], [31, 32, 33, 34]] w []

/-- A wave starts: a domain whose required domain has failed is not started. -/
def startWave (w : Nat) (s : State) : State :=
  (waveDomains w).foldl startOn { s with pwr := { s.pwr with wave := w } }

/-- BRING_UP_WAVE (R473): the wave now running has reached ON or has failed. -/
def execBringUpWave (s : State) : Res :=
  let w := s.pwr.wave
  if s.pwr.supplyGood && 1 ≤ w && w ≤ 12 && (waveDomains w).all fun d => !moving s d then done s (startWave (w + 1) s)
  else done s s

/-! ### Arrivals (R458-R461, R465, R466) -/

/-- PD02 is ON: firmware that was in RETAIN goes on with what happened meanwhile (R409, R414). -/
def firmwareResumes (s : State) : State := if fwWorks s then pfFollow (takeUpMail (flushStore s)) else s

/-- A domain has reached ON: what a wake held completes, oldest first, and what waited for the domain starts. -/
def reachOn (d : Nat) (s : State) : State :=
  let t := ev 0x0D04 (enterOn d s)
  let u := (heldOf t d).foldl (fun x a => doAccess a x) (dropHeld d t)
  advanceSets (advanceWakes (if d = 2 then firmwareResumes u else u))

/-- DOMAIN_ON (R458): the four steps are complete. -/
def execDomainOn (domain : Nat) (s : State) : Res :=
  if (dom s domain).st = .toOn ∧ allOn s (requires domain) then done s (reachOn domain s) else done s s

/-- A domain has reached RETAIN; a doorbell that met PD02 on its way wakes it at once (R415). -/
def reachRetain (d : Nat) (s : State) : State :=
  let t := ev 0x0D05 (setDom d { dom s d with st := .retain } s)
  let u := advanceWakes (advanceSets t)
  if d = 2 && (List.range 21).any fun c => (chan u c).waking then wakeUp 2 u else u

/-- DOMAIN_RETAIN (R458, R460). -/
def execDomainRetain (domain : Nat) (s : State) : Res :=
  if (dom s domain).st = .toRetain ∧ drained domain s then done s (reachRetain domain s) else done s s

/-- A domain has reached OFF. -/
def reachOff (d : Nat) (s : State) : State := advanceWakes (advanceSets (ev 0x0D06 (enterOff d s)))

/-- DOMAIN_OFF (R460, R461). -/
def execDomainOff (domain : Nat) (s : State) : Res :=
  if (dom s domain).st = .toOff ∧ drained domain s then done s (reachOff domain s) else done s s

/-- The failure of a domain is noted in every set that names it (R459). -/
def noteFailed (d : Nat) (s : State) : State :=
  { s with pwr := { s.pwr with
    sets := s.pwr.sets.map fun x => if bit x.domains d then { x with failed := x.failed ||| BitVec.ofNat 64 (2 ^ d) } else x
    waking := s.pwr.waking.filter fun n => !(closure 5 n).contains d } }

/-- DOMAIN_FAIL (R459, R466): the domain returns to OFF, and what a wake held completes under R464. -/
def execDomainFail (domain : Nat) (s : State) : Res :=
  let x := dom s domain
  if x.st = .toOn ∨ (x.st = .toRetain ∧ x.fromOff = true) then
    let t := noteFailed domain (ev 0x0D07 (enterOff domain s))
    done s (advanceSets ((heldOf t domain).foldl timeoutAccess (dropHeld domain t)))
  else done s s

/-! ### DOMAIN_SET (R428, R456) -/

/-- The domains that a DOMAIN_SET names. -/
def setNames (ws : List Word) (d : Nat) : Bool := bit (arg ws 1) d

def setTarget (ws : List Word) : Nat := fld (arg ws 2) 1 0

/-- The command would take the domain out of ON. -/
def takesOut (s : State) (ws : List Word) (d : Nat) : Bool := setNames ws d && setTarget ws != 0 && !asleep s d

/-- The state a domain ends in: as the command asks, as a set in progress asks, or where it rests or moves to. -/
def finalSt (s : State) (ws : List Word) (d : Nat) : DomSt :=
  if setNames ws d then targetSt (setTarget ws)
  else match s.pwr.sets.find? fun x => bit x.domains d && !bit x.failed d with
    | some x => targetSt x.target
    | none => match (dom s d).st with
      | .toOn => .on
      | .toRetain => .retain
      | .toOff => .off
      | st => st

/-- R455 holds between a domain and one that it requires. -/
def requireOk (a b : DomSt) : Bool := a == .off || b == .on || (a == .retain && b == .retain)

/-- The states that the command leads to break R455. -/
def breaksRequires (s : State) (ws : List Word) : Bool :=
  (List.range 50).any fun d => (requires d).any fun n =>
    (setNames ws d || setNames ws n) && !requireOk (finalSt s ws d) (finalSt s ws n)

/-- The domains on a port's path (R257). -/
def pathDomains (s : State) (port : Nat) : List Nat :=
  if port < 64 then [8, 10, 12, 46, 47]
  else if port < 68 then 18 :: (portLanes s (port - 64)).map (14 + ·)
  else if port < 84 then [4, 5]
  else []

/-- A quadrant that holds accepted timed frames. -/
def timedIn (s : State) (k : Nat) : Bool := (buffered s).any fun p => p.promise.isSome && p.quadrant == k

/-- R257 refuses to take the domain out of ON. -/
def ledgerRefuses (s : State) (d : Nat) : Bool :=
  (d == 41 && (List.range 84).any (ledgerBusy s)) || (42 ≤ d && d ≤ 45 && timedIn s (d - 42))
    || (List.range 84).any fun n => (pathDomains s n).contains d && ledgerBusy s n

/-- The domains whose state a PENDING command still needs (R456): firmware's own, beside those of its object. -/
def pendNeeds (p : Pend) : List Nat :=
  match p.wait with
  | .result => []
  | .batchOpen => [2, 3, 6, 39]
  | .batchCommit => [2, 3, 6, 7, 39]
  | .rehash => [2, 3, 6, 40]
  | .keyErase _ => [2, 3, 6, 46]
  | .rogueRelease => [2, 3, 6, 8]
  | .portMode | .eqReload => [2, 3, 6, 18]
  | .flash _ => if p.opcode = 0x0901 then [2, 3, 6, 18] else [2, 3, 6]
  | .domainSet | .lineStop | .tinRelay | .imageOpen _ | .imageClose => [2, 3, 6]

/-- A refusal of another chapter (R146, R159, R202, R257, R299, R315), or of a PENDING command, for one domain. -/
def chapterRefuses (s : State) (ws : List Word) (d : Nat) : Bool :=
  (d == 46 && setNames ws d && setTarget ws == 2 && (s.pf.st == .pf4 || s.pf.st == .pf5 || s.pf.st == .pf6))
    || (takesOut s ws d &&
      ((19 ≤ d && d ≤ 34 && takesPart s (d - 19) && s.cir.commit.isSome)
        || (d == 39 && parseReady s && !([35, 36, 37, 38].all fun c => asleep s c || setNames ws c))
        || (d == 40 && s.flw.newSeed.isSome)
        || ledgerRefuses s d
        || (d == 7 && !(s.tmu.released && !(List.range 84).any (ledgerBusy s)))
        || s.mbx.pend.any fun p => (pendNeeds p).contains d))

/-- A domain that is being brought up or moved by another command (R428, R482). -/
def setBusy (s : State) (d : Nat) : Bool :=
  inSet s d || (1 ≤ s.pwr.wave && s.pwr.wave ≤ 12 && (List.range 13).any fun w => s.pwr.wave ≤ w && (waveDomains w).contains d)

/-- DOMAIN_SET (R428, R456). -/
def cmdDomainSet : IfCmd where
  opcode := 0x0201
  len := lenIs 3
  range := fun _ ws => onlyBits (arg ws 1) 0x3FFFFFFFFFFFF && onlyBits (arg ws 2) 3 && setTarget ws ≤ 2
  check := fun s ws =>
    let named := (List.range 50).filter (setNames ws)
    if named.any (setBusy s) then some (0x8003, none)
    else if setNames ws 0 || setNames ws 1 || breaksRequires s ws || named.any (chapterRefuses s ws) then some (0x8005, some 0x0D0C)
    else none
  effect := fun ch ws s =>
    let x : DomainSet := { ch := ch, seq := fld (arg ws 0) 47 32, domains := arg ws 1, target := setTarget ws, failed := 0
                           sent := false }
    ({ s with pwr := { s.pwr with sets := s.pwr.sets ++ [x] } }, .pend .domainSet)

def execDomainSet (ch : Nat) (s : State) : Res := done s (advanceSets (runIf cmdDomainSet ch s))

/-- DOMAIN_READ (R428). -/
def cmdDomainRead : IfCmd where
  opcode := 0x0202
  len := lenIs 1
  effect := fun _ _ s => (s, .data [domainWord s 0 32, domainWord s 32 18])

def execDomainRead (ch : Nat) (s : State) : Res := done s (runIf cmdDomainRead ch s)

/-- WAKE_ON_ACCESS (R428, R465). -/
def cmdWakeOnAccess : IfCmd where
  opcode := 0x0203
  len := lenIs 3
  range := fun _ ws => onlyBits (arg ws 1) 0x14000000400A0 && onlyBits (arg ws 2) 1
  effect := fun _ ws s =>
    let w := if bit (arg ws 2) 0 then s.pwr.wake ||| arg ws 1 else s.pwr.wake &&& ~~~(arg ws 1)
    ({ s with pwr := { s.pwr with wake := w } }, .done)

def execWakeOnAccess (ch : Nat) (s : State) : Res := done s (runIf cmdWakeOnAccess ch s)

end Sys2Proof.Machine
end

