-- ==== Sys2Proof/Machine/QueueCmds.lean ====
section
/-! DEFINITION. Group 0x07: queues, nodes, policers, resets (R206-R210, R224, R225, R392, R433). -/

namespace Sys2Proof.Machine

/-! ### Bindings and moves (R209, R392, R433) -/

/-- The port node that a subscriber node leads to. -/
def portOfSub (s : State) (n : Nat) : Nat := (svcNode s (subNode s n).parent).parent

/-- A queue moved out of every host group loses its binding (R433). -/
def unbindOut (s : State) : State :=
  s.sch.queues.foldl (fun t e =>
    if e.2.ring.isSome && !isGroup (portOf t e.1) then setQueue e.1 { queue t e.1 with ring := none } t else t) s

/-- After a move of a node, no timed queue lies under port node 84 or 85, and no enabled queue under a host group is
unbound (R230, R433). -/
def placesOk (s : State) : Bool :=
  s.sch.queues.all fun e =>
    let p := portOf s e.1
    !e.2.enable || ((e.2.cls != .timed || p < 84) && (!isGroup p || e.2.ring.isSome))

/-- The ring is a FRAMES ring of the port node's group (R392). -/
def framesRingOf (s : State) (ring port : Nat) : Bool :=
  isGroup port && ringFrames (rxRing s ring) && 68 + ringGroup (rxRing s ring) == port

/-- A valid flow entry whose action sends to the queue names it (R184, R208). -/
def namedByFlow (s : State) (q : Nat) : Bool :=
  (allEnts s.flw).any fun e => toQueueAction e.ctx && fld e.ctx.c0 31 14 == q

/-! ### Commands -/

/-- QUEUE_SET (R206, R208, R230, R392, R433). -/
def cmdQueueSet : IfCmd where
  opcode := 0x0701
  len := lenIs 5
  domains := fun ws => if bit (arg ws 4) 27 then [41, 5] else [41]
  range := fun _ ws =>
    let w1 := arg ws 1
    let w3 := arg ws 3
    onlyBits w1 0x7FFFFFFFFFFF && fld w1 34 33 ≤ 2 && 1 ≤ fld w1 46 35 && shaperRange (arg ws 2)
      && onlyBits w3 0xFFFFFFFFF && 1 ≤ fld w3 17 0 && fld w3 17 0 ≤ 163840 && fld w3 35 18 ≤ fld w3 17 0
      && onlyBits (arg ws 4) 0xFFF3FFF
  check := fun s ws =>
    let w1 := arg ws 1
    let q := fld w1 17 0
    let x := queue s q
    let cls := clsOf (fld w1 34 33)
    let port := portOfSub s (fld w1 32 19)
    let w4 := arg ws 4
    if !bit w1 18 && !x.frames.isEmpty then some (0x8003, none)
    else if cls = .timed ∧ 84 ≤ port then some (0x8006, none)
    else if cls ≠ x.cls ∧ namedByFlow s q then some (0x8006, none)
    else if bit w4 27 then (if framesRingOf s (fld w4 26 16) port then none else some (0x8006, none))
    else if isGroup port && x.ring.isNone then some (0x8006, none)
    else none
  effect := fun _ ws s =>
    let w1 := arg ws 1
    let w2 := arg ws 2
    let w3 := arg ws 3
    let w4 := arg ws 4
    let q := fld w1 17 0
    let x := queue s q
    let cls := clsOf (fld w1 34 33)
    let moved := x.parent != fld w1 32 19
    let tags := if cls = x.cls then (if moved then x.tags.moved else x.tags) else tagsReset
    let port := portOfSub s (fld w1 32 19)
    let ring := if bit w4 27 then some (fld w4 26 16) else if isGroup port then x.ring else none
    let s1 := setQueue q { x with
      enable := bit w1 18, parent := fld w1 32 19, cls := cls, weight := fld w1 46 35, limit := fld w3 17 0
      yellow := fld w3 35 18, lateDrop := bit w4 0, tolerance := fld w4 12 1, acceptReport := bit w4 13, ring := ring
      tags := tags } s
    let s2 := setShaper (.queue q) (x.shaper.reshape s (fld w2 31 0) (fld w2 55 32)) s1
    (followTags (if moved then ev 0x070B s2 else s2), .done)

def execQueueSet (ch : Nat) (s : State) : Res := done s (runIf cmdQueueSet ch s)

/-- The subscriber node as a command would leave it. -/
def subAfter (s : State) (ws : List Word) : State :=
  let w1 := arg ws 1
  let x := subNode s (fld w1 13 0)
  setSub (fld w1 13 0) { x with parent := fld w1 24 14, weight := fld w1 36 25, policer := fld w1 53 37 } s

/-- SUBSCRIBER_SET (R207-R209). -/
def cmdSubscriberSet : IfCmd where
  opcode := 0x0702
  len := lenIs 3
  domains := fun _ => [41]
  range := fun _ ws =>
    let w1 := arg ws 1
    onlyBits w1 0x3FFFFFFFFFFFFF && 1 ≤ fld w1 36 25 && (fld w1 53 37 ≤ 65535 || fld w1 53 37 == 0x1FFFF)
      && shaperRange (arg ws 2)
  check := fun s ws => if placesOk (subAfter s ws) then none else some (0x8006, none)
  effect := fun _ ws s =>
    let w1 := arg ws 1
    let n := fld w1 13 0
    let x := subNode s n
    let moved := x.parent != fld w1 24 14
    let s1 := subAfter s ws
    let y := subNode s1 n
    let s2 := if moved then ev 0x070B (setSub n { y with assured := y.assured.moved, best := y.best.moved } s1) else s1
    let s3 := setShaper (.sub n) (x.shaper.reshape s (fld (arg ws 2) 31 0) (fld (arg ws 2) 55 32)) s2
    (followTags (unbindOut s3), .done)

def execSubscriberSet (ch : Nat) (s : State) : Res := done s (runIf cmdSubscriberSet ch s)

def svcAfter (s : State) (ws : List Word) : State :=
  let w1 := arg ws 1
  let x := svcNode s (fld w1 10 0)
  setSvc (fld w1 10 0) { x with parent := fld w1 17 11, weight := fld w1 29 18 } s

/-- SERVICE_SET (R207-R209). -/
def cmdServiceSet : IfCmd where
  opcode := 0x0703
  len := lenIs 3
  domains := fun _ => [41]
  range := fun _ ws =>
    let w1 := arg ws 1
    onlyBits w1 0x3FFFFFFF && fld w1 17 11 ≤ 85 && 1 ≤ fld w1 29 18 && shaperRange (arg ws 2)
  check := fun s ws => if placesOk (svcAfter s ws) then none else some (0x8006, none)
  effect := fun _ ws s =>
    let w1 := arg ws 1
    let n := fld w1 10 0
    let x := svcNode s n
    let moved := x.parent != fld w1 17 11
    let s1 := svcAfter s ws
    let y := svcNode s1 n
    let s2 := if moved then ev 0x070B (setSvc n { y with assured := y.assured.moved, best := y.best.moved } s1) else s1
    let s3 := setShaper (.svc n) (x.shaper.reshape s (fld (arg ws 2) 31 0) (fld (arg ws 2) 55 32)) s2
    (followTags (unbindOut s3), .done)

def execServiceSet (ch : Nat) (s : State) : Res := done s (runIf cmdServiceSet ch s)

/-- PORT_SHAPER_SET (R207): DENIED for the host groups. -/
def cmdPortShaperSet : IfCmd where
  opcode := 0x0704
  len := lenIs 3
  domains := fun _ => [41]
  range := fun _ ws => onlyBits (arg ws 1) 0x7F && 68 ≤ fld (arg ws 1) 6 0 && fld (arg ws 1) 6 0 ≤ 85 && shaperRange (arg ws 2)
  check := fun _ ws => if fld (arg ws 1) 6 0 < 84 then some (0x8005, none) else none
  effect := fun _ ws s =>
    let n := fld (arg ws 1) 6 0
    (followTags (setShaper (.port n)
      ((portNode s n).shaper.reshape s (fld (arg ws 2) 31 0) (fld (arg ws 2) 55 32)) s), .done)

def execPortShaperSet (ch : Nat) (s : State) : Res := done s (runIf cmdPortShaperSet ch s)

/-- A rate of a policer with its bucket (R225). -/
def policerRange (w : Word) : Bool :=
  let r := fld w 31 0
  fld w 63 56 == 0 && (r == 0 || (64 ≤ r && r ≤ 800000000 && 16415 ≤ fld w 55 32))

/-- POLICER_SET (R225, R227). -/
def cmdPolicerSet : IfCmd where
  opcode := 0x0705
  len := lenIs 4
  domains := fun _ => [41]
  range := fun _ ws => onlyBits (arg ws 1) 0x1FFFF && policerRange (arg ws 2) && policerRange (arg ws 3)
  effect := fun _ ws s =>
    let n := fld (arg ws 1) 15 0
    let x := (policer s n).refill s
    let cbs := fld (arg ws 2) 55 32
    let ebs := fld (arg ws 3) 55 32
    (setPolicer n { x with
      cir := fld (arg ws 2) 31 0, cbs := cbs, eir := fld (arg ws 3) 31 0, ebs := ebs
      yellowDrop := bit (arg ws 1) 16, tc := min x.tc (cbs * 65536), te := min x.te (ebs * 65536) } s, .done)

def execPolicerSet (ch : Nat) (s : State) : Res := done s (runIf cmdPolicerSet ch s)

/-- How many items each kind of RESET has; port nodes 0-67 have nothing to reset (R433). -/
def resetIndexOk (kind i : Nat) : Bool :=
  if kind = 0 then i < 262144
  else if kind = 1 then i < 16384
  else if kind = 2 then i < 2048
  else if kind = 3 then 68 ≤ i && i ≤ 85
  else kind == 4 && i < 65536

/-- The shaped item that a kind and index name (R433). -/
def resetItem (kind i : Nat) : Item :=
  if kind = 0 then .queue i else if kind = 1 then .sub i else if kind = 2 then .svc i else .port i

/-- A bucket is cleared (R221), and counted. -/
def clearBucket (i : Item) (s : State) : State := ev 0x0707 (setShaper i ((shaperOf s i).clear s) s)

/-- The tags of an item are zero again, and a parking of R27 ends (R224). -/
def clearTags (i : Item) (s : State) : State :=
  match i with
  | .queue q => setQueue q { queue s q with tags := tagsReset, parked := false } s
  | .sub n => setSub n { subNode s n with assured := tagsReset, best := tagsReset, parked := false } s
  | .svc n => setSvc n { svcNode s n with assured := tagsReset, best := tagsReset, parked := false } s
  | .port n => setPort n { portNode s n with assured := tagsReset, best := tagsReset, parked := false } s

/-- The frames of a queue are discarded by a NODE reset, each counted (R224); their promises EXPIRE by row 1 of R254. -/
def emptyQueue (q : Nat) (s : State) : State :=
  let l := (queue s q).frames
  discardFrames l true (count 0x0708 0 l.length (setQueue q { queue s q with frames := [] } s))

/-- A reset of a shaped item (R224). -/
def resetOne (i : Item) (node : Bool) (s : State) : State :=
  let s1 := clearBucket i s
  if node then
    let s2 := match i with
      | .queue q => emptyQueue q s1
      | _ => s1
    clearTags i s2
  else s1

/-- RESET (R224). -/
def cmdReset : IfCmd where
  opcode := 0x0706
  len := lenIs 2
  domains := fun _ => [41]
  range := fun _ ws =>
    let w := arg ws 1
    onlyBits w 0xFFFFFFFF && resetIndexOk (fld w 2 0) (fld w 31 8) && fld w 7 4 == 0
  effect := fun _ ws s =>
    let w := arg ws 1
    let i := fld w 31 8
    if fld w 2 0 = 4 then
      let x := policer s i
      (setPolicer i { x with tc := 0, te := 0, at45 := s.sch.time45, parked := x.parked && !bit w 3 } s, .done)
    else (followTags (resetOne (resetItem (fld w 2 0) i) (bit w 3) s), .done)

def execResetCmd (ch : Nat) (s : State) : Res := done s (runIf cmdReset ch s)

/-- The shaper is in a slot of a wheel. -/
def inWheel (sh : Shaper) : Bool :=
  match sh.cal with
  | .fine _ => true
  | .coarse _ => true
  | _ => false

/-- QUEUE_READ (R433). -/
def cmdQueueRead : IfCmd where
  opcode := 0x0707
  len := lenIs 2
  domains := fun _ => [41]
  range := fun _ ws => onlyBits (arg ws 1) 0x3FFFF
  effect := fun _ ws s =>
    let x := queue s (fld (arg ws 1) 17 0)
    (s, .data [word (occupancy x % 2 ^ 18 + at' (b2n (x.parked || x.shaper.cal == .parked)) 18
        + at' (b2n (inWheel x.shaper)) 19),
      word x.frames.length, word (wrap 64 (x.shaper.now s / 65536))])

def execQueueRead (ch : Nat) (s : State) : Res := done s (runIf cmdQueueRead ch s)

/-- TIMED_RESERVE (R211). -/
def cmdTimedReserve : IfCmd where
  opcode := 0x0708
  len := lenIs 2
  domains := fun _ => [41]
  range := fun _ ws => onlyBits (arg ws 1) 0x1FFFF && fld (arg ws 1) 16 0 ≤ 65536
  effect := fun _ ws s => ({ s with sch := { s.sch with reserve := fld (arg ws 1) 16 0 } }, .done)

def execTimedReserve (ch : Nat) (s : State) : Res := done s (runIf cmdTimedReserve ch s)

end Sys2Proof.Machine
end

