-- ==== Sys2Proof/Machine/Scrub.lean ====
section
/-! DEFINITION. The scrubber and what a memory error does in each region (R27), and the return of credits (R17). -/

namespace Sys2Proof.Machine

/-- The row of R27, and the instance of 0x0E30 and 0x0E31 (R488). -/
def regionNo : EccRegion → Nat
  | .buffer => 0
  | .flow => 1
  | .queueState => 2
  | .rules => 3
  | .counters => 4
  | .mgmt => 5
  | .ringState => 6
  | .slice => 7
  | .keyStore => 8
  | .crust => 9

/-- The domain of the word that an error hits (R455). -/
def eccDom (e : EccError) : Nat :=
  match e.region with
  | .buffer => 42 + e.index / 163840
  | .flow => 40
  | .queueState => 41
  | .rules => 39
  | .counters => if e.index < 0x10000 then evDom e.index e.aux else 48
  | .mgmt => 3
  | .ringState => 5
  | .slice => 19 + e.index
  | .keyStore => 46
  | .crust => 11

/-! ### Packet buffer -/

/-- A quadrant number that no frame has: it marks the frame that an error hits. -/
def hitMark : Nat := 4

/-- The k-th frame of quadrant q, from 1, is marked; the first part is what is left to count, 0 once marked. -/
def markList (q : Nat) : Nat → List Packet → Nat × List Packet
  | 0, l => (0, l)
  | k + 1, [] => (k + 1, [])
  | k + 1, p :: r =>
    if p.quadrant = q then
      (if k = 0 then (0, { p with quadrant := hitMark } :: r) else let x := markList q k r; (x.1, p :: x.2))
    else let x := markList q (k + 1) r; (x.1, p :: x.2)

/-- The marking goes through a table in order. -/
def markMap {α : Type} (f : Nat → α → Nat × α) : Nat → Map α → Nat × Map α
  | k, [] => (k, [])
  | k, (n, v) :: r => let x := f k v; let y := markMap f x.1 r; (y.1, (n, x.2) :: y.2)

/-- The k-th frame of quadrant q, in the order of `buffered`, is marked. -/
def markFrame (q k : Nat) (s : State) : State :=
  let a := markMap (fun k x => let y := markList q k x.frames; (y.1, { x with frames := y.2 })) k s.sch.queues
  let b := markMap (fun k r =>
    let y := markList q k r.delivery
    let z := markList q y.1 (r.resv.map (·.packet))
    (z.1, { r with delivery := y.2, resv := (r.resv.zip z.2).map fun e => { e.1 with packet := e.2 } })) a.1 s.dma.rx
  let c := markMap (fun k x =>
    let y := markList q k x.ingress
    let z := markList q y.1 x.egressQ
    (z.1, { x with ingress := y.2, egressQ := z.2 })) b.1 s.cir.circuits
  let d := markMap (fun k x => let y := markList q k x.tx; (y.1, { x with tx := y.2 })) c.1 s.prt.ports
  { s with
    sch := { s.sch with queues := a.2 }, dma := { s.dma with rx := b.2 }, cir := { s.cir with circuits := c.2 }
    prt := { s.prt with ports := d.2 } }

/-- A two-bit error in the cells of a frame: a waiting frame is discarded, one that leaves is completed with its FCS
inverted; each is counted. -/
def bufferHit (q k : Nat) (s : State) : State :=
  let t := discardWaiting 0x07E0 (fun p => p.quadrant == hitMark) (markFrame q k s)
  if (buffered t).any fun p => p.quadrant == hitMark then
    ev 0x07E1 (mapPackets (fun p => if p.quadrant = hitMark then { p with quadrant := q, corrupt := true } else p) t)
  else t

/-! ### Tables -/

/-- A two-bit error in a flow slot: invalidated, counted and reported (R424). -/
def flowHit (n : Nat) (hides : Bool) (s : State) : State :=
  let x := mfind s.flw.slots n
  let space := match x with
    | some e => if hides then 7 else e.key.space
    | none => 7
  let id := if hides then 0xFFFFF else flowId (x.map (·.ctx))
  evReport 0x0605 [word (n + at' space 20 + at' id 32)] (setFlow { s.flw with slots := merase s.flw.slots n } s)

/-- A two-bit error in the state of a queue, node or policer: parked and reported (R27, R424). -/
def queueStateHit (kind i : Nat) (s : State) : State :=
  let t :=
    if kind = 0 then setQueue i { queue s i with parked := true } s
    else if kind = 1 then setSub i { subNode s i with parked := true } s
    else if kind = 2 then setSvc i { svcNode s i with parked := true } s
    else if kind = 3 then setPort i { portNode s i with parked := true } s
    else setPolicer i { policer s i with parked := true } s
  followTags (evReport 0x070C [word (kind + at' i 8)] t)

/-- The version slots that hold a word of the rules memory. -/
def rulesHolders (s : State) (i : Nat) : Bool × Bool :=
  if i < 0x10000 then let x := mget pwordReset s.prs.prog i; (x.h0, x.h1)
  else if i < 0x20000 then let x := mget compReset s.prs.comps (i - 0x10000); (x.h0, x.h1)
  else let x := mget patReset s.prs.pats (i - 0x20000); (x.h0, x.h1)

/-- A live version that holds a word in error is marked faulty, counted and reported (R200, R424). -/
def markFaulty (v : Nat) (holds : Bool) (s : State) : State :=
  let x := version s v
  if holds && x.st != .free && !x.faulty then
    evReport 0x0510 [word (v + at' (x.batch % 2 ^ 32) 32)] (setVersion v { x with faulty := true } s)
  else s

/-- A two-bit error in rules memory. -/
def rulesHit (i : Nat) (s : State) : State :=
  let h := rulesHolders s i
  markFaulty 1 h.2 (markFaulty 0 h.1 s)

/-- A two-bit error in a counter, a probe or a histogram bin: flagged INVALID; an event counter restarts from zero. -/
def counterHit (i aux : Nat) (s : State) : State :=
  if i < 0x10000 then
    { s with cnt := { s.cnt with
      counters := mput 0 s.cnt.counters (evKey i aux) 0, invalid := mput false s.cnt.invalid (evKey i aux) true } }
  else if i < 0x20000 then setProbe (i - 0x10000) { probe s (i - 0x10000) with invalid := true } s
  else
    let e := i - 0x20000
    setHistEng e { histEng s e with invalid := mput false (histEng s e).invalid aux true } s

/-- A two-bit error in management processor SRAM: firmware restarts from the image in use; one in the top 1 MiB of the
8 MiB costs the bins (R152). -/
def mgmtHit (addr : Nat) (s : State) : State :=
  let t := if 7 * 2 ^ 20 ≤ addr then { s with fw := { s.fw with binsLost := true } } else s
  if on t 2 then restartFirmware t.fw.image t else t

/-- A two-bit error in a key slot: EMPTY, zeroised, one generation on (R320). -/
def keyHit (n : Nat) (s : State) : State :=
  finishWait (.keyErase n) 0 [] (ev 0x0B15
    (setKeySlot n { st := .empty, key := [], gen := nextGen (keySlot s n).gen, usage := 0 } s))

/-- The index and the kind of an error name something of its region. -/
def eccNames (e : EccError) : Bool :=
  match e.region with
  | .buffer => e.index < 4 * 163840
  | .flow => e.index < 1048576
  | .queueState => (e.aux < 4 && (if e.aux = 3 then e.index < 96 else resetIndexOk e.aux e.index)) || resetIndexOk 4 e.index && e.aux == 4
  | .rules => e.index < 8192 || (0x10000 ≤ e.index && e.index < 0x10100) || (0x20000 ≤ e.index && e.index < 0x21000)
  | .counters => e.aux < evInsts e.index || (0x10000 ≤ e.index && e.index < 0x10040)
      || (0x20000 ≤ e.index && e.index < 0x20040 && e.aux ≤ 32)
  | .mgmt => e.index < 8 * 2 ^ 20
  | .ringState => e.index < 2048 && e.aux < 2
  | .slice => e.index < 16
  | .keyStore => e.index < 4096
  | .crust => true

/-- What a two-bit error does (R27). A block of slot-interchange memory is sent as read. -/
def twoBits (e : EccError) (s : State) : State :=
  match e.region with
  | .buffer => bufferHit (e.index / 163840) e.aux s
  | .flow => flowHit e.index (e.aux != 0) s
  | .queueState => queueStateHit e.aux e.index s
  | .rules => rulesHit e.index s
  | .counters => counterHit e.index e.aux s
  | .mgmt => mgmtHit e.index s
  | .ringState => ringFails (e.aux == 1) e.index 3 s
  | .slice => s
  | .keyStore => keyHit e.index s
  | .crust => { s with frm := { s.frm with crustBad := true } }

/-- One error that the scrubber finds in a region that is ON. -/
def scrubError (s : State) (e : EccError) : State :=
  if !eccNames e || !on s (eccDom e) then s
  else if e.twoBits then setError 2 (twoBits e (count 0x0E31 (regionNo e.region) 1 s))
  else count 0x0E30 (regionNo e.region) 1 s

/-- SCRUBBER_PASS (R27). -/
def execScrubberPass (errors : List EccError) (s : State) : Res := done s (errors.foldl scrubError s)

/-- CREDIT_RETURN (R17): one unit has left the receiver's queue. -/
def execCreditReturn (iface : Iface) (s : State) : Res :=
  if iface.inst < ifaceInsts iface.block iface.i then
    let k := ifaceKey iface.block iface.i iface.inst
    done s { s with spent := mput 0 s.spent k (creditsSpent s k - 1) }
  else done s s

end Sys2Proof.Machine
end

