-- ==== Sys2Proof/Machine/Supply.lean ====
section
/-! DEFINITION. The supply (R442-R450), the resets (R450, R479-R482, R539), and the contacts (R477, R509-R524). -/

namespace Sys2Proof.Machine

/-! ### Supply good and the resets of the module -/

/-- SUPPLY_GOOD (R445, R473): bring-up begins with wave 1, the always-on counter from zero (R24). -/
def execSupplyGood (s : State) : Res :=
  if s.pwr.supplyGood then done s s
  else done s (startWave 1 { s with pwr := { s.pwr with supplyGood := true, aon := 0, boots := s.pwr.boots + 1 } })

/-- An image area keeps its content and its marks; the starter has not yet run. -/
def keepArea (x : Area) : Area := { x with passed := false }

/-- The module in reset (R450): what the flash, OTP and the tin hold stays, with the contacts as they are and what has left
the module; `tin` is the bay as the reset leaves it. -/
def inReset (tin : Tin) (s : State) : State :=
  { State.reset with
    pwr := { pwrReset with vio := s.pwr.vio, perst := s.pwr.perst, txDisable := s.pwr.txDisable, boots := s.pwr.boots }
    fw := { fwReset with
      area0 := keepArea s.fw.area0, area1 := keepArea s.fw.area1, store := s.fw.store, want := s.fw.store
      serial := s.fw.serial, kId := s.fw.kId, starterVersion := s.fw.starterVersion }
    tin := { tinReset with dev := tin.dev, bayOpen := tin.bayOpen }
    out := if s.up.onAir.isSome then .burstCut false :: s.out else s.out
    free := s.free, pending := s.pending }

/-- A reset with the loss of the tin's supply (R351, R450). -/
def supplyReset (s : State) : State := inReset (tinPowerLost s).tin s

/-- RESET_THRESHOLD (R450). -/
def execResetThreshold (s : State) : Res := .next (supplyReset s)

/-- MODULE_RESET (R481): HOST_RST_N has been asserted for 2 s; the tin stays powered and meets the link going down. -/
def execModuleReset (s : State) : Res :=
  if s.pwr.supplyGood && s.pwr.vio then .next (inReset (tinLinkDown s).tin s) else .next s

/-- THERMAL_RESET (R539), counted in the PD00 that comes out of it. -/
def execThermalReset (s : State) : Res :=
  if s.pwr.supplyGood then .next (ev 0x0DE1 (supplyReset s)) else .next s

/-! ### Warning and recovery (R444, R447-R449) -/

/-- PF_WARN (R447). -/
def execPfWarn (s : State) : Res :=
  if s.pwr.supplyGood && !s.pwr.warn then
    let s1 := { s with
      pwr := { s.pwr with warn := true, recovering := false, warnings := s.pwr.warnings + 1 }
      pf := { s.pf with warnFrame := s.frm.frame, restored := 0 } }
    done s (setPwrEvent 0 (ev 0x0D01 (markCauses (fun _ => true) (fun c => { c with localPower := true }) s1)))
  else done s s

/-- RECOVERY_WINDOW_START (R444, R452). -/
def execRecoveryWindowStart (s : State) : Res :=
  if s.pwr.warn then done s { s with pwr := { s.pwr with recovering := true } } else done s s

/-- PF_RECOVERY_RESTART (R444). -/
def execPfRecoveryRestart (s : State) : Res :=
  if s.pwr.warn && s.pwr.recovering then done s (ev 0x0D03 { s with pwr := { s.pwr with recovering := false } }) else done s s

/-- The commands that need the flash, by opcode (R449). -/
def flashCmd (opcode : Nat) : Option IfCmd :=
  [cmdPortMode, cmdLineStop, cmdLineStart, cmdImageOpen, cmdImageWrite, cmdImageSelect].find? fun c => c.opcode == opcode

/-- A command that waited for the flash proceeds. -/
def flashProceeds (s : State) (p : Pend) : State :=
  match p.wait, flashCmd p.opcode with
  | .flash ws, some cmd => proceed cmd p ws s
  | _, _ => s

/-- PF_RECOVER (R448, R449). -/
def execPfRecover (s : State) : Res :=
  if s.pwr.warn && s.pwr.recovering then
    let s1 := { s with
      pwr := { s.pwr with warn := false, recovering := false, recoveries := s.pwr.recoveries + 1 }
      pf := { s.pf with restored := 3, recFrame := s.frm.frame } }
    let s2 := setPwrEvent 1 (ev 0x0D02 s1)
    let s3 := if fwWorks s2 then flushStore s2 else s2
    done s (s3.mbx.pend.foldl flashProceeds s3)
  else done s s

/-! ### Resets of the host's side (R479, R480) -/

/-- What the assertion of PERST_N does (R479). -/
def perstEffects (s : State) : State :=
  let t := resetRings (resetFunction (lockLost 1 (linkDown s)))
  { t with pcie := { t.pcie with vecs := [], testVector := 0 } }

/-- PERST_N_ASSERT (R479); without VIO it counts as asserted already (R511). -/
def execPerstNAssert (s : State) : Res :=
  let t := { s with pwr := { s.pwr with perst := true } }
  if s.pwr.supplyGood && s.pwr.vio then done s (perstEffects t) else done s t

/-- PERST_N_DEASSERT (R478): the link may train. -/
def execPerstNDeassert (s : State) : Res := done s { s with pwr := { s.pwr with perst := false } }

/-- The host's registers and channels at their reset values (R480). -/
def hostRegsReset (s : State) : State :=
  { s with
    glb := glbReset
    mbx := { s.mbx with
      chans := s.mbx.chans.filter fun e => 18 < e.1
      events := 0, crossed := 0, discards := [], out := [], overflow := [], stalled := [], pend := [], evSeq := 0, maskedEv := [] }
    tmu := { s.tmu with events := 0 }
    pwr := { s.pwr with events := 0 }
    prt := { s.prt with ports := s.prt.ports.foldl (fun m e => mput cportReset m e.1 { e.2 with events := 0 }) [] }
    cph := { s.cph with events := 0, vector := 0, timeout := 100 }
    tin := { s.tin with out := s.tin.out.filter fun e => e.1 != 16 } }

/-- HOST_RESET (R480). -/
def execHostReset (s : State) : Res :=
  if s.pwr.supplyGood && s.pwr.vio then done s (tinTrySend 17 (hostRegsReset (perstEffects s))) else done s s

/-! ### VIO, JTAG, the UART (R510-R512, R520, R521) -/

/-- VIO_PRESENT (R510, R512). -/
def execVioPresent (s : State) : Res :=
  if s.pwr.vio then done s s
  else
    let s1 := { s with pwr := { s.pwr with vio := true } }
    if s.pwr.supplyGood then
      let s2 := ev 0x0DE1 s1
      done s (if on s2 18 && !s2.line.eqReady then startEqRead s2 else s2)
    else done s s1

/-- An equaliser read under way is abandoned (R512). -/
def abandonEqRead (s : State) : State :=
  if s.line.eqReady then s else { s with line := { s.line with eqTries := 0, eqReading := false, eqRaw := none } }

/-- VIO_ABSENT (R510, R511, R524). -/
def execVioAbsent (s : State) : Res :=
  if !s.pwr.vio then done s s
  else
    let s1 := txRelease s
    let s2 := { s1 with pwr := { s1.pwr with vio := false } }
    if s.pwr.supplyGood then
      done s (abandonEqRead (allPortsDown (lockLost 2 (perstEffects (ev 0x0DE1 s2)))))
    else done s s2

/-- TRST_N_ASSERT (R327, R520): the TAP is reset; a later access by JTAG tells that TRST_N is released. -/
def execTrstNAssert (s : State) : Res := done s (lockLost 2 s)

/-- UART_RX_CHARACTER (R521): the character is discarded. -/
def execUartRxCharacter (_c : Byte) (s : State) : Res := done s s

/-! ### What the contacts show (R463, R477, R516-R519, R544): a level, or high impedance -/

/-- A push-pull output: at high impedance without VIO. -/
def driven (s : State) (level : Bool) : Option Bool := if s.pwr.vio then some level else none

def modPwrOk (s : State) : Option Bool := driven s s.pwr.supplyGood

/-- MOD_READY (R477). -/
def modReady (s : State) : Option Bool := driven s (s.fw.running && on s 2 && mailboxReady s)

/-- PF_WARN_N (R447, R544). -/
def pfWarnN (s : State) : Option Bool := driven s (s.pwr.supplyGood && !s.pwr.warn)

/-- LINE_LOS (R36, R463). -/
def lineLos (s : State) : Option Bool := driven s (s.line.los || !on s 9)

/-- MOD_INT_N (R517): low, or released. -/
def modIntN (s : State) : Option Bool :=
  if s.pwr.vio && ((on s 6 && irqCause0 s != 0) || s.pwr.events != 0) then some false else none

/-- GPIO0-GPIO7 (R519). -/
def gpio (s : State) (n : Nat) : Option Bool :=
  if s.pwr.vio && on s 49 then some ((glbReady s).getLsbD (nth [17, 16, 13, 24, 19, 20, 21, 22] n 0)) else none

end Sys2Proof.Machine
end

