-- ==== Sys2Proof/Machine/Dispatch.lean ====
section
/-! DEFINITION. The dispatcher: one arm per command, each a direct call of its meaning. -/

namespace Sys2Proof.Machine

def exec (i : Instr) (s : State) : Host.Outcome State Fault Refusal :=
  match i with
  | .scrubberPass errors => Sys2Proof.Machine.execScrubberPass errors s
  | .creditReturn iface => Sys2Proof.Machine.execCreditReturn iface s
  | .rootLock => Sys2Proof.Machine.execRootLock s
  | .losDeclare => Sys2Proof.Machine.execLosDeclare s
  | .losClear => Sys2Proof.Machine.execLosClear s
  | .lineCalibrationDone foms => Sys2Proof.Machine.execLineCalibrationDone foms s
  | .adaptWindow fom taps => Sys2Proof.Machine.execAdaptWindow fom taps s
  | .lineRxSet => Sys2Proof.Machine.execLineRxSet s
  | .rxFomLoss cdrLost => Sys2Proof.Machine.execRxFomLoss cdrLost s
  | .laserCalibrationDone => Sys2Proof.Machine.execLaserCalibrationDone s
  | .laserEnable => Sys2Proof.Machine.execLaserEnable s
  | .burstSent => Sys2Proof.Machine.execBurstSent s
  | .rogueCut => Sys2Proof.Machine.execRogueCut s
  | .txDisableAssert => Sys2Proof.Machine.execTxDisableAssert s
  | .txDisableRelease => Sys2Proof.Machine.execTxDisableRelease s
  | .prbsCheckerLock checker inverted => Sys2Proof.Machine.execPrbsCheckerLock checker inverted s
  | .prbsLockLoss checker bitErrors symbolErrors => Sys2Proof.Machine.execPrbsLockLoss checker bitErrors symbolErrors s
  | .blockLock => Sys2Proof.Machine.execBlockLock s
  | .blockLockLoss => Sys2Proof.Machine.execBlockLockLoss s
  | .eqTableRead reply => Sys2Proof.Machine.execEqTableRead reply s
  | .eqReadRetry => Sys2Proof.Machine.execEqReadRetry s
  | .eqReadDone => Sys2Proof.Machine.execEqReadDone s
  | .codewordDecoded unit outcome bip => Sys2Proof.Machine.execCodewordDecoded unit outcome bip s
  | .syncPatternMatch pos => Sys2Proof.Machine.execSyncPatternMatch pos s
  | .syncPredictedCheck pos found crust => Sys2Proof.Machine.execSyncPredictedCheck pos found crust s
  | .syncAcquired pos crust => Sys2Proof.Machine.execSyncAcquired pos crust s
  | .crustTaken crust stamp => Sys2Proof.Machine.execCrustTaken crust stamp s
  | .channelTagItem item => Sys2Proof.Machine.execChannelTagItem item s
  | .reassemblyTimeout tag => Sys2Proof.Machine.execReassemblyTimeout tag s
  | .burstBuild => Sys2Proof.Machine.execBurstBuild s
  | .burstProfile m => Sys2Proof.Machine.execBurstProfile m s
  | .discoveryParams m => Sys2Proof.Machine.execDiscoveryParams m s
  | .assignId m => Sys2Proof.Machine.execAssignId m s
  | .rangingTime m => Sys2Proof.Machine.execRangingTime m s
  | .authChallenge m => Sys2Proof.Machine.execAuthChallenge m s
  | .authConfirm m => Sys2Proof.Machine.execAuthConfirm m s
  | .epochKey m => Sys2Proof.Machine.execEpochKey m s
  | .deregister m => Sys2Proof.Machine.execDeregister m s
  | .emergencyStop m => Sys2Proof.Machine.execEmergencyStop m s
  | .emergencyRelease m => Sys2Proof.Machine.execEmergencyRelease m s
  | .pf2Discovery => Sys2Proof.Machine.execPf2Discovery s
  | .tRangeExpiry => Sys2Proof.Machine.execTRangeExpiry s
  | .tAuthExpiry => Sys2Proof.Machine.execTAuthExpiry s
  | .tRejectExpiry => Sys2Proof.Machine.execTRejectExpiry s
  | .tLossExpiry => Sys2Proof.Machine.execTLossExpiry s
  | .tHoldoffExpiry => Sys2Proof.Machine.execTHoldoffExpiry s
  | .lineStopTimeout => Sys2Proof.Machine.execLineStopTimeout s
  | .rogueAutoRelease => Sys2Proof.Machine.execRogueAutoRelease s
  | .keAnnounce frame epoch => Sys2Proof.Machine.execKeAnnounce frame epoch s
  | .keCommit inFrame frame => Sys2Proof.Machine.execKeCommit inFrame frame s
  | .keCancel => Sys2Proof.Machine.execKeCancel s
  | .keArmed => Sys2Proof.Machine.execKeArmed s
  | .keEvaluation frame => Sys2Proof.Machine.execKeEvaluation frame s
  | .epochActivation frame => Sys2Proof.Machine.execEpochActivation frame s
  | .keRetire frame => Sys2Proof.Machine.execKeRetire frame s
  | .pageRuns item => Sys2Proof.Machine.execPageRuns item s
  | .pageSeal item => Sys2Proof.Machine.execPageSeal item s
  | .circuitRefuse item => Sys2Proof.Machine.execCircuitRefuse item s
  | .psAnnounce frame page => Sys2Proof.Machine.execPsAnnounce frame page s
  | .psCommit inFrame frame => Sys2Proof.Machine.execPsCommit inFrame frame s
  | .psCancel => Sys2Proof.Machine.execPsCancel s
  | .psArmed => Sys2Proof.Machine.execPsArmed s
  | .psEvaluation frame => Sys2Proof.Machine.execPsEvaluation frame s
  | .pageActivation frame => Sys2Proof.Machine.execPageActivation frame s
  | .circuitTakePoint frame => Sys2Proof.Machine.execCircuitTakePoint frame s
  | .circuitReleasePoint frame => Sys2Proof.Machine.execCircuitReleasePoint frame s
  | .circuitFrameExtracted circuit frame content => Sys2Proof.Machine.execCircuitFrameExtracted circuit frame content s
  | .gfpFrameReceived circuit => Sys2Proof.Machine.execGfpFrameReceived circuit s
  | .dsWindowEnd entity => Sys2Proof.Machine.execDsWindowEnd entity s
  | .secondBoundary => Sys2Proof.Machine.execSecondBoundary s
  | .binClose day => Sys2Proof.Machine.execBinClose day s
  | .binFinal => Sys2Proof.Machine.execBinFinal s
  | .parseDispatch side engine => Sys2Proof.Machine.execParseDispatch side engine s
  | .pAdd engine => Sys2Proof.Machine.execPAdd engine s
  | .pSub engine => Sys2Proof.Machine.execPSub engine s
  | .pAnd engine => Sys2Proof.Machine.execPAnd engine s
  | .pOr engine => Sys2Proof.Machine.execPOr engine s
  | .pXor engine => Sys2Proof.Machine.execPXor engine s
  | .pShl engine => Sys2Proof.Machine.execPShl engine s
  | .pShr engine => Sys2Proof.Machine.execPShr engine s
  | .pMov engine => Sys2Proof.Machine.execPMov engine s
  | .pAddi engine => Sys2Proof.Machine.execPAddi engine s
  | .pAndi engine => Sys2Proof.Machine.execPAndi engine s
  | .pOri engine => Sys2Proof.Machine.execPOri engine s
  | .pShli engine => Sys2Proof.Machine.execPShli engine s
  | .pShri engine => Sys2Proof.Machine.execPShri engine s
  | .pLdi engine => Sys2Proof.Machine.execPLdi engine s
  | .pLdih engine => Sys2Proof.Machine.execPLdih engine s
  | .pExt engine => Sys2Proof.Machine.execPExt engine s
  | .pCmp engine => Sys2Proof.Machine.execPCmp engine s
  | .pCmpi engine => Sys2Proof.Machine.execPCmpi engine s
  | .pB engine => Sys2Proof.Machine.execPB engine s
  | .pLd engine => Sys2Proof.Machine.execPLd engine s
  | .pLdx engine => Sys2Proof.Machine.execPLdx engine s
  | .pAdv engine => Sys2Proof.Machine.execPAdv engine s
  | .pAdvr engine => Sys2Proof.Machine.execPAdvr engine s
  | .pHdr engine => Sys2Proof.Machine.execPHdr engine s
  | .pLenck engine => Sys2Proof.Machine.execPLenck engine s
  | .pRng engine => Sys2Proof.Machine.execPRng engine s
  | .pFfs engine => Sys2Proof.Machine.execPFfs engine s
  | .pMatch engine => Sys2Proof.Machine.execPMatch engine s
  | .matchResultsReady engine => Sys2Proof.Machine.execMatchResultsReady engine s
  | .pKeyw engine => Sys2Proof.Machine.execPKeyw engine s
  | .pMeta engine => Sys2Proof.Machine.execPMeta engine s
  | .pDone engine => Sys2Proof.Machine.execPDone engine s
  | .pExc engine => Sys2Proof.Machine.execPExc engine s
  | .pDrop engine => Sys2Proof.Machine.execPDrop engine s
  | .parseTruncSteps engine => Sys2Proof.Machine.execParseTruncSteps engine s
  | .flowLookup side => Sys2Proof.Machine.execFlowLookup side s
  | .autoRehashStart => Sys2Proof.Machine.execAutoRehashStart s
  | .rehashMigratePair => Sys2Proof.Machine.execRehashMigratePair s
  | .rehashRetry => Sys2Proof.Machine.execRehashRetry s
  | .flowTableInit => Sys2Proof.Machine.execFlowTableInit s
  | .batchTimedCommit => Sys2Proof.Machine.execBatchTimedCommit s
  | .bufferEnqueue side => Sys2Proof.Machine.execBufferEnqueue side s
  | .schedulerSelection port => Sys2Proof.Machine.execSchedulerSelection port s
  | .calendarRelease slot => Sys2Proof.Machine.execCalendarRelease slot s
  | .coarseSlotStart slot => Sys2Proof.Machine.execCoarseSlotStart slot s
  | .coarseRevolution => Sys2Proof.Machine.execCoarseRevolution s
  | .admissionDecision side => Sys2Proof.Machine.execAdmissionDecision side s
  | .timedLateDrop queue => Sys2Proof.Machine.execTimedLateDrop queue s
  | .clientFrameTransmitted port stamp => Sys2Proof.Machine.execClientFrameTransmitted port stamp s
  | .contractAccount frame => Sys2Proof.Machine.execContractAccount frame s
  | .contractOffer item => Sys2Proof.Machine.execContractOffer item s
  | .contractEnd item => Sys2Proof.Machine.execContractEnd item s
  | .contractInForce gs frame => Sys2Proof.Machine.execContractInForce gs frame s
  | .combinedCurveEnd port => Sys2Proof.Machine.execCombinedCurveEnd port s
  | .gateIntervalEnd port => Sys2Proof.Machine.execGateIntervalEnd port s
  | .gateListChanged port => Sys2Proof.Machine.execGateListChanged port s
  | .linkUp port => Sys2Proof.Machine.execLinkUp port s
  | .linkDown port cause => Sys2Proof.Machine.execLinkDown port cause s
  | .clientFrameReceived port frame fecOk stamp => Sys2Proof.Machine.execClientFrameReceived port frame fecOk stamp s
  | .pauseFrameReceived port quanta => Sys2Proof.Machine.execPauseFrameReceived port quanta s
  | .pfcFrameReceived port enables quanta => Sys2Proof.Machine.execPfcFrameReceived port enables quanta s
  | .pauseTimerExpiry port prio => Sys2Proof.Machine.execPauseTimerExpiry port prio s
  | .pauseWatchdog port prio => Sys2Proof.Machine.execPauseWatchdog port prio s
  | .watchdogEnd port prio => Sys2Proof.Machine.execWatchdogEnd port prio s
  | .pauseRefresh port prio => Sys2Proof.Machine.execPauseRefresh port prio s
  | .txUnderrun port => Sys2Proof.Machine.execTxUnderrun port s
  | .timeSecondMean => Sys2Proof.Machine.execTimeSecondMean s
  | .timeParams item => Sys2Proof.Machine.execTimeParams item s
  | .tcxoErrorUpdate ppt => Sys2Proof.Machine.execTcxoErrorUpdate ppt s
  | .aonNsUpdate aonNs => Sys2Proof.Machine.execAonNsUpdate aonNs s
  | .timeBridged => Sys2Proof.Machine.execTimeBridged s
  | .tmuNowRead req wide => Sys2Proof.Machine.execTmuNowRead req wide s
  | .tsqHeadRead req queue wide => Sys2Proof.Machine.execTsqHeadRead req queue wide s
  | .toutEdge output => Sys2Proof.Machine.execToutEdge output s
  | .ppsInEdge stamp => Sys2Proof.Machine.execPpsInEdge stamp s
  | .ppsInLost => Sys2Proof.Machine.execPpsInLost s
  | .cphLockRead req wide => Sys2Proof.Machine.execCphLockRead req wide s
  | .cphLockRelease req => Sys2Proof.Machine.execCphLockRelease req s
  | .lockTimeout => Sys2Proof.Machine.execLockTimeout s
  | .cphSubmit req => Sys2Proof.Machine.execCphSubmit req s
  | .laJobDispatch core => Sys2Proof.Machine.execLaJobDispatch core s
  | .laJobDone core mem => Sys2Proof.Machine.execLaJobDone core mem s
  | .inlineUnitDispatch dir core => Sys2Proof.Machine.execInlineUnitDispatch dir core s
  | .inlineUnitDone core => Sys2Proof.Machine.execInlineUnitDone core s
  | .keyEraseDone slot => Sys2Proof.Machine.execKeyEraseDone slot s
  | .keyStoreInit => Sys2Proof.Machine.execKeyStoreInit s
  | .meteringPush acked => Sys2Proof.Machine.execMeteringPush acked s
  | .meteringLinkUp => Sys2Proof.Machine.execMeteringLinkUp s
  | .tinTimeDiscipline => Sys2Proof.Machine.execTinTimeDiscipline s
  | .tinSecond => Sys2Proof.Machine.execTinSecond s
  | .tinBinClose => Sys2Proof.Machine.execTinBinClose s
  | .tinRecordWrite => Sys2Proof.Machine.execTinRecordWrite s
  | .tinSnapshot => Sys2Proof.Machine.execTinSnapshot s
  | .tinWarnSnapshot => Sys2Proof.Machine.execTinWarnSnapshot s
  | .tinStatus viaFw => Sys2Proof.Machine.execTinStatus viaFw s
  | .tinReadRecords viaFw => Sys2Proof.Machine.execTinReadRecords viaFw s
  | .tinReadLog viaFw => Sys2Proof.Machine.execTinReadLog viaFw s
  | .tinReadMap viaFw => Sys2Proof.Machine.execTinReadMap viaFw s
  | .tinProvision viaFw => Sys2Proof.Machine.execTinProvision viaFw s
  | .tinSetObjects viaFw => Sys2Proof.Machine.execTinSetObjects viaFw s
  | .tinMarkCollected viaFw => Sys2Proof.Machine.execTinMarkCollected viaFw s
  | .tinRekey viaFw => Sys2Proof.Machine.execTinRekey viaFw s
  | .tinCloseForRemoval viaFw => Sys2Proof.Machine.execTinCloseForRemoval viaFw s
  | .mapApplied => Sys2Proof.Machine.execMapApplied s
  | .bayOpened => Sys2Proof.Machine.execBayOpened s
  | .bayClosed => Sys2Proof.Machine.execBayClosed s
  | .tinTampered => Sys2Proof.Machine.execTinTampered s
  | .tinRemoved => Sys2Proof.Machine.execTinRemoved s
  | .tinInserted device => Sys2Proof.Machine.execTinInserted device s
  | .powerReturn => Sys2Proof.Machine.execPowerReturn s
  | .configRequest op => Sys2Proof.Machine.execConfigRequest op s
  | .functionReady => Sys2Proof.Machine.execFunctionReady s
  | .pcieLinkDown => Sys2Proof.Machine.execPcieLinkDown s
  | .pcieLinkUp => Sys2Proof.Machine.execPcieLinkUp s
  | .msixGapEnd vector => Sys2Proof.Machine.execMsixGapEnd vector s
  | .msixUnmask target => Sys2Proof.Machine.execMsixUnmask target s
  | .irqTest req value => Sys2Proof.Machine.execIrqTest req value s
  | .registerWrite req bar offset value => Sys2Proof.Machine.execRegisterWrite req bar offset value s
  | .unsupportedAccess acc => Sys2Proof.Machine.execUnsupportedAccess acc s
  | .offDomainAccess acc => Sys2Proof.Machine.execOffDomainAccess acc s
  | .accessWake acc => Sys2Proof.Machine.execAccessWake acc s
  | .wakeTimeout domain => Sys2Proof.Machine.execWakeTimeout domain s
  | .ringEnable req rx ring value => Sys2Proof.Machine.execRingEnable req rx ring value s
  | .ringDisable req rx ring value => Sys2Proof.Machine.execRingDisable req rx ring value s
  | .ringDrained rx ring => Sys2Proof.Machine.execRingDrained rx ring s
  | .txDescTail ring value => Sys2Proof.Machine.execTxDescTail ring value s
  | .txCplHead ring value => Sys2Proof.Machine.execTxCplHead ring value s
  | .rxDescTail ring value descs => Sys2Proof.Machine.execRxDescTail ring value descs s
  | .rxCplHead ring value => Sys2Proof.Machine.execRxCplHead ring value s
  | .hostTxFetch ring descs => Sys2Proof.Machine.execHostTxFetch ring descs s
  | .rxDelivered ring => Sys2Proof.Machine.execRxDelivered ring s
  | .rxHoldDrop port source => Sys2Proof.Machine.execRxHoldDrop port source s
  | .mbxDoorbell req ch => Sys2Proof.Machine.execMbxDoorbell req ch s
  | .mbxAck req ch value => Sys2Proof.Machine.execMbxAck req ch value s
  | .mbxZero req ch => Sys2Proof.Machine.execMbxZero req ch s
  | .mbxCrossedWait => Sys2Proof.Machine.execMbxCrossedWait s
  | .mbxOverflow n => Sys2Proof.Machine.execMbxOverflow n s
  | .identity ch => Sys2Proof.Machine.execIdentity ch s
  | .echo ch => Sys2Proof.Machine.execEcho ch s
  | .eventMask ch => Sys2Proof.Machine.execEventMask ch s
  | .storeRead ch => Sys2Proof.Machine.execStoreRead ch s
  | .domainSet ch => Sys2Proof.Machine.execDomainSet ch s
  | .domainRead ch => Sys2Proof.Machine.execDomainRead ch s
  | .wakeOnAccess ch => Sys2Proof.Machine.execWakeOnAccess ch s
  | .lineStatus ch => Sys2Proof.Machine.execLineStatus ch s
  | .lineStop ch => Sys2Proof.Machine.execLineStop ch s
  | .lineStart ch => Sys2Proof.Machine.execLineStart ch s
  | .rogueRelease ch => Sys2Proof.Machine.execRogueRelease ch s
  | .lineLoopback ch => Sys2Proof.Machine.execLineLoopback ch s
  | .linePrbs ch => Sys2Proof.Machine.execLinePrbs ch s
  | .lineInject ch => Sys2Proof.Machine.execLineInject ch s
  | .linePrbsRead ch => Sys2Proof.Machine.execLinePrbsRead ch s
  | .bitSlip ch => Sys2Proof.Machine.execBitSlip ch s
  | .autoSlip ch => Sys2Proof.Machine.execAutoSlip ch s
  | .circuitRequest ch => Sys2Proof.Machine.execCircuitRequest ch s
  | .circuitRelease ch => Sys2Proof.Machine.execCircuitRelease ch s
  | .circuitBind ch => Sys2Proof.Machine.execCircuitBind ch s
  | .circuitEnable ch => Sys2Proof.Machine.execCircuitEnable ch s
  | .circuitTrace ch => Sys2Proof.Machine.execCircuitTrace ch s
  | .dsThreshold ch => Sys2Proof.Machine.execDsThreshold ch s
  | .circuitStatus ch => Sys2Proof.Machine.execCircuitStatus ch s
  | .pageRead ch => Sys2Proof.Machine.execPageRead ch s
  | .binRead ch => Sys2Proof.Machine.execBinRead ch s
  | .batchOpen ch => Sys2Proof.Machine.execBatchOpen ch s
  | .batchProgram ch => Sys2Proof.Machine.execBatchProgram ch s
  | .batchEntry ch => Sys2Proof.Machine.execBatchEntry ch s
  | .batchRange ch => Sys2Proof.Machine.execBatchRange ch s
  | .batchPattern ch => Sys2Proof.Machine.execBatchPattern ch s
  | .batchActions ch => Sys2Proof.Machine.execBatchActions ch s
  | .batchDrop ch => Sys2Proof.Machine.execBatchDrop ch s
  | .batchCommit ch => Sys2Proof.Machine.execBatchCommit ch s
  | .batchAbandon ch => Sys2Proof.Machine.execBatchAbandon ch s
  | .versionRead ch => Sys2Proof.Machine.execVersionRead ch s
  | .flowInsert ch => Sys2Proof.Machine.execFlowInsert ch s
  | .flowModify ch => Sys2Proof.Machine.execFlowModify ch s
  | .flowDelete ch => Sys2Proof.Machine.execFlowDelete ch s
  | .flowRead ch => Sys2Proof.Machine.execFlowRead ch s
  | .tagSet ch => Sys2Proof.Machine.execTagSet ch s
  | .tagRemove ch => Sys2Proof.Machine.execTagRemove ch s
  | .rehash ch => Sys2Proof.Machine.execRehash ch s
  | .autoRehash ch => Sys2Proof.Machine.execAutoRehash ch s
  | .flowTableRead ch => Sys2Proof.Machine.execFlowTableRead ch s
  | .queueSet ch => Sys2Proof.Machine.execQueueSet ch s
  | .subscriberSet ch => Sys2Proof.Machine.execSubscriberSet ch s
  | .serviceSet ch => Sys2Proof.Machine.execServiceSet ch s
  | .portShaperSet ch => Sys2Proof.Machine.execPortShaperSet ch s
  | .policerSet ch => Sys2Proof.Machine.execPolicerSet ch s
  | .resetCmd ch => Sys2Proof.Machine.execResetCmd ch s
  | .queueRead ch => Sys2Proof.Machine.execQueueRead ch s
  | .timedReserve ch => Sys2Proof.Machine.execTimedReserve ch s
  | .admissionSet ch => Sys2Proof.Machine.execAdmissionSet ch s
  | .admissionRead ch => Sys2Proof.Machine.execAdmissionRead ch s
  | .contractRequest ch => Sys2Proof.Machine.execContractRequest ch s
  | .contractRelease ch => Sys2Proof.Machine.execContractRelease ch s
  | .contractRead ch => Sys2Proof.Machine.execContractRead ch s
  | .gateWrite ch => Sys2Proof.Machine.execGateWrite ch s
  | .gateCommit ch => Sys2Proof.Machine.execGateCommit ch s
  | .hostShare ch => Sys2Proof.Machine.execHostShare ch s
  | .portMode ch => Sys2Proof.Machine.execPortMode ch s
  | .portSet ch => Sys2Proof.Machine.execPortSet ch s
  | .pfcPriority ch => Sys2Proof.Machine.execPfcPriority ch s
  | .filterSet ch => Sys2Proof.Machine.execFilterSet ch s
  | .eqReload ch => Sys2Proof.Machine.execEqReload ch s
  | .portInfo ch => Sys2Proof.Machine.execPortInfo ch s
  | .laneLoopback ch => Sys2Proof.Machine.execLaneLoopback ch s
  | .lanePrbs ch => Sys2Proof.Machine.execLanePrbs ch s
  | .lanePrbsRead ch => Sys2Proof.Machine.execLanePrbsRead ch s
  | .timeMode ch => Sys2Proof.Machine.execTimeMode ch s
  | .timeStep ch => Sys2Proof.Machine.execTimeStep ch s
  | .timeAdj ch => Sys2Proof.Machine.execTimeAdj ch s
  | .timeLockCommand ch => Sys2Proof.Machine.execTimeLockCommand ch s
  | .stepThreshold ch => Sys2Proof.Machine.execStepThreshold ch s
  | .asymmetry ch => Sys2Proof.Machine.execAsymmetry ch s
  | .timeRelease ch => Sys2Proof.Machine.execTimeRelease ch s
  | .timeClaim ch => Sys2Proof.Machine.execTimeClaim ch s
  | .toutSet ch => Sys2Proof.Machine.execToutSet ch s
  | .ppsinSet ch => Sys2Proof.Machine.execPpsinSet ch s
  | .burstStamps ch => Sys2Proof.Machine.execBurstStamps ch s
  | .timeInfo ch => Sys2Proof.Machine.execTimeInfo ch s
  | .keyLoad ch => Sys2Proof.Machine.execKeyLoad ch s
  | .keyErase ch => Sys2Proof.Machine.execKeyErase ch s
  | .keyRead ch => Sys2Proof.Machine.execKeyRead ch s
  | .lineSlots ch => Sys2Proof.Machine.execLineSlots ch s
  | .probeSet ch => Sys2Proof.Machine.execProbeSet ch s
  | .counterRead ch => Sys2Proof.Machine.execCounterRead ch s
  | .counterValidate ch => Sys2Proof.Machine.execCounterValidate ch s
  | .histSet ch => Sys2Proof.Machine.execHistSet ch s
  | .histClear ch => Sys2Proof.Machine.execHistClear ch s
  | .peelPeriod ch => Sys2Proof.Machine.execPeelPeriod ch s
  | .tinRelay ch => Sys2Proof.Machine.execTinRelay ch s
  | .imageOpen ch => Sys2Proof.Machine.execImageOpen ch s
  | .imageWrite ch => Sys2Proof.Machine.execImageWrite ch s
  | .imageClose ch => Sys2Proof.Machine.execImageClose ch s
  | .imageSelect ch => Sys2Proof.Machine.execImageSelect ch s
  | .firmwareRestart ch => Sys2Proof.Machine.execFirmwareRestart ch s
  | .pfWarn => Sys2Proof.Machine.execPfWarn s
  | .pfRecover => Sys2Proof.Machine.execPfRecover s
  | .pfRecoveryRestart => Sys2Proof.Machine.execPfRecoveryRestart s
  | .supplyGood => Sys2Proof.Machine.execSupplyGood s
  | .resetThreshold => Sys2Proof.Machine.execResetThreshold s
  | .bringUpWave => Sys2Proof.Machine.execBringUpWave s
  | .domainOn domain => Sys2Proof.Machine.execDomainOn domain s
  | .domainRetain domain => Sys2Proof.Machine.execDomainRetain domain s
  | .domainOff domain => Sys2Proof.Machine.execDomainOff domain s
  | .domainFail domain => Sys2Proof.Machine.execDomainFail domain s
  | .starterRun => Sys2Proof.Machine.execStarterRun s
  | .imageAreaChecked area signatureOk => Sys2Proof.Machine.execImageAreaChecked area signatureOk s
  | .firmwareStart => Sys2Proof.Machine.execFirmwareStart s
  | .perstNAssert => Sys2Proof.Machine.execPerstNAssert s
  | .perstNDeassert => Sys2Proof.Machine.execPerstNDeassert s
  | .hostReset => Sys2Proof.Machine.execHostReset s
  | .moduleReset => Sys2Proof.Machine.execModuleReset s
  | .thermalReset => Sys2Proof.Machine.execThermalReset s
  | .peelStrobe => Sys2Proof.Machine.execPeelStrobe s
  | .peelDumpWritten => Sys2Proof.Machine.execPeelDumpWritten s
  | .peelConsWrite req value => Sys2Proof.Machine.execPeelConsWrite req value s
  | .peelEnable req value => Sys2Proof.Machine.execPeelEnable req value s
  | .vioPresent => Sys2Proof.Machine.execVioPresent s
  | .vioAbsent => Sys2Proof.Machine.execVioAbsent s
  | .trstNAssert => Sys2Proof.Machine.execTrstNAssert s
  | .uartRxCharacter c => Sys2Proof.Machine.execUartRxCharacter c s
  | .timeTick => Sys2Proof.Machine.execTimeTick s
  | .alwaysOnCounterTick => Sys2Proof.Machine.execAlwaysOnCounterTick s
  | .recoveredFrequencyOutOfRange => Sys2Proof.Machine.execRecoveredFrequencyOutOfRange s
  | .badInstruction engine => Sys2Proof.Machine.execBadInstruction engine s
  | .hardwareInitialisationDone block => Sys2Proof.Machine.execHardwareInitialisationDone block s
  | .imageAreaErased => Sys2Proof.Machine.execImageAreaErased s
  | .imageVerificationDone signatureOk => Sys2Proof.Machine.execImageVerificationDone signatureOk s
  | .epochKeyDerived => Sys2Proof.Machine.execEpochKeyDerived s
  | .recoveryWindowStart => Sys2Proof.Machine.execRecoveryWindowStart s

end Sys2Proof.Machine
end

