-- ==== Sys2Proof/Safety.lean ====
section
/-! DEFINITION. What a safe run keeps: the tables stay canonical, the domains stay within R455, OTP stays as manufactured. -/

namespace Sys2Proof.Machine

/-- What OTP holds (R110, R427): written at manufacture and never again. -/
def otp (s : State) : BitVec 64 × List Byte × BitVec 32 := (s.fw.serial, s.fw.kId, s.fw.starterVersion)

/-- PD00 and PD01 are ON, and no DOMAIN_SET in progress names them (R455, R456). -/
def alwaysOn (s : State) : Prop := on s 0 = true ∧ on s 1 = true ∧ ∀ x ∈ s.pwr.sets, bit x.domains 0 = false ∧ bit x.domains 1 = false

/-- A domain is ON only while every domain it requires is ON (R455). -/
def requirementsOn (s : State) : Prop := ∀ d, on s d = true → allOn s (requires d) = true

/-- The reserved bits of the event registers read as zero (R6): a bit set beyond the fields of R365, R368, R405, R453. -/
def reservedZero (s : State) : Prop :=
  s.glb.changed.toNat < 2 ^ 26 ∧ s.glb.mask.toNat < 2 ^ 26 ∧ s.glb.error.toNat < 2 ^ 4 ∧ s.mbx.events.toNat < 2 ^ 13
    ∧ s.pwr.events.toNat < 2 ^ 2

/-! ### What claims say of a next state -/

/-- Two states agree in everything but what follows every command by itself: event counts and the probes that follow them,
the MSI-X vectors, GLB_READY_CHANGED, what has left the module, and the pause that a port with flow control holds. -/
structure Agree (t u : State) : Prop where
  pwr : t.pwr = u.pwr
  glb : { t.glb with changed := 0 } = { u.glb with changed := 0 }
  pcie : { t.pcie with vecs := [] } = { u.pcie with vecs := [] }
  mbx : t.mbx = u.mbx
  fw : t.fw = u.fw
  line : t.line = u.line
  frm : t.frm = u.frm
  pf : t.pf = u.pf
  ke : t.ke = u.ke
  up : t.up = u.up
  cir : t.cir = u.cir
  perf : t.perf = u.perf
  cnt : { t.cnt with counters := [], probes := [] } = { u.cnt with counters := [], probes := [] }
  tmu : t.tmu = u.tmu
  prs : t.prs = u.prs
  flw : t.flw = u.flw
  sch : t.sch = u.sch
  adm : t.adm = u.adm
  ports : ∀ n, { cport t n with pauses := [] } = { cport u n with pauses := [] }
  still : ∀ n, (cport u n).flow = 0 → cport t n = cport u n
  mode : t.prt.mode = u.prt.mode
  filters : t.prt.filters = u.prt.filters
  cph : t.cph = u.cph
  dma : t.dma = u.dma
  tin : t.tin = u.tin
  spent : t.spent = u.spent
  free : t.free = u.free
  pending : t.pending = u.pending

/-- The command completes, and the next state agrees with `u`. -/
def Becomes (c : Instr) (s u : State) : Prop := ∃ t, exec c s = .next t ∧ Agree t u

/-- The event is counted `n` times, where its domain is ON (R484). -/
def Counts (e inst n : Nat) (s t : State) : Prop :=
  on s (evDom e inst) = true → counter t e inst = counter s e inst + BitVec.ofNat 64 n

/-- The command completes, the next state agrees with `u`, and the event is counted once. -/
def BecomesCounting (c : Instr) (e inst : Nat) (s u : State) : Prop :=
  ∃ t, exec c s = .next t ∧ Agree t u ∧ Counts e inst 1 s t
/-- SEQ of the message on a channel (R402). -/
def seqOf (s : State) (ch : Nat) : Nat := fld (chanWord (chan s ch) 0) 47 32

/-- Word n of the message on a channel. -/
def argOf (s : State) (ch n : Nat) : Word := arg (msgWords (chan s ch)) n

/-- A message of this row is POSTED, firmware takes it, it passes every check of R418, and neither CHECK_ONLY (R419) nor a
warning that holds the flash (R449) keeps it from its effect. -/
def Accepted (cmd : IfCmd) (ch : Nat) (s : State) : Prop :=
  takes s ch cmd.opcode = true ∧
    refusal cmd ch (msgWords (chan s ch)) (fld (chanWord (chan s ch) 0) 31 24) (chanWord (chan s ch) 0) s = none ∧
    bit (chanWord (chan s ch) 0) 17 = false ∧ (cmd.flash && s.pwr.warn) = false

/-- The command completes: the effect leaves `u`, and the answer `a` is given (R420). -/
def Answers (c : Instr) (opcode ch : Nat) (a : Ans) (s u : State) : Prop :=
  Becomes c s (answer ch (seqOf s ch) opcode a u)

/-- A message repeats one of the last 16 line frames (R112). -/
def repeats (s : State) (m : MsgIn) : Bool :=
  let bc := (nth m 1 0).getLsbD 7
  s.pf.recent.any fun r =>
    r.1 == be m 0 1 && r.2.1 == b2n bc && r.2.2.1 == (if bc then 0 else be m 2 1) && r.2.2.2.1 == be m 3 1

/-- A crust message reaches the proofing state machine: the crust is used, firmware runs, and the message is addressed to
the module (R112). -/
def Reaches (s : State) (m : MsgIn) : Prop :=
  m.length = 48 ∧ (crustUsed s && pfRuns s && addressed s m) = true

/-- A message of this type is accepted: it reaches the module, R113 accepts it in this state and addressing, and it is no
repetition. -/
def Heard (type : Nat) (s : State) (m : MsgIn) : Prop :=
  Reaches s m ∧ be m 0 1 = type ∧ s.pf.st ∈ acceptedIn type ∧ addressingOk type ((nth m 1 0).getLsbD 7) = true ∧
    repeats s m = false

/-- The record of an accepted message, against which repetitions are judged (R112). -/
def heard (s : State) (m : MsgIn) : Pf :=
  let bc := (nth m 1 0).getLsbD 7
  { s.pf with recent := (be m 0 1, b2n bc, if bc then 0 else be m 2 1, be m 3 1, 0) :: s.pf.recent }

/-- Engine e is about to execute the instruction i of its program (R165, R170). -/
def Executes (e : Nat) (i : PInstr) (s : State) (x : Engine) : Prop :=
  engine? s e = some x ∧ x.running = true ∧ fetchP s x = some i

/-- An engine once an instruction has been taken: one step more, the next address (R165, R170). -/
def stepped (x : Engine) : Engine := { x with steps := x.steps + 1, pc := x.pc + 1 }

/-- The engine that is first in the dispatch order of a side has not ended (R158). -/
def frontRuns (s : State) (l : List Nat) : Prop :=
  ∀ f r, l = f :: r → ∃ y, engine? s f = some y ∧ y.ended = none

/-- The packets that wait for flow lookup on a side (R186). -/
def flowQ (sd : Side) (s : State) : List Packet := match sd with
  | .line => s.flw.inLine
  | .client => s.flw.inClient

/-- The oldest of them has been taken. -/
def dequeued (sd : Side) (s : State) : State := match sd with
  | .line => { s with flw := { s.flw with inLine := s.flw.inLine.tail } }
  | .client => { s with flw := { s.flw with inClient := s.flw.inClient.tail } }

/-- A packet has gone on to admission on its side. -/
def admitted (sd : Side) (p : Packet) (s : State) : State := match sd with
  | .line => { s with sch := { s.sch with inLine := s.sch.inLine ++ [p] } }
  | .client => { s with sch := { s.sch with inClient := s.sch.inClient ++ [p] } }

/-- The event of a lookup that hits: in the slots, or in the CAM (R181). -/
def hitEvent : FlowLoc → Nat
  | .slot _ => 0x0601
  | .cam _ => 0x0602

/-- The reference of a packet to its rule version is given back (R199). -/
def unref (p : Packet) (s : State) : State := match p.version with
  | none => s
  | some v => setVersion v { version s v with refs := (version s v).refs - 1 } s

/-- The packet is not the last reference of a DRAINING version. -/
def keepsVersion (p : Packet) (s : State) : Prop :=
  ∀ v, p.version = some v → (version s v).st ≠ .draining ∨ (version s v).refs - 1 ≠ 0

/-- The frames that wait for admission on a side. -/
def admQ (sd : Side) (s : State) : List Packet := match sd with
  | .line => s.sch.inLine
  | .client => s.sch.inClient

/-- The oldest of them has been taken. -/
def admTaken (sd : Side) (s : State) : State := match sd with
  | .line => { s with sch := { s.sch with inLine := s.sch.inLine.tail } }
  | .client => { s with sch := { s.sch with inClient := s.sch.inClient.tail } }

/-- A frame whose end nobody waits for: no transmit descriptor, no promise, and no last reference of a version. -/
def Unclaimed (p : Packet) (s : State) : Prop := p.tx = none ∧ p.promise = none ∧ keepsVersion p s

/-- A timed frame is at the head of a side's admission: for queue q and port node `port`, with deadline d. Nobody waits for
its outcome. -/
structure Offered (sd : Side) (s : State) (p : Packet) (q port d : Nat) : Prop where
  ready : schedReady s = true
  head : (admQ sd s).head? = some p
  timed : p.cls = .timed
  dest : p.queue.getD 0 = q
  node : portOf s q = port
  deadline : deadlineOf s.tmu.ns p = some d
  tx : p.tx = none
  ring : outcomeRing s p port = none
  version : keepsVersion p s

/-- The frame is refused with a reason: counted, and gone. -/
def RefusedWith (r : RejReason) (sd : Side) (s : State) (p : Packet) : Prop :=
  ∃ t, exec (.admissionDecision sd) s = .next t ∧ Counts r.event 0 1 s t ∧ Agree t (unref p (admTaken sd s))

end Sys2Proof.Machine
end

