-- ==== Sys2Proof/WellFormed.lean ====
section
/-! DEFINITION. Well-formed commands: every operand lies in the range that the spec gives the thing it names. -/

namespace Sys2Proof

/-- A stamp's fraction has 32 bits (R298). -/
def StampIn.wf (x : StampIn) : Bool := x.frac < 2 ^ 32

/-- An offset lies in its BAR (R361). -/
def barOk (bar offset : Nat) : Bool :=
  (bar == 0 && offset < 2 ^ 21) || (bar == 2 && offset < 2 ^ 24) || (bar == 4 && offset < 2 ^ 16)

def Access.wf (a : Access) : Bool := barOk a.bar a.offset && 1 ≤ a.size && a.size ≤ 8 && (a.bar == 0 || a.req == .host)

/-- A configuration register lies in the 4 KiB of configuration space, on a doubleword. -/
def ConfigOp.wf : ConfigOp → Bool
  | .read o | .write o => o < 4096 && o % 4 == 0
  | .msix _ _ | .power _ => true

def InitBlock.wf : InitBlock → Bool
  | .buffer q => q < 4
  | .slice k => k < 16
  | .scheduler | .ringState | .counters => true

/-- The operands of a command lie in their ranges. -/
def Instr.wf : Instr → Bool
  | .scrubberPass _ | .rootLock | .losDeclare | .losClear | .lineRxSet | .rxFomLoss _ | .laserCalibrationDone
  | .laserEnable | .burstSent | .rogueCut | .txDisableAssert | .txDisableRelease | .blockLock | .blockLockLoss
  | .eqReadRetry | .eqReadDone | .syncPatternMatch _ | .burstBuild | .pf2Discovery | .tRangeExpiry | .tAuthExpiry
  | .tRejectExpiry | .tLossExpiry | .tHoldoffExpiry | .lineStopTimeout | .rogueAutoRelease | .keCancel | .keArmed
  | .pageRuns _ | .pageSeal _ | .circuitRefuse _ | .psCancel | .psArmed | .secondBoundary | .binClose _ | .binFinal
  | .flowLookup _ | .autoRehashStart | .rehashMigratePair | .rehashRetry | .flowTableInit | .batchTimedCommit
  | .bufferEnqueue _ | .coarseRevolution | .admissionDecision _ | .contractOffer _ | .contractEnd _ | .timeSecondMean
  | .timeParams _ | .tcxoErrorUpdate _ | .aonNsUpdate _ | .timeBridged | .tmuNowRead _ _ | .ppsInLost
  | .cphLockRead _ _ | .cphLockRelease _ | .lockTimeout | .cphSubmit _ | .keyStoreInit | .meteringPush _
  | .meteringLinkUp | .tinTimeDiscipline | .tinSecond | .tinBinClose | .tinRecordWrite | .tinSnapshot
  | .tinWarnSnapshot | .tinStatus _ | .tinReadRecords _ | .tinReadLog _ | .tinReadMap _ | .tinProvision _
  | .tinSetObjects _ | .tinMarkCollected _ | .tinRekey _ | .tinCloseForRemoval _ | .mapApplied | .bayOpened
  | .bayClosed | .tinTampered | .tinRemoved | .tinInserted _ | .powerReturn | .functionReady | .pcieLinkDown
  | .pcieLinkUp | .irqTest _ _ | .mbxCrossedWait | .pfWarn | .pfRecover | .pfRecoveryRestart | .supplyGood
  | .resetThreshold | .bringUpWave | .starterRun | .firmwareStart | .perstNAssert | .perstNDeassert | .hostReset
  | .moduleReset | .thermalReset | .peelStrobe | .peelDumpWritten | .peelConsWrite _ _ | .peelEnable _ _
  | .vioPresent | .vioAbsent | .trstNAssert | .uartRxCharacter _ | .timeTick | .alwaysOnCounterTick
  | .recoveredFrequencyOutOfRange | .imageAreaErased | .imageVerificationDone _ | .epochKeyDerived
  | .recoveryWindowStart => true
  | .creditReturn iface => iface.block < 12 && iface.i < 5 && iface.inst < 16
  | .lineCalibrationDone foms => foms.length == 16 && foms.all (· < 256)
  | .adaptWindow fom taps => fom < 256 && taps.length == 25 && taps.all fun t => -32768 ≤ t && t < 32768
  | .prbsCheckerLock checker _ | .prbsLockLoss checker _ _ => checker < 5
  | .eqTableRead reply => reply.all fun b => b.length == 64
  | .codewordDecoded unit _ _ => unit < 1250
  | .syncPredictedCheck _ _ crust => crust.all fun c => c.length == 1376
  | .syncAcquired _ crust => crust.length == 1376
  | .crustTaken crust stamp => (crust.all fun c => c.length == 1376) && stamp.wf
  | .channelTagItem item => item.content.length ≤ 16383 && item.offset < 2 ^ 19
  | .reassemblyTimeout tag => tag < 1048576
  | .burstProfile m | .discoveryParams m | .assignId m | .rangingTime m | .authChallenge m | .authConfirm m
  | .epochKey m | .deregister m | .emergencyStop m | .emergencyRelease m => m.length == 48
  | .keAnnounce frame _ | .keEvaluation frame | .epochActivation frame | .keRetire frame | .psEvaluation frame
  | .pageActivation frame | .circuitTakePoint frame | .circuitReleasePoint frame | .contractAccount frame => frame < 2 ^ 32
  | .keCommit inFrame frame | .psCommit inFrame frame => inFrame < 2 ^ 32 && frame < 2 ^ 32
  | .psAnnounce frame page => frame < 2 ^ 32 && page < 2
  | .circuitFrameExtracted circuit frame _ => circuit < 256 && frame < 2 ^ 32
  | .gfpFrameReceived circuit => circuit < 256
  | .dsWindowEnd entity => entity < 0x3000
  | .parseDispatch _ engine | .pAdd engine | .pSub engine | .pAnd engine | .pOr engine | .pXor engine | .pShl engine
  | .pShr engine | .pMov engine | .pAddi engine | .pAndi engine | .pOri engine | .pShli engine | .pShri engine
  | .pLdi engine | .pLdih engine | .pExt engine | .pCmp engine | .pCmpi engine | .pB engine | .pLd engine
  | .pLdx engine | .pAdv engine | .pAdvr engine | .pHdr engine | .pLenck engine | .pRng engine | .pFfs engine
  | .pMatch engine | .matchResultsReady engine | .pKeyw engine | .pMeta engine | .pDone engine | .pExc engine
  | .pDrop engine | .parseTruncSteps engine | .badInstruction engine => engine < 128
  | .schedulerSelection port => port < 96
  | .calendarRelease slot | .coarseSlotStart slot => slot < 4096
  | .timedLateDrop queue => queue < 262144
  | .clientFrameTransmitted port stamp | .clientFrameReceived port _ _ stamp => port < 4 && stamp.wf
  | .contractInForce gs frame => gs < 64 && frame < 2 ^ 32
  | .combinedCurveEnd port => port < 84
  | .gateIntervalEnd port | .gateListChanged port | .linkUp port | .linkDown port _ | .txUnderrun port => port < 4
  | .pauseFrameReceived port quanta => port < 4 && quanta < 65536
  | .pfcFrameReceived port _ quanta => port < 4 && quanta.length == 8 && quanta.all (· < 65536)
  | .pauseTimerExpiry port prio | .pauseWatchdog port prio | .watchdogEnd port prio | .pauseRefresh port prio => port < 4 && prio < 8
  | .tsqHeadRead _ queue _ => queue < 5
  | .toutEdge output => output < 4
  | .ppsInEdge stamp => stamp.wf
  | .laJobDispatch core | .laJobDone core _ | .inlineUnitDispatch _ core | .inlineUnitDone core => core < 8
  | .keyEraseDone slot => slot < 4096
  | .configRequest op => op.wf
  | .msixGapEnd vector => vector < 2048
  | .msixUnmask target => target.all (· < 2048)
  | .registerWrite _ bar offset _ => barOk bar offset && offset % 8 == 0
  | .unsupportedAccess acc | .offDomainAccess acc | .accessWake acc => acc.wf
  | .wakeTimeout domain | .domainOn domain | .domainRetain domain | .domainOff domain | .domainFail domain => domain < 50
  | .ringEnable _ _ ring _ | .ringDisable _ _ ring _ | .ringDrained _ ring | .txDescTail ring _ | .txCplHead ring _
  | .rxDescTail ring _ _ | .rxCplHead ring _ | .hostTxFetch ring _ | .rxDelivered ring => ring < 2048
  | .rxHoldDrop port _ => 68 ≤ port && port ≤ 83
  | .mbxDoorbell _ ch | .mbxAck _ ch _ | .mbxZero _ ch => ch < 21
  | .mbxOverflow n => n < 8
  | .identity ch | .echo ch | .eventMask ch | .storeRead ch | .domainSet ch | .domainRead ch | .wakeOnAccess ch
  | .lineStatus ch | .lineStop ch | .lineStart ch | .rogueRelease ch | .lineLoopback ch | .linePrbs ch
  | .lineInject ch | .linePrbsRead ch | .bitSlip ch | .autoSlip ch | .circuitRequest ch | .circuitRelease ch
  | .circuitBind ch | .circuitEnable ch | .circuitTrace ch | .dsThreshold ch | .circuitStatus ch | .pageRead ch
  | .binRead ch | .batchOpen ch | .batchProgram ch | .batchEntry ch | .batchRange ch | .batchPattern ch
  | .batchActions ch | .batchDrop ch | .batchCommit ch | .batchAbandon ch | .versionRead ch | .flowInsert ch
  | .flowModify ch | .flowDelete ch | .flowRead ch | .tagSet ch | .tagRemove ch | .rehash ch | .autoRehash ch
  | .flowTableRead ch | .queueSet ch | .subscriberSet ch | .serviceSet ch | .portShaperSet ch | .policerSet ch
  | .resetCmd ch | .queueRead ch | .timedReserve ch | .admissionSet ch | .admissionRead ch | .contractRequest ch
  | .contractRelease ch | .contractRead ch | .gateWrite ch | .gateCommit ch | .hostShare ch | .portMode ch
  | .portSet ch | .pfcPriority ch | .filterSet ch | .eqReload ch | .portInfo ch | .laneLoopback ch | .lanePrbs ch
  | .lanePrbsRead ch | .timeMode ch | .timeStep ch | .timeAdj ch | .timeLockCommand ch | .stepThreshold ch
  | .asymmetry ch | .timeRelease ch | .timeClaim ch | .toutSet ch | .ppsinSet ch | .burstStamps ch | .timeInfo ch
  | .keyLoad ch | .keyErase ch | .keyRead ch | .lineSlots ch | .probeSet ch | .counterRead ch | .counterValidate ch
  | .histSet ch | .histClear ch | .peelPeriod ch | .tinRelay ch | .imageOpen ch | .imageWrite ch | .imageClose ch
  | .imageSelect ch | .firmwareRestart ch => ch < 8
  | .imageAreaChecked area _ => area < 2
  | .hardwareInitialisationDone block => block.wf

end Sys2Proof
end

