-- ==== Sys2Proof/Certificates/Slice0/Obligations.lean ====
section
/-! DEFINITION. The statements for the provers, family by family. -/

open Sys2Proof Sys2Proof.Machine

/-- A step takes the command at the front and runs exec on it with the queue's rest. -/
def Obligations.StepRunsFrontCommand : Prop :=
  ∀ (c : Instr) (cs : List Instr) (s : State), step { s with pending := c :: cs } = exec c { s with pending := cs }

/-- R24: the always-on counter counts periods of the TCXO in PD00 from zero at supply good, whatever the root is doing and
whatever the state of any other domain, and wraps after 2^48 of them. -/
def Obligations.AlwaysOnCounter : Prop :=
  (∀ s, s.pwr.supplyGood = true → Becomes .alwaysOnCounterTick s { s with pwr := { s.pwr with aon := s.pwr.aon + 1 } }) ∧
  (∀ s, s.pwr.supplyGood = true → s.pwr.aon.toNat = 2 ^ 48 - 1 →
    ∃ t, exec .alwaysOnCounterTick s = .next t ∧ t.pwr = { s.pwr with aon := 0 }) ∧
  (∀ s, s.pwr.supplyGood = false → ∃ t, exec .supplyGood s = .next t ∧ t.pwr.supplyGood = true ∧ t.pwr.aon = 0) ∧
  (∀ s, s.pwr.supplyGood = false → Becomes .alwaysOnCounterTick s s)

/-- R303: reading TMU_TSQq_HEAD removes the oldest record, returns its head word, and latches its time into the requester's
TMU_TSQq_TIME; an empty queue returns VALID = 0 and removes nothing. -/
def Obligations.StampQueueHead : Prop :=
  (∀ s r q x rest, q < 5 → reaches s r = true → on s 7 = true → (tsq s q).recs = x :: rest →
    ∃ t, exec (.tsqHeadRead r q true) s = .next t ∧ .readReply r (stampWord x) ∈ t.out ∧ (tsq t q).recs = rest ∧
      mget 0 (latch t r).tsq q = word x.ns ∧ (∀ k, k ≠ q → tsq t k = tsq s k) ∧ (tsq t q).lostTotal = (tsq s q).lostTotal) ∧
  (∀ s r q, q < 5 → reaches s r = true → on s 7 = true → (tsq s q).recs = [] →
    ∃ t, exec (.tsqHeadRead r q true) s = .next t ∧ .readReply r 0 ∈ t.out ∧ Agree t s)

/-- R22, R36, R44, R45, R46, R42: what each event of the line receiver does, and that it does nothing else. -/
def Obligations.LineReceiverEvents : Prop :=
  -- ROOT_LOCK while LINE_RX is set
  (∀ s, s.line.lineRx = true → s.line.loop = none → on s 9 = true →
    Becomes .rootLock s { s with line := { s.line with rootLocked := true } }) ∧
  -- ... and without LINE_RX it leaves the state
  (∀ s, s.line.lineRx = false → Becomes .rootLock s s) ∧
  -- RECOVERED_FREQUENCY_OUT_OF_RANGE with no burst on the air: the root leaves the recovered clock, module time goes to
  -- HOLDOVER from ACQUIRING and LOCKED
  (∀ s, s.line.rootLocked = true → s.up.onAir = none →
    ∃ t, exec .recoveredFrequencyOutOfRange s = .next t ∧ t.line = { s.line with rootLocked := false } ∧
      (on s 7 = true → (s.tmu.st = .acquiring ∨ s.tmu.st = .locked) → t.tmu.st = .holdover) ∧
      Agree t { s with line := t.line, tmu := t.tmu, mbx := t.mbx }) ∧
  -- LINE_CALIBRATION_DONE on a signal: the setting with the highest figure of merit, the lowest number on a tie
  (∀ s foms k, on s 9 = true → s.line.los = false → foms.length = 16 → (∀ f ∈ foms, f ≤ 255) → k < 16 →
    (∀ j < 16, nth foms j 0 ≤ nth foms k 0) → (∀ j < k, nth foms j 0 < nth foms k 0) →
    Becomes (.lineCalibrationDone foms) s { s with line := { s.line with
      calibrated := true, ctle := k, fom := nth foms k 0, tracking := false, stepExp := 10, reverts := 0 } }) ∧
  -- ... without a signal setting 8 is kept
  (∀ s foms, on s 9 = true → s.line.los = true → s.line.loop = none →
    Becomes (.lineCalibrationDone foms) s { s with line := { s.line with ctle := 8 } }) ∧
  -- ADAPT_WINDOW: no fall of more than 2 codes
  (∀ s fom taps, on s 9 = true → s.line.fom ≤ fom + 2 →
    Becomes (.adaptWindow fom taps) s { s with line := { s.line with
      fom := fom, prevTaps := s.line.taps, taps := taps, stepExp := if s.line.tracking then 14 else 10, reverts := 0 } }) ∧
  -- ... a revert, counted as ADAPT_REVERT
  (∀ s fom taps, on s 9 = true → fom + 2 < s.line.fom → s.line.reverts + 1 ≠ 8 →
    BecomesCounting (.adaptWindow fom taps) 0x0104 0 s { s with line := { s.line with
      fom := fom, taps := s.line.prevTaps, stepExp := min 18 (s.line.stepExp + 1), reverts := s.line.reverts + 1 } }) ∧
  -- ... the eighth consecutive revert restarts acquisition from the preset
  (∀ s fom taps, on s 9 = true → fom + 2 < s.line.fom → s.line.reverts = 7 →
    BecomesCounting (.adaptWindow fom taps) 0x0104 0 s { s with line := { s.line with
      fom := fom, taps := s.line.preset, prevTaps := s.line.preset, stepExp := 10, tracking := false, reverts := 0 } }) ∧
  -- LINE_RX_SET under the conditions of R46
  (∀ s, on s 9 = true → s.line.calibrated = true → s.line.los = false → 62 ≤ s.line.fom → s.line.lineRx = false →
    s.line.tracking = false →
    Becomes .lineRxSet s { s with line := { s.line with lineRx := true, tracking := true, stepExp := 14 } }) ∧
  -- BLOCK_LOCK and BLOCK_LOCK_LOSS in a loop of the proofing coding
  (∀ s c, on s 9 = true → s.line.loop = some (true, c) → s.line.blockLock = false →
    Becomes .blockLock s { s with line := { s.line with blockLock := true, validHdrs := s.line.validHdrs + 64 } }) ∧
  (∀ s, on s 9 = true → s.line.blockLock = true →
    BecomesCounting .blockLockLoss 0x0107 0 s { s with line := { s.line with blockLock := false } })

/-- R36, R46, R73: loss of signal and loss of the figure of merit end LINE_RX, and with it sync and the root; the clearing of
loss of signal. The events follow R64. -/
def Obligations.LineSignalLosses : Prop :=
  (∀ s, on s 9 = true → s.line.los = false → s.line.loop = none →
    ∃ t, exec .losDeclare s = .next t ∧ t.line.los = true ∧ t.line.lineRx = false ∧ t.line.rootLocked = false ∧
      t.frm.lineSync = false ∧ t.frm.cands = [] ∧ t.pwr = s.pwr ∧ t.glb.error = s.glb.error ∧ t.sch.subs = s.sch.subs ∧
      t.pending = s.pending) ∧
  (∀ s, on s 9 = true → s.line.los = true →
    ∃ t, exec .losClear s = .next t ∧ t.line = { s.line with los := false } ∧ Agree t { s with line := t.line, mbx := t.mbx }) ∧
  (∀ s, on s 9 = true → s.line.lineRx = true → s.line.fom < 56 →
    ∃ t, exec (.rxFomLoss false) s = .next t ∧ t.line.lineRx = false ∧ t.line.rootLocked = false ∧
      t.frm.lineSync = false ∧ t.frm.cands = [] ∧ t.line.los = s.line.los ∧ t.pwr = s.pwr ∧ t.pending = s.pending) ∧
  (∀ s, on s 9 = true → s.line.lineRx = true →
    ∃ t, exec (.rxFomLoss true) s = .next t ∧ t.line.lineRx = false ∧ t.line.rootLocked = false ∧
      t.frm.lineSync = false ∧ t.line.los = s.line.los ∧ t.pwr = s.pwr ∧ t.pending = s.pending) ∧
  -- between 56 and 62 LINE_RX keeps its state
  (∀ s, 56 ≤ s.line.fom → Becomes (.rxFomLoss false) s s)

/-- R47-R50, R124: what each event of the laser does, and that it does nothing else but what is named. -/
def Obligations.LaserEvents : Prop :=
  (∀ s, on s 8 = true → s.line.rogueCut = false →
    Becomes .laserCalibrationDone s { s with line := { s.line with laserCal := true, recalSinceCut := false } }) ∧
  -- LASER_ENABLE: the oldest burst built goes on the air
  (∀ s b r, s.up.built = b :: r → laserReady s b.leadNs = true → s.up.onAir = none →
    ∃ t, exec .laserEnable s = .next t ∧ t.up = { s.up with built := r, onAir := some b } ∧
      t.line = { s.line with laserOn := true } ∧ Out.burst b ∈ t.out ∧
      Agree t { s with up := t.up, line := t.line, tmu := t.tmu }) ∧
  -- ... or, with the laser unavailable, its grant is skipped
  (∀ s b r, s.up.built = b :: r → laserReady s b.leadNs = false →
    ∃ t, exec .laserEnable s = .next t ∧ t.up.built = r ∧ t.up.onAir = s.up.onAir ∧ t.line = s.line ∧ t.pwr = s.pwr ∧
      t.cir = s.cir ∧ t.sch = s.sch) ∧
  -- BURST_SENT
  (∀ s b, s.up.onAir = some b → b.message = none →
    ∃ t, exec .burstSent s = .next t ∧ t.up.onAir = none ∧ t.up.built = s.up.built ∧
      t.line = { s.line with laserOn := false } ∧ t.pf = s.pf ∧ t.pwr = s.pwr ∧ t.cir = s.cir) ∧
  -- ROGUE_CUT latches and clears LINE_TX; a burst on the air ends
  (∀ s, on s 8 = true →
    ∃ t, exec .rogueCut s = .next t ∧ t.line.rogueCut = true ∧ t.line.cuts.head? = some s.pwr.aon ∧ lineTx t = false ∧
      (s.up.onAir ≠ none → t.line.laserOn = false) ∧ t.line.taps = s.line.taps ∧ t.pwr = s.pwr ∧ t.glb.error = s.glb.error) ∧
  -- TX_DISABLE_ASSERT forces the laser off and ends a burst without its terminator
  (∀ s, s.pwr.vio = true → s.pwr.txDisable = false →
    ∃ t, exec .txDisableAssert s = .next t ∧ t.pwr = { s.pwr with txDisable := true } ∧ lineTx t = false ∧ t.pf = s.pf ∧
      ∀ b, s.up.onAir = some b → t.up.onAir = none ∧ t.line = { s.line with laserOn := false }) ∧
  -- TX_DISABLE_RELEASE keeps the time from which the 1 us counts
  (∀ s, s.pwr.txDisable = true →
    Becomes .txDisableRelease s { s with
      pwr := { s.pwr with txDisable := false }, line := { s.line with txReleased := some s.tmu.ns } }) ∧
  -- ROGUE_AUTO_RELEASE under the conditions of R124
  (∀ s, s.line.rogueCut = true → fwWorks s = true → on s 8 = true → rogueWaited s = true → s.line.recalSinceCut = true →
    s.line.laserCal = true → s.line.hostRelease = false →
    ∃ t, exec .rogueAutoRelease s = .next t ∧
      t.line = { s.line with rogueCut := false, recalSinceCut := false, hostRelease := false } ∧
      Agree t { s with line := t.line, mbx := t.mbx }) ∧
  -- ... and not before 1 s, nor outside PF0 and PF1
  (∀ s, rogueWaited s = false → Becomes .rogueAutoRelease s s)

/-- R53-R55, R60, R63: pattern checkers and the read of the equaliser table. -/
def Obligations.CheckersAndEqualiser : Prop :=
  (∀ s c inv, c ≤ 4 → on s (checkerDom c) = true → (prbsOf s c).chk ≠ 0 → (prbsOf s c).checker.locked = false →
    ∃ t, exec (.prbsCheckerLock c inv) s = .next t ∧
      prbsOf t c = { prbsOf s c with checker := { (prbsOf s c).checker with locked := true, inverted := inv } } ∧
      (∀ d ≤ 4, d ≠ c → prbsOf t d = prbsOf s d) ∧ Agree t { s with line := t.line }) ∧
  (∀ s c e y, c ≤ 4 → on s (checkerDom c) = true → (prbsOf s c).checker.locked = true →
    ∃ t, exec (.prbsLockLoss c e y) s = .next t ∧
      (prbsOf t c).checker = { locked := false, inverted := false
                               bitErrors := min ((prbsOf s c).checker.bitErrors + e) (2 ^ 48 - 1)
                               symErrors := min ((prbsOf s c).checker.symErrors + y) (2 ^ 48 - 1)
                               losses := min ((prbsOf s c).checker.losses + 1) (2 ^ 48 - 1) } ∧
      (∀ d ≤ 4, d ≠ c → prbsOf t d = prbsOf s d) ∧ Agree t { s with line := t.line }) ∧
  (∀ s reply, on s 18 = true → s.line.eqReading = true → s.pwr.vio = true →
    Becomes (.eqTableRead reply) s { s with line := { s.line with
      eqTries := s.line.eqTries + 1, eqReading := false, eqRaw := reply } }) ∧
  (∀ s, on s 18 = true → s.line.eqReading = false → s.line.eqReady = false → s.line.eqRaw = none → 1 ≤ s.line.eqTries →
    s.line.eqTries < 3 → Becomes .eqReadRetry s { s with line := { s.line with eqReading := true } }) ∧
  (∀ s, 3 ≤ s.line.eqTries → Becomes .eqReadRetry s s) ∧
  -- EQ_READ_DONE: the table as a whole, or the defaults for every lane
  (∀ s b, on s 18 = true → s.line.eqReading = false → s.line.eqReady = false → s.line.eqRaw = some b → eqTableOk b = true →
    ∃ t, exec .eqReadDone s = .next t ∧ t.line = { s.line with
        eqReady := true, eqFromRom := true, carrierId := word (le b 8 8)
        eqEntries := (List.range 4).map fun k => (laneEntry b k).getD (laneEqReset k) } ∧
      Agree t { s with line := t.line, mbx := t.mbx }) ∧
  (∀ s b, on s 18 = true → s.line.eqReading = false → s.line.eqReady = false → s.line.eqRaw = some b → eqTableOk b = false →
    ∃ t, exec .eqReadDone s = .next t ∧ t.line = { s.line with
        eqReady := true, eqFromRom := false, carrierId := 0, eqEntries := (List.range 4).map laneEqReset } ∧
      Agree t { s with line := t.line, mbx := t.mbx })

/-- R57, R59, R127, R429: the line commands of group 0x03, once they pass the checks of R418. -/
def Obligations.LineCommands : Prop :=
  (∀ s ch, Accepted cmdLineStatus ch s →
    ∃ ws, ws.length = 9 ∧ nth ws 1 0 = word (s.pf.eqd + at' s.pf.preEqd 32) ∧
      Answers (.lineStatus ch) 0x0301 ch (.data ws) s s) ∧
  -- LINE_STOP in PF0 is done at once; the hold is stored
  (∀ s ch, Accepted cmdLineStop ch s → s.pf.st = .pf0 →
    ∃ t, exec (.lineStop ch) s = .next t ∧ t.pf = { s.pf with held := true } ∧ t.fw.want.lineStop = true ∧
      Agree t { s with pf := t.pf, fw := t.fw, mbx := t.mbx }) ∧
  -- ... in PF5 the notice LINE_STOP goes out first
  (∀ s ch, Accepted cmdLineStop ch s → s.pf.st = .pf5 → s.pf.upQ.length < 8 →
    ∃ t, exec (.lineStop ch) s = .next t ∧ t.pf.st = .pf5 ∧ t.pf.stopping = true ∧ t.pf.held = true ∧
      t.pf.upQ = s.pf.upQ ++ [{ type := 0x86, seq := s.pf.upSeq % 256, payload := pad 44 [1] }]) ∧
  (∀ s ch, Accepted cmdLineStart ch s → pfRuns s = false →
    ∃ t, exec (.lineStart ch) s = .next t ∧ t.pf = { s.pf with held := false } ∧ t.fw.want.lineStop = false ∧
      Agree t { s with pf := t.pf, fw := t.fw, mbx := t.mbx }) ∧
  (∀ s ch, Accepted cmdRogueRelease ch s → s.line.rogueCut = true → s.line.recalSinceCut = false →
    Answers (.rogueRelease ch) 0x0304 ch (.pend .rogueRelease) s s) ∧
  (∀ s ch, Accepted cmdRogueRelease ch s → s.line.rogueCut = false →
    Answers (.rogueRelease ch) 0x0304 ch (.data []) s s) ∧
  -- LINE_LOOPBACK: the loop of the coding and content asked for; ending it returns the receiver to calibration
  (∀ s ch, Accepted cmdLineLoopback ch s → bit (argOf s ch 1) 0 = true →
    ∃ t, exec (.lineLoopback ch) s = .next t ∧ t.line.loop = some (bit (argOf s ch 1) 1, bit (argOf s ch 1) 2) ∧
      t.line.lineRx = false ∧ t.line.rootLocked = false ∧ t.frm.lineSync = false ∧ t.pwr = s.pwr) ∧
  (∀ s ch, Accepted cmdLineLoopback ch s → bit (argOf s ch 1) 0 = false → s.line.loop.isSome = true →
    ∃ t, exec (.lineLoopback ch) s = .next t ∧ t.line.loop = none ∧ t.line.calibrated = false ∧ t.line.autoSlip = true ∧
      t.line.prbs.gen = 0 ∧ t.line.lineRx = false ∧ t.pwr = s.pwr) ∧
  (∀ s ch, Accepted cmdLinePrbs ch s →
    let w := argOf s ch 1
    Answers (.linePrbs ch) 0x0306 ch .done s { s with line := { s.line with
      prbs := s.line.prbs.set (fld w 3 0) (fld w 7 4) (bit w 8) (bit w 9) } }) ∧
  (∀ s ch, Accepted cmdLineInject ch s →
    Answers (.lineInject ch) 0x0307 ch .done s { s with line := { s.line with
      prbs := { s.line.prbs with inject := fld (argOf s ch 1) 1 0, injectArg := fld (argOf s ch 1) 31 16 } } }) ∧
  (∀ s ch, Accepted cmdLinePrbsRead ch s → bit (argOf s ch 1) 0 = false →
    Answers (.linePrbsRead ch) 0x0308 ch (.data (checkerWords s.line.prbs.checker)) s s) ∧
  (∀ s ch, Accepted cmdLinePrbsRead ch s → bit (argOf s ch 1) 0 = true →
    Answers (.linePrbsRead ch) 0x0308 ch (.data (checkerWords s.line.prbs.checker)) s { s with line := { s.line with
      prbs := { s.line.prbs with checker := { s.line.prbs.checker with bitErrors := 0, symErrors := 0, losses := 0 } } } }) ∧
  (∀ s ch, Accepted cmdBitSlip ch s →
    Answers (.bitSlip ch) 0x0309 ch (.data [word (s.line.validHdrs % 65536)]) s { s with line := { s.line with
      slipPos := (s.line.slipPos + 1) % 66, validHdrs := 0 } }) ∧
  (∀ s ch, Accepted cmdAutoSlip ch s →
    Answers (.autoSlip ch) 0x030A ch .done s { s with line := { s.line with autoSlip := bit (argOf s ch 1) 0 } })

/-- R57, R59: LINE_LOOPBACK is refused DENIED outside PF0 and PF7, and BIT_SLIP NOT_READY outside a loop of the proofing
coding with automatic slip off; the refusal changes nothing but the mailbox. -/
def Obligations.LoopRefusals : Prop :=
  (∀ s ch, takes s ch 0x0305 = true → s.fw.recovery = false → fld (chanWord (chan s ch) 0) 31 24 = 2 →
    fld (chanWord (chan s ch) 0) 23 18 = 0 → bit (chanWord (chan s ch) 0) 16 = false → s.mbx.pend = [] → on s 9 = true → on s 10 = true →
    onlyBits (argOf s ch 1) 7 = true → bit (argOf s ch 1) 0 = true → s.pf.st ≠ .pf0 → s.pf.st ≠ .pf7 →
    Becomes (.lineLoopback ch) s (acknowledge ch (seqOf s ch) 0 0x8005 s)) ∧
  (∀ s ch, takes s ch 0x0309 = true → s.fw.recovery = false → fld (chanWord (chan s ch) 0) 31 24 = 1 →
    fld (chanWord (chan s ch) 0) 23 18 = 0 → bit (chanWord (chan s ch) 0) 16 = false → s.mbx.pend = [] →
    (on s 9 = false ∨ proofingLoop s = false ∨ s.line.autoSlip = true) →
    Becomes (.bitSlip ch) s (acknowledge ch (seqOf s ch) 0 0x8004 s))

/-- R107, R111-R113: what is taken of BURST_PROFILE and DISCOVERY_PARAMS, and what of any message is counted and ignored:
one not addressed has no effect, one that its state or addressing does not accept is counted 0x031A, a repetition 0x031B. -/
def Obligations.CrustMessages : Prop :=
  (∀ s m, Heard 1 s m → be m 4 1 ≤ 3 → 4 ≤ be m 5 1 → be m 5 1 ≤ 64 →
    Becomes (.burstProfile m) s (pfFollow { s with pf := { heard s m with
      profiles := minsert s.pf.profiles (be m 4 1) { n := be m 5 1, levels := BitVec.ofNat 64 (be m 6 8) } } })) ∧
  (∀ s m, Heard 1 s m → s.line.rogueCut = false → s.pf.st ≠ .pf6 → (3 < be m 4 1 ∨ be m 5 1 < 4 ∨ 64 < be m 5 1) →
    BecomesCounting (.burstProfile m) 0x031A 0 s { s with pf := heard s m }) ∧
  (∀ s m, Heard 2 s m → be m 4 4 ≤ 33750000 → be m 8 1 ≤ 15 →
    Becomes (.discoveryParams m) s (pfFollow { s with pf := { heard s m with
      preEqd := be m 4 4, backoffMax := be m 8 1 } })) ∧
  (∀ s m, Heard 2 s m → s.line.rogueCut = false → 33750000 < be m 4 4 →
    BecomesCounting (.discoveryParams m) 0x031D 0 s { s with pf := heard s m }) ∧
  (∀ s m, Heard 4 s m → s.line.rogueCut = false → 33750000 < be m 4 4 →
    BecomesCounting (.rangingTime m) 0x031D 0 s { s with pf := heard s m }) ∧
  -- every row of the catalogue
  (∀ c k s m, (c, k) ∈ [(Instr.burstProfile m, 1), (.discoveryParams m, 2), (.assignId m, 3), (.rangingTime m, 4),
      (.authChallenge m, 5), (.authConfirm m, 6), (.epochKey m, 7), (.deregister m, 8), (.emergencyStop m, 9),
      (.emergencyRelease m, 10)] → be m 0 1 = k → m.length = 48 →
    ((crustUsed s && pfRuns s && addressed s m) = false → Becomes c s s) ∧
    (Reaches s m → (s.pf.st ∉ acceptedIn k ∨ addressingOk k ((nth m 1 0).getLsbD 7) = false) →
      BecomesCounting c 0x031A 0 s s) ∧
    (Reaches s m → s.pf.st ∈ acceptedIn k → addressingOk k ((nth m 1 0).getLsbD 7) = true → repeats s m = true →
      BecomesCounting c 0x031B 0 s s))

/-- R104, R114: the messages that change the proofing state. -/
def Obligations.RegistrationMessages : Prop :=
  -- ASSIGN_ID: PF2 to PF3 with the terminal ID, T_RANGE started
  (∀ s m, Heard 3 s m → s.line.rogueCut = false →
    ∃ t, exec (.assignId m) s = .next t ∧ t.pf = { heard s m with
        st := .pf3, tid := be m 12 1, tRange := true, rejecting := false, tAuth := false, tReject := false, tLoss := false } ∧
      Agree t { s with pf := t.pf, mbx := t.mbx }) ∧
  -- RANGING_TIME in PF3: EqD held, ACK queued, PF4 with T_AUTH started
  (∀ s m, Heard 4 s m → s.line.rogueCut = false → be m 4 4 ≤ 33750000 → s.pf.st = .pf3 → s.pf.upQ.length < 8 →
    ∃ t, exec (.rangingTime m) s = .next t ∧ t.pf = { heard s m with
        st := .pf4, eqd := be m 4 4, tAuth := true, rejecting := false, tRange := false, tReject := false, tLoss := false
        upQ := s.pf.upQ ++ [{ type := 0x87, seq := s.pf.upSeq % 256, payload := pad 44 (m.take 1 ++ slice m 3 1) }]
        upSeq := (s.pf.upSeq + 1) % 256 } ∧
      Agree t { s with pf := t.pf, mbx := t.mbx }) ∧
  -- in PF5 the EqD alone
  (∀ s m, Heard 4 s m → s.line.rogueCut = false → be m 4 4 ≤ 33750000 → s.pf.st = .pf5 → s.pf.upQ.length < 8 →
    Becomes (.rangingTime m) s { s with pf := { heard s m with
        eqd := be m 4 4
        upQ := s.pf.upQ ++ [{ type := 0x87, seq := s.pf.upSeq % 256, payload := pad 44 (m.take 1 ++ slice m 3 1) }]
        upSeq := (s.pf.upSeq + 1) % 256 } }) ∧
  -- DEREGISTER: PF1, terminal ID, EqD and the exchange discarded
  (∀ s m, Heard 8 s m → s.line.rogueCut = false →
    ∃ t, exec (.deregister m) s = .next t ∧ t.pf.st = .pf1 ∧ t.pf.tid = 0 ∧ t.pf.eqd = 0 ∧ t.pf.nH = [] ∧ t.pf.nT = [] ∧
      t.pf.upQ = [] ∧ t.pf.profiles = s.pf.profiles ∧ t.ke = keReset ∧ t.up.frags = [] ∧ t.cir.active = 0 ∧ t.line = s.line ∧
      t.frm.lineSync = s.frm.lineSync ∧ t.fw = s.fw ∧ t.pwr = s.pwr) ∧
  -- EMERGENCY_STOP: PF7, stored
  (∀ s m, Heard 9 s m →
    ∃ t, exec (.emergencyStop m) s = .next t ∧ t.pf.st = .pf7 ∧ t.pf.tid = 0 ∧ t.pf.eqd = 0 ∧ t.pf.preEqd = 0 ∧
      t.pf.backoffMax = 7 ∧ t.pf.profiles = [] ∧ t.ke = keReset ∧ t.fw.want.emergency = true ∧ lineTx t = false ∧
      t.line = s.line ∧ t.pwr = s.pwr) ∧
  -- EMERGENCY_RELEASE: PF0, and at once PF1 where the line is in sync and not held
  (∀ s m, Heard 10 s m →
    ∃ t, exec (.emergencyRelease m) s = .next t ∧ t.pf.st = (if s.pf.held then .pf0 else .pf1) ∧ t.fw.want.emergency = false ∧
      t.pf.tid = 0 ∧ t.line = s.line ∧ t.pwr = s.pwr)

/-- R115-R117, R122: AUTH_CHALLENGE, AUTH_CONFIRM and EPOCH_KEY. -/
def Obligations.AuthenticationMessages : Prop :=
  -- another N_H: N_T is drawn, K_A derived and loaded, and AUTH_RESPONSE carries N_T and T_T under K_A
  (∀ s m, Heard 5 s m → s.line.rogueCut = false → s.pf.rejecting = false → s.pf.nH ≠ slice m 4 32 → cipherReady s = true →
    s.pf.upQ.length < 8 →
    ∃ t, exec (.authChallenge m) s = .next t ∧ t.pf.st = .pf4 ∧ t.pf.nH = slice m 4 32 ∧ t.pf.nT.length = 16 ∧
      (keySlot t slotAuth).st = .loaded ∧
      (keySlot t slotAuth).key = pad 32 (kdf s.fw.kId "CHNL-AUTH" (serialBytes s ++ t.pf.nH ++ t.pf.nT)) ∧
      t.pf.upQ.getLast? = some { type := 0x82, seq := s.pf.upSeq % 256, payload := pad 44 (t.pf.nT ++
        cmac (kdf s.fw.kId "CHNL-AUTH" (serialBytes s ++ t.pf.nH ++ t.pf.nT))
          (0x54 :: (serialBytes s ++ tidByte s ++ t.pf.nH ++ t.pf.nT))) } ∧
      Agree t { s with pf := t.pf, cph := t.cph, free := t.free }) ∧
  -- the same N_H again starts nothing
  (∀ s m, Heard 5 s m → s.line.rogueCut = false → s.pf.rejecting = false → s.pf.nH = slice m 4 32 →
    Becomes (.authChallenge m) s { s with pf := heard s m }) ∧
  -- T_H right: PF5 with K_S
  (∀ s m k, Heard 6 s m → s.line.rogueCut = false → loadedKey s slotAuth = some k → s.pf.rejecting = false →
    s.pf.responded = true → slice m 4 16 = tagH s k →
    ∃ t, exec (.authConfirm m) s = .next t ∧ t.pf.st = .pf5 ∧ t.pf.nH = [] ∧ t.pf.nT = [] ∧ t.pf.tid = s.pf.tid ∧
      t.pf.eqd = s.pf.eqd ∧ t.pf.tAuth = false ∧ t.ke = s.ke ∧ t.line = s.line ∧ t.fw = s.fw ∧ t.pwr = s.pwr) ∧
  -- T_H wrong: AUTH_REJECT, counted
  (∀ s m k, Heard 6 s m → s.line.rogueCut = false → loadedKey s slotAuth = some k → s.pf.rejecting = false →
    s.pf.responded = true → slice m 4 16 ≠ tagH s k → s.pf.upQ.length < 8 →
    BecomesCounting (.authConfirm m) 0x031F 0 s { s with pf := { heard s m with
      rejecting := true, tAuth := false, tReject := true, upSeq := (s.pf.upSeq + 1) % 256
      upQ := s.pf.upQ ++ [{ type := 0x83, seq := s.pf.upSeq % 256, payload := pad 44 [1] }] } }) ∧
  -- with no exchange, ignored and counted
  (∀ s m, Heard 6 s m → s.line.rogueCut = false → loadedKey s slotAuth = none →
    BecomesCounting (.authConfirm m) 0x031A 0 s { s with pf := heard s m }) ∧
  -- the first EPOCH_KEY of a registration: K_E loaded, its derivations run
  (∀ s m kS, Heard 7 s m → s.line.rogueCut = false → loadedKey s slotSess = some kS → s.ke.lastE = none →
    s.ke.current = none → s.ke.first = none → s.pf.upQ.length < 8 →
    ∃ t, exec (.epochKey m) s = .next t ∧
      t.ke = { s.ke with lastE := some (be m 4 4), first := some { epoch := be m 4 4, bit := (nth m 8 0).getLsbD 0 } } ∧
      (keySlot t (slotEpoch ((nth m 8 0).getLsbD 0))).key =
        pad 32 (kdf kS "CHNL-EPOCH" (natBe 4 (be m 4 4) ++ slice m 9 32)) ∧
      (t.pf.upQ.getLast?).map (·.type) = some 0x87 ∧ Agree t { s with ke := t.ke, pf := t.pf, cph := t.cph }) ∧
  -- one that is not greater than the last is counted and ignored
  (∀ s m kS l, Heard 7 s m → s.line.rogueCut = false → loadedKey s slotSess = some kS → s.ke.lastE = some l → be m 4 4 ≤ l →
    BecomesCounting (.epochKey m) 0x0326 0 s { s with pf := heard s m })

/-- R104, R105, R127: discovery begins, and what each timer of the proofing state machine does; a timer that does not run,
or runs out in another state, does nothing. -/
def Obligations.ProofingTimers : Prop :=
  (∀ s, pfRuns s = true → s.pf.st = .pf1 → s.pf.profiles ≠ [] → lineTx s = true → s.line.rootLocked = true →
    s.pf.tHoldoff = false →
    ∃ t, exec .pf2Discovery s = .next t ∧ t.pf.st = .pf2 ∧ t.pf.profiles = s.pf.profiles ∧ t.pf.tid = 0 ∧ t.line = s.line ∧
      t.frm.lineSync = s.frm.lineSync ∧ t.pwr = s.pwr ∧ t.tmu = s.tmu) ∧
  (∀ s, s.pf.tHoldoff = true ∨ s.pf.st ≠ .pf1 ∨ s.line.rootLocked = false → Becomes .pf2Discovery s s) ∧
  (∀ s, pfRuns s = true → s.pf.st = .pf3 → s.pf.tRange = true → pfSync s = true → s.line.rogueCut = false →
    ∃ t, exec .tRangeExpiry s = .next t ∧ t.pf.st = .pf2 ∧ t.pf.tRange = false ∧ t.pf.tid = 0 ∧ t.pf.eqd = 0 ∧
      t.pf.profiles = s.pf.profiles ∧ t.line = s.line ∧ t.frm.lineSync = s.frm.lineSync ∧ t.pwr = s.pwr) ∧
  (∀ s, s.pf.tRange = false ∨ s.pf.st ≠ .pf3 → Becomes .tRangeExpiry s s) ∧
  (∀ s, pfRuns s = true → s.pf.st = .pf4 → s.pf.rejecting = false → s.pf.tAuth = true → pfSync s = true →
    s.line.rogueCut = false →
    ∃ t, exec .tAuthExpiry s = .next t ∧ t.pf.st = .pf2 ∧ t.pf.tAuth = false ∧ t.pf.tid = 0 ∧ t.pf.eqd = 0 ∧ t.line = s.line ∧
      t.frm.lineSync = s.frm.lineSync ∧ t.pwr = s.pwr) ∧
  (∀ s, s.pf.tAuth = false ∨ s.pf.st ≠ .pf4 → Becomes .tAuthExpiry s s) ∧
  (∀ s, pfRuns s = true → s.pf.st = .pf4 → s.pf.rejecting = true → s.pf.tReject = true → pfSync s = true →
    s.line.rogueCut = false →
    ∃ t, exec .tRejectExpiry s = .next t ∧ t.pf.st = .pf1 ∧ t.pf.rejecting = false ∧ t.pf.tHoldoff = true ∧ t.pf.tid = 0 ∧
      t.line = s.line ∧ t.frm.lineSync = s.frm.lineSync ∧ t.pwr = s.pwr) ∧
  (∀ s, s.pf.tReject = false ∨ s.pf.rejecting = false → Becomes .tRejectExpiry s s) ∧
  (∀ s, pfRuns s = true → s.pf.st = .pf6 → s.pf.tLoss = true → pfSync s = false →
    ∃ t, exec .tLossExpiry s = .next t ∧ t.pf.st = .pf0 ∧ t.pf.tLoss = false ∧ t.pf.tid = 0 ∧ t.pf.profiles = [] ∧
      t.line = s.line ∧ t.frm.lineSync = s.frm.lineSync ∧ t.pwr = s.pwr) ∧
  (∀ s, s.pf.tLoss = false ∨ s.pf.st ≠ .pf6 → Becomes .tLossExpiry s s) ∧
  (∀ s, Becomes .tHoldoffExpiry s { s with pf := { s.pf with tHoldoff := false } }) ∧
  -- 1 ms after LINE_STOP in PF5 the module enters PF0, and the command ends
  (∀ s, s.pf.stopping = true → fwWorks s = true → s.pf.st = .pf5 →
    ∃ t, exec .lineStopTimeout s = .next t ∧ t.pf.st = .pf0 ∧ t.pf.stopping = false ∧ t.pf.tid = 0 ∧ t.pf.held = s.pf.held ∧
      (∀ p ∈ t.mbx.pend, p.wait ≠ .lineStop) ∧ t.line = s.line ∧ t.pwr = s.pwr) ∧
  (∀ s, s.pf.stopping = false → Becomes .lineStopTimeout s s)

/-- R119-R122: the key-epoch switch. -/
def Obligations.KeyEpochSwitch : Prop :=
  (∀ s f b, crustUsed s = true → f < 2 ^ 32 → (∀ e, s.ke.current = some e → e.bit ≠ b) → (∀ x, s.ke.announce ≠ some (f, x)) →
    Becomes (.keAnnounce f b) s { s with ke := { s.ke with announce := some (f, b), armed := 0, commit := none } }) ∧
  -- an ANNOUNCE of the epoch in force is counted and ignored
  (∀ s f e, crustUsed s = true → s.ke.current = some e → BecomesCounting (.keAnnounce f e.bit) 0x03E1 0 s s) ∧
  -- COMMIT is valid only in the crust of KE_FRAME - 2
  (∀ s n f, crustUsed s = true → (n + 2) % 2 ^ 32 = f % 2 ^ 32 →
    Becomes (.keCommit n f) s { s with ke := { s.ke with commit := some (f % 2 ^ 32) } }) ∧
  (∀ s n f, crustUsed s = true → (n + 2) % 2 ^ 32 ≠ f % 2 ^ 32 → BecomesCounting (.keCommit n f) 0x030C 0 s s) ∧
  -- CANCEL disarms every core and erases the standby keys
  (∀ s, crustUsed s = true → ∃ t, exec .keCancel s = .next t ∧
    t.ke = { s.ke with standby := none, armed := 0, announce := none, commit := none, switchAt := none } ∧
    (∀ e, s.ke.standby = some e → (∀ c, s.ke.current = some c → c.bit ≠ e.bit) → t.cph = (eraseEpochKeys e.bit s).cph) ∧
    t.pf = s.pf ∧ t.up = s.up ∧ t.line = s.line ∧ t.flw = s.flw ∧ t.pwr = s.pwr) ∧
  -- arming: with every standby key derived, every core that is ON
  (∀ s f e, s.ke.announce = some (f, e.bit) → s.ke.standby = some e → bitInForce s ≠ some e.bit → cipherReady s = true →
    (loadedKey s (slotEpoch e.bit)).isSome = true → epochKeysLoaded s e.bit = true →
    Becomes .keArmed s { s with ke := { s.ke with armed := coreMaskOn s } }) ∧
  -- the evaluation at F - 1
  (∀ s f, crustUsed s = true → s.ke.announce.map (·.1) = some ((f + 1) % 2 ^ 32) → coresArmed s = true →
    s.ke.standby.isSome = true → s.ke.commit = some ((f + 1) % 2 ^ 32) →
    BecomesCounting (.keEvaluation f) 0x0321 0 s { s with ke := { s.ke with
      commit := none, switchAt := some ((f + 1) % 2 ^ 32) } }) ∧
  (∀ s f, crustUsed s = true → s.ke.announce.map (·.1) = some ((f + 1) % 2 ^ 32) → coresArmed s = false →
    s.ke.commit = some ((f + 1) % 2 ^ 32) →
    BecomesCounting (.keEvaluation f) 0x0322 0 s { s with ke := { s.ke with commit := none } }) ∧
  (∀ s f, crustUsed s = true → s.ke.announce.map (·.1) = some ((f + 1) % 2 ^ 32) → coresArmed s = true →
    s.ke.standby.isSome = true → s.ke.commit = none →
    BecomesCounting (.keEvaluation f) 0x0323 0 s s) ∧
  -- at F the standby epoch is in force, and the old one is kept until F + 16
  (∀ s f e, s.ke.switchAt = some f → s.ke.standby = some e → s.ke.announce = some (f, e.bit) →
    Becomes (.epochActivation f) s { s with ke := { s.ke with
      old := s.ke.current, current := some e, standby := none, since := f, expired := false, armed := 0, switchAt := none
      announce := none, retireAt := if s.ke.current.isSome then some ((f + 16) % 2 ^ 32) else none } }) ∧
  -- at F + 16 the old epoch's frames and keys go
  (∀ s f e, s.ke.retireAt = some f → s.ke.old = some e →
    ∃ t, exec (.keRetire f) s = .next t ∧ t.ke = { s.ke with old := none, retireAt := none } ∧
      t.up.frags = s.up.frags.filter (fun x => !(x.2.encrypted && x.2.epoch == e.bit)) ∧
      (∃ v, v.cph = s.cph ∧ v.flw = s.flw ∧ v.pf = s.pf ∧ t.cph = (eraseEpochKeys e.bit v).cph) ∧
      t.pf = s.pf ∧ t.line = s.line ∧ t.flw = s.flw ∧ t.pwr = s.pwr) ∧
  (∀ s f, s.ke.retireAt ≠ some f → Becomes (.keRetire f) s s) ∧
  -- the first epoch comes into force once derived
  (∀ s e, s.ke.first = some e → ∃ t, exec .epochKeyDerived s = .next t ∧
    t.ke = { s.ke with current := some e, first := none, since := s.frm.frame.toNat, expired := false } ∧
    Agree t { s with ke := t.ke, cph := t.cph })

/-- R71-R73: the sync hunt. -/
def Obligations.SyncHunt : Prop :=
  -- a match that no candidate predicts is a new candidate, up to eight
  (∀ s p, hunting s = true → (∀ c ∈ s.frm.cands, c.1 + frameSymbols ≠ p) → s.frm.cands.length < 8 →
    BecomesCounting (.syncPatternMatch p) 0x0301 0 s { s with frm := { s.frm with cands := s.frm.cands ++ [(p, 1)] } }) ∧
  (∀ s p, hunting s = true → (∀ c ∈ s.frm.cands, c.1 + frameSymbols ≠ p) → 8 ≤ s.frm.cands.length →
    BecomesCounting (.syncPatternMatch p) 0x0303 0 s s) ∧
  (∀ s p, hunting s = false → Becomes (.syncPatternMatch p) s s) ∧
  -- a candidate's predicted position: found again, or dropped; at the third occurrence the crust decides
  (∀ s p c x, hunting s = true → s.frm.cands.find? (fun c => c.1 + frameSymbols == p) = some c →
    (c.2 < 2 ∨ ∃ y, x = some y ∧ crustCrcOk y = true) →
    Becomes (.syncPredictedCheck p true x) s { s with frm := { s.frm with
      cands := s.frm.cands.filter (· != c) ++ [(p, c.2 + 1)] } }) ∧
  (∀ s p c x, hunting s = true → s.frm.cands.find? (fun c => c.1 + frameSymbols == p) = some c →
    BecomesCounting (.syncPredictedCheck p false x) 0x0302 0 s { s with frm := { s.frm with
      cands := s.frm.cands.filter (· != c) } }) ∧
  -- in sync: the position, and the consecutive misses
  (∀ s p x, framing s = true → p = s.frm.syncPos + frameSymbols →
    Becomes (.syncPredictedCheck p true x) s { s with frm := { s.frm with syncPos := p, misses := 0 } }) ∧
  (∀ s p x, framing s = true → p = s.frm.syncPos + frameSymbols → s.frm.misses < 3 →
    BecomesCounting (.syncPredictedCheck p false x) 0x0305 0 s { s with frm := { s.frm with
      syncPos := p, misses := s.frm.misses + 1 } }) ∧
  -- the fourth miss in succession loses sync
  (∀ s p x, framing s = true → p = s.frm.syncPos + frameSymbols → 3 ≤ s.frm.misses →
    ∃ t, exec (.syncPredictedCheck p false x) s = .next t ∧ t.frm.lineSync = false ∧ t.frm.cands = [] ∧ t.frm.misses = 0 ∧
      t.line = s.line ∧ t.pwr = s.pwr) ∧
  -- SYNC_ACQUIRED: LINE_SYNC with the line frame number of the crust
  (∀ s p c, hunting s = true → crustCrcOk c = true → (p, 3) ∈ s.frm.cands →
    ∃ t, exec (.syncAcquired p c) s = .next t ∧ t.frm.lineSync = true ∧ t.frm.cands = [] ∧ t.frm.syncPos = p ∧
      t.frm.misses = 0 ∧ t.frm.frame = BitVec.ofNat 32 (be c 0 4) ∧ t.frm.delineated = false ∧ t.line = s.line ∧
      t.pwr = s.pwr) ∧
  (∀ s p c, crustCrcOk c = false ∨ (p, 3) ∉ s.frm.cands → Becomes (.syncAcquired p c) s s)

/-- R69, R79, R86-R93: codewords, channel-tag items and reassembly. -/
def Obligations.DownstreamUnits : Prop :=
  (∀ s u b, framing s = true → 1 ≤ u → u ≤ 1249 →
    Becomes (.codewordDecoded u .clean b) s { s with frm := { s.frm with
      bip := s.frm.bip ^^^ b, units := if u = s.frm.units + 1 then u else s.frm.units } }) ∧
  (∀ s u b, framing s = true → 1 ≤ u → u ≤ 1249 →
    BecomesCounting (.codewordDecoded u .corrected b) 0x0308 0 s { s with frm := { s.frm with
      bip := s.frm.bip ^^^ b, units := if u = s.frm.units + 1 then u else s.frm.units } }) ∧
  -- an uncorrectable codeword of packets loses delineation, and the frame being assembled
  (∀ s u b, framing s = true → 1 ≤ u → u ≤ 1249 → s.frm.region < 50 * u → s.frm.delineated = true →
    ∃ t, exec (.codewordDecoded u .uncorrectable b) s = .next t ∧ t.frm.delineated = false ∧ t.frm.openTag = none ∧
      Counts 0x0309 0 1 s t ∧ Counts 0x0313 0 1 s t ∧ Agree t { s with frm := t.frm }) ∧
  (∀ s u b, framing s = true → 1 ≤ u → u ≤ 1249 → 50 * u ≤ s.frm.region →
    BecomesCounting (.codewordDecoded u .uncorrectable b) 0x0309 0 s { s with frm := { s.frm with
      bip := s.frm.bip ^^^ b, units := if u = s.frm.units + 1 then u else s.frm.units } }) ∧
  -- an item whose HCS fails loses delineation
  (∀ s i, framing s = true → s.frm.delineated = true → i.offset = s.frm.offset → hcsOk i.header = false →
    ∃ t, exec (.channelTagItem i) s = .next t ∧ t.frm.delineated = false ∧ Counts 0x0312 0 1 s t ∧ Counts 0x0313 0 1 s t ∧
      Agree t { s with frm := t.frm }) ∧
  -- the hunt: a first header that checks, and one that follows it
  (∀ s i, framing s = true → s.frm.delineated = false → hcsOk i.header = true → s.frm.firstHdr = false →
    Becomes (.channelTagItem i) s { s with frm := { s.frm with
      firstHdr := true, offset := i.offset + itemUnits i.header } }) ∧
  (∀ s i, framing s = true → s.frm.delineated = false → hcsOk i.header = true → s.frm.firstHdr = true →
    i.offset = s.frm.offset → ∃ t, exec (.channelTagItem i) s = .next t ∧ t.frm.delineated = true) ∧
  -- an idle item only moves on
  (∀ s i, framing s = true → s.frm.delineated = true → i.offset = s.frm.offset → hcsOk i.header = true →
    fld i.header 63 44 = 0xFFFFF →
    Becomes (.channelTagItem i) s { s with frm := { s.frm with
      offset := i.offset + itemUnits i.header, openTag := if bit i.header 28 then none else some 0xFFFFF } }) ∧
  -- a tag without a DOWN entry is discarded and counted
  (∀ s i, framing s = true → s.frm.delineated = true → i.offset = s.frm.offset → hcsOk i.header = true →
    fld i.header 63 44 ≠ 0xFFFFF → fld i.header 26 24 < 4 → on s 40 = true → tagEntry s (fld i.header 63 44) = none →
    BecomesCounting (.channelTagItem i) 0x0316 0 s { s with frm := { s.frm with
      offset := i.offset + itemUnits i.header
      openTag := if bit i.header 28 then none else some (fld i.header 63 44) } }) ∧
  -- a first fragment opens a context of its tag
  (∀ s i e, framing s = true → s.frm.delineated = true → i.offset = s.frm.offset → hcsOk i.header = true →
    fld i.header 63 44 ≠ 0xFFFFF → fld i.header 26 24 ≤ 1 → on s 40 = true → tagEntry s (fld i.header 63 44) = some e →
    tagDown e = true → bit i.header 29 = true → bit i.header 28 = false → mfind s.frm.reasm (fld i.header 63 44) = none →
    s.frm.reasm.length < 256 →
    ∃ t r, exec (.channelTagItem i) s = .next t ∧
      t.frm = { s.frm with
        offset := i.offset + itemUnits i.header, openTag := some (fld i.header 63 44)
        reasm := minsert s.frm.reasm (fld i.header 63 44) r } ∧
      r.bytes = pad (fld i.header 43 30) i.content ∧ r.epoch = bit i.header 27 ∧ r.idle = 0 ∧ r.dead = false ∧
      Agree t { s with frm := t.frm }) ∧
  -- four line frames without a further fragment
  (∀ s tag r, mfind s.frm.reasm tag = some r → 4 ≤ r.idle → r.dead = false →
    BecomesCounting (.reassemblyTimeout tag) 0x0315 0 s { s with frm := { s.frm with reasm := merase s.frm.reasm tag } }) ∧
  (∀ s tag r, mfind s.frm.reasm tag = some r → r.idle < 4 → Becomes (.reassemblyTimeout tag) s s)

/-- R76, R80: a line frame begins with its crust. -/
def Obligations.LineFrameBegins : Prop :=
  (∀ s c st, framing s = true → on s 13 = true → crustCrcOk c = true →
    ∃ t, exec (.crustTaken (some c) st) s = .next t ∧ t.frm.frame = BitVec.ofNat 32 (be c 0 4) ∧ t.frm.haveFrame = true ∧
      t.frm.crustOk = true ∧ t.frm.region = be c 32 3 % 2 ^ 17 ∧ t.frm.delineated = true ∧ t.frm.offset = 0 ∧ t.frm.units = 0 ∧
      t.frm.bip = 0 ∧ t.frm.rxNs = st.ns ∧ t.pwr = s.pwr ∧ t.line = s.line) ∧
  -- one whose CRC-32 fails: the frame number goes on by itself, and the region is that of the active page
  (∀ s c st, framing s = true → on s 13 = true → (∀ x, c = some x → crustCrcOk x = false) →
    ∃ t, exec (.crustTaken c st) s = .next t ∧ t.frm.frame = BitVec.ofNat 32 (s.frm.frame.toNat + 1) ∧
      t.frm.crustOk = false ∧ t.frm.region = pageRegion s ∧ t.frm.delineated = true ∧ t.pf.st = s.pf.st ∧
      t.up.grants = s.up.grants ∧ t.pwr = s.pwr ∧ t.line = s.line) ∧
  -- in a loopback nothing is acted on
  (∀ s c st, framing s = true → on s 13 = true → crustCrcOk c = true → s.line.loop.isSome = true →
    ∃ t, exec (.crustTaken (some c) st) s = .next t ∧ t.pf.st = s.pf.st ∧ t.cir = s.cir ∧ t.tmu = s.tmu ∧
      t.up.grants = s.up.grants) ∧
  (∀ s c st, framing s = false → Becomes (.crustTaken c st) s s)

/-- R99, R103, R108: the build point of the oldest grant. -/
def Obligations.BurstBuildPoint : Prop :=
  -- the burst's content is fixed and its crust made
  (∀ s g r, s.up.grants = g :: r → on s 12 = true → grantUsable s g = true → laserCould s = true → guardFails s g = false →
    ∃ t, ∃ b : Burst, exec .burstBuild s = .next t ∧ t.up.grants = r ∧ t.up.built = s.up.built ++ [{ b with crust := burstCrust b }] ∧
      b.grant = g ∧ b.tid = (if g.discovery then 0 else s.pf.tid) ∧ b.rei = s.up.rei ∧ b.rdi = s.up.rdi ∧
      b.powerWarn = s.pwr.warn ∧ b.endSym = firstSymbol g + burstSpan g ∧ t.up.prevEnd = some b.endSym ∧ t.up.rei = 0 ∧
      t.up.onAir = s.up.onAir ∧ t.line = s.line ∧ t.pwr = s.pwr ∧ t.pf.st = s.pf.st) ∧
  -- a grant that the state no longer uses, or that comes too near the previous burst, is skipped
  (∀ s g r, s.up.grants = g :: r → on s 12 = true → grantUsable s g = false →
    ∃ t, exec .burstBuild s = .next t ∧ t.up.grants = r ∧ t.up.built = s.up.built ∧ t.sch = s.sch ∧ t.pf = s.pf ∧
      t.line = s.line ∧ t.pwr = s.pwr) ∧
  (∀ s g r, s.up.grants = g :: r → on s 12 = true → grantUsable s g = true → laserCould s = true → guardFails s g = true →
    ∃ t, exec .burstBuild s = .next t ∧ t.up.grants = r ∧ t.up.built = s.up.built ∧ t.sch = s.sch ∧ t.pf = s.pf ∧
      t.line = s.line ∧ t.pwr = s.pwr) ∧
  (∀ s, s.up.grants = [] → Becomes .burstBuild s s)

/-- R140-R142: pages are written and sealed by control messages of the head end. -/
def Obligations.CircuitPages : Prop :=
  -- a run is written into the standby page of its slice, which loses its seal and its arming
  (∀ s item, takesContracts s = true → circuitItem item 0x81 (· == 16) = true → writesRefused s = false →
    be (item.drop 8) 0 1 = standbyPage s → be (item.drop 8) 1 1 ≠ 0 →
    let r := runOf (word (be (item.drop 8) 8 8))
    let k := r.circuit % 16
    on s (19 + k) = true → ((slice' s k).page (standbyPage s)).length < 1024 →
    ∃ t, exec (.pageRuns item) s = .next t ∧
      (slice' t k).page (standbyPage s) = (slice' s k).page (standbyPage s) ++ [r] ∧
      (slice' t k).sealed = false ∧ (slice' t k).valid = false ∧ (slice' t k).armed = false ∧
      (∀ j, j ≠ k → slice' t j = slice' s j) ∧ t.cir.active = s.cir.active ∧ Agree t { s with cir := t.cir }) ∧
  -- from a COMMIT to F + 1 it is refused
  (∀ s item, takesContracts s = true → circuitItem item 0x81 (· == 16) = true → writesRefused s = true →
    BecomesCounting (.pageRuns item) 0x0408 0 s s) ∧
  -- a message of another length is counted and ignored
  (∀ s item, takesContracts s = true → be item 1 1 ≠ 0x81 → BecomesCounting (.pageRuns item) 0x03E0 0 s s) ∧
  (∀ s item, takesContracts s = false → Becomes (.pageRuns item) s s ∧ Becomes (.pageSeal item) s s ∧
    Becomes (.circuitRefuse item) s s) ∧
  -- PAGE_SEAL: every slice that is ON validates its standby page, and PAGE_STATUS answers
  (∀ s item, takesContracts s = true → circuitItem item 0x82 (· == 68) = true → be (item.drop 8) 0 1 = standbyPage s →
    ∃ t, exec (.pageSeal item) s = .next t ∧
      (∀ k < 16, on s (19 + k) = true → (slice' t k).sealed = true ∧
        (slice' t k).valid = sliceValid s k (be (item.drop 8) (4 + 4 * k) 4)) ∧
      (∀ k, (slice' t k).page0 = (slice' s k).page0 ∧ (slice' t k).page1 = (slice' s k).page1) ∧
      t.cir.active = s.cir.active ∧ t.up.control.length = s.up.control.length + 1 ∧ t.pwr = s.pwr ∧ t.pf = s.pf ∧
      t.sch = s.sch) ∧
  (∀ s item, takesContracts s = true → circuitItem item 0x82 (· == 68) = false →
    BecomesCounting (.pageSeal item) 0x03E0 0 s s) ∧
  -- CIRCUIT_REFUSE is reported to the host
  (∀ s item, takesContracts s = true → circuitItem item 0x83 (· == 4) = true →
    ∃ t, exec (.circuitRefuse item) s = .next t ∧ Counts 0x0416 0 1 s t ∧ Agree t { s with mbx := t.mbx })

/-- R143-R146: the page switch. -/
def Obligations.PageSwitch : Prop :=
  (∀ s f p, crustUsed s = true → p ≠ s.cir.active → s.cir.announce ≠ some (f, p) →
    ∃ t, exec (.psAnnounce f p) s = .next t ∧ t.cir.announce = some (f, p) ∧ t.cir.commit = none ∧ t.cir.moduleArmed = false ∧
      t.cir.active = s.cir.active ∧ Agree t { s with cir := t.cir }) ∧
  (∀ s f, crustUsed s = true → BecomesCounting (.psAnnounce f s.cir.active) 0x0406 0 s s) ∧
  (∀ s n f, crustUsed s = true → (n + 2) % 2 ^ 32 = f % 2 ^ 32 →
    Becomes (.psCommit n f) s { s with cir := { s.cir with
      commit := some (f % 2 ^ 32), refuseUntil := some ((f + 1) % 2 ^ 32) } }) ∧
  (∀ s n f, crustUsed s = true → (n + 2) % 2 ^ 32 ≠ f % 2 ^ 32 → BecomesCounting (.psCommit n f) 0x030C 0 s s) ∧
  -- CANCEL: disarmed; the standby pages and their seals stay
  (∀ s, crustUsed s = true → ∃ t, exec .psCancel s = .next t ∧ t.cir.announce = none ∧ t.cir.commit = none ∧
    t.cir.moduleArmed = false ∧ t.cir.active = s.cir.active ∧ t.cir.switchAt = s.cir.switchAt ∧
    (∀ k, (slice' t k).page0 = (slice' s k).page0 ∧ (slice' t k).page1 = (slice' s k).page1 ∧
      (slice' t k).sealed = (slice' s k).sealed) ∧ Agree t { s with cir := t.cir }) ∧
  -- arming: with every slice that takes part ON, sealed and valid, the module is armed
  (∀ s f, s.cir.announce = some (f, standbyPage s) → s.cir.commit = none → s.cir.moduleArmed = false →
    (∀ k ∈ takingPart s, on s (19 + k) = true ∧ (slice' s k).sealed = true ∧ (slice' s k).valid = true) →
    ∃ t, exec .psArmed s = .next t ∧ t.cir.moduleArmed = true ∧ (∀ k ∈ takingPart s, (slice' t k).armed = true) ∧
      Agree t { s with cir := t.cir }) ∧
  -- after a COMMIT the set is frozen
  (∀ s, s.cir.commit.isSome = true → Becomes .psArmed s s) ∧
  -- the evaluation at F - 1
  (∀ s n, crustUsed s = true → s.cir.commit = some ((n + 1) % 2 ^ 32) → allArmed s ((n + 1) % 2 ^ 32) = true →
    ∃ t, exec (.psEvaluation n) s = .next t ∧ Counts 0x0403 0 1 s t ∧
      t.cir = { s.cir with commit := none, switchAt := some ((n + 1) % 2 ^ 32) } ∧
      Agree t { s with cir := t.cir, mbx := t.mbx }) ∧
  (∀ s n, crustUsed s = true → s.cir.commit = some ((n + 1) % 2 ^ 32) → allArmed s ((n + 1) % 2 ^ 32) = false →
    ∃ t, exec (.psEvaluation n) s = .next t ∧ t.cir.commit = none ∧ t.cir.switchAt = s.cir.switchAt ∧
      t.cir.abortAt = some ((n + 1) % 2 ^ 32, changedCircuits s) ∧ t.cir.active = s.cir.active ∧ t.pf = s.pf ∧ t.pwr = s.pwr) ∧
  -- at F the standby page is active
  (∀ s f, s.cir.switchAt = some f → ∃ t, exec (.pageActivation f) s = .next t ∧ t.cir.active = standbyPage s ∧
    t.cir.switchAt = none ∧ t.cir.announce = none ∧ t.cir.moduleArmed = false ∧ t.pf = s.pf ∧ t.pwr = s.pwr ∧ t.line = s.line) ∧
  -- ... or the abort defects are entered
  (∀ s f l, s.cir.switchAt ≠ some f → s.cir.abortAt = some (f, l) →
    ∃ t, exec (.pageActivation f) s = .next t ∧ t.cir.active = s.cir.active ∧ t.cir.abortAt = none ∧
      (∀ c ∈ l, (circ t c).abort = true) ∧ t.pf = s.pf ∧ t.pwr = s.pwr)

/-- R131-R138, R149: what a line frame takes upstream of each circuit and brings downstream. -/
def Obligations.CircuitFrames : Prop :=
  -- T(M): one payload of every circuit that the page maps and whose slice is ON
  (∀ s m c, s.pf.st = .pf5 → c < 256 → 0 < blocksOf s (takePage s m) c true → on s (19 + c % 16) = true →
    ∃ t b, exec (.circuitTakePoint m) s = .next t ∧ (m, takePage s m, b) ∈ (circ t c).taken ∧
      4 ≤ b.length ∧ t.cir.active = s.cir.active ∧ t.pf = s.pf ∧ t.pwr = s.pwr ∧ t.sch = s.sch) ∧
  (∀ s m, s.pf.st ≠ .pf5 → Becomes (.circuitTakePoint m) s s) ∧
  -- a downstream frame of a circuit: its payload joins the stream, its BIP-8 waits for the next comparison
  (∀ s c f b, crustUsed s = true → s.pf.st = .pf5 → c < 256 → f = s.frm.frame.toNat → s.frm.crustOk = true →
    0 < blocksOf s s.cir.active c false → b.length = 48 * blocksOf s s.cir.active c false → on s (19 + c % 16) = true →
    ∃ t, exec (.circuitFrameExtracted c f b) s = .next t ∧ (circ t c).rxStream = (circ s c).rxStream ++ b.drop 4 ∧
      (circ t c).bipPrev = some (f, xorAll (b.drop 4)) ∧ t.cir.active = s.cir.active ∧ t.pf = s.pf ∧ t.pwr = s.pwr ∧
      t.sch = s.sch) ∧
  (∀ s c f b, s.pf.st ≠ .pf5 ∨ f ≠ s.frm.frame.toNat → Becomes (.circuitFrameExtracted c f b) s s) ∧
  -- a client data frame in sync that passes every check joins the completed frames
  (∀ s c pli b, c < 256 → on s (19 + c % 16) = true → (circ s c).gfp = .sync → coreCheck (circ s c).rxStream = some pli →
    4 ≤ pli → 4 + pli ≤ (circ s c).rxStream.length →
    gfpFrame (scramble false (circ s c).rxScr (slice (circ s c).rxStream 4 pli)).2 = some b →
    ∃ t p, exec (.gfpFrameReceived c) s = .next t ∧ (circ t c).done = (circ s c).done ++ [(s.frm.frame.toNat, p)] ∧
      p.bytes = b ∧ (circ t c).rxStream = (circ s c).rxStream.drop (4 + pli) ∧ (circ t c).gfp = .sync ∧
      (∀ d, d ≠ c → circ t d = circ s d) ∧ Agree t { s with cir := t.cir }) ∧
  (∀ s c, (circ s c).rxStream.length < 4 → Becomes (.gfpFrameReceived c) s s) ∧
  -- the release point: nothing that is due stays
  (∀ s n, ∃ t, exec (.circuitReleasePoint n) s = .next t ∧
    (∀ c, (circ t c).done = (circ s c).done.filter fun e => 0 < signed 32 (wrap 32 ((e.1 : Int) - n))) ∧
    t.cir.active = s.cir.active ∧ t.pf = s.pf ∧ t.pwr = s.pwr ∧ t.frm = s.frm) ∧
  -- the end of a DS window of the section
  (∀ s, (dsLimits 32 749400 s.cir.ds.k).1 ≤ s.cir.ds.frames → (dsLimits 32 749400 s.cir.ds.k).2.1 ≤ s.cir.ds.errors →
    s.cir.ds.declared = false →
    ∃ t, exec (.dsWindowEnd 0) s = .next t ∧ t.cir = { s.cir with ds := { s.cir.ds with
      frames := 0, errors := 0, declared := true } } ∧ Counts 0x0414 0 1 s t ∧ Agree t { s with cir := t.cir, mbx := t.mbx }) ∧
  (∀ s, s.cir.ds.frames < (dsLimits 32 749400 s.cir.ds.k).1 → Becomes (.dsWindowEnd 0) s s)

/-- R139, R141, R149, R430: the circuit commands of group 0x04. -/
def Obligations.CircuitCommands : Prop :=
  (∀ s ch, Accepted cmdCircuitRequest ch s →
    let w := argOf s ch 1
    Answers (.circuitRequest ch) 0x0401 ch .done s (sendControl 1 1 (natBe 1 (fld w 7 0) ++ [0] ++ natBe 2 (fld w 31 16) ++
      natBe 2 (fld w 47 32) ++ natBe 1 (fld w 53 48) ++ [0]) s)) ∧
  (∀ s ch, Accepted cmdCircuitRelease ch s →
    Answers (.circuitRelease ch) 0x0402 ch .done s (sendControl 1 2 (natBe 1 (fld (argOf s ch 1) 7 0) ++ [0, 0, 0]) s)) ∧
  -- CIRCUIT_BIND to an egress, and to none: its waiting frames are discarded
  (∀ s ch, Accepted cmdCircuitBind ch s → fld (argOf s ch 1) 15 8 ≠ 0xFF →
    ∃ t, exec (.circuitBind ch) s = .next t ∧
      circ t (fld (argOf s ch 1) 7 0) = { circ s (fld (argOf s ch 1) 7 0) with
        egress := some (fld (argOf s ch 1) 15 8), ring := fld (argOf s ch 1) 26 16, q := fld (argOf s ch 1) 38 32 } ∧
      (∀ d, d ≠ fld (argOf s ch 1) 7 0 → circ t d = circ s d) ∧ t.pwr = s.pwr ∧ t.pf = s.pf ∧ t.dma = s.dma) ∧
  (∀ s ch, Accepted cmdCircuitBind ch s → fld (argOf s ch 1) 15 8 = 0xFF →
    ∃ t, exec (.circuitBind ch) s = .next t ∧ (circ t (fld (argOf s ch 1) 7 0)).egress = none ∧
      (circ t (fld (argOf s ch 1) 7 0)).egressQ = [] ∧ fld (argOf s ch 1) 7 0 ∉ t.cir.relOrder ∧
      (∀ d, d ≠ fld (argOf s ch 1) 7 0 → circ t d = circ s d) ∧ t.pwr = s.pwr ∧ t.pf = s.pf) ∧
  (∀ s ch, Accepted cmdCircuitEnable ch s →
    Answers (.circuitEnable ch) 0x0404 ch .done s (setCirc (fld (argOf s ch 1) 7 0)
      { circ s (fld (argOf s ch 1) 7 0) with enabled := bit (argOf s ch 1) 8 } s)) ∧
  -- CIRCUIT_TRACE: the trace sent, or the one expected
  (∀ s ch, Accepted cmdCircuitTrace ch s → bit (argOf s ch 1) 8 = false →
    Answers (.circuitTrace ch) 0x0405 ch .done s (setCirc (fld (argOf s ch 1) 7 0)
      { circ s (fld (argOf s ch 1) 7 0) with traceTx := wordsBytes [argOf s ch 2, argOf s ch 3] } s)) ∧
  (∀ s ch, Accepted cmdCircuitTrace ch s → bit (argOf s ch 1) 8 = true →
    Answers (.circuitTrace ch) 0x0405 ch .done s (setCirc (fld (argOf s ch 1) 7 0)
      { circ s (fld (argOf s ch 1) 7 0) with traceExp := wordsBytes [argOf s ch 2, argOf s ch 3] } s)) ∧
  -- DS_THRESHOLD: a new window starts
  (∀ s ch, Accepted cmdDsThreshold ch s → fld (argOf s ch 1) 15 0 = 0 →
    Answers (.dsThreshold ch) 0x0406 ch .done s { s with cir := { s.cir with ds := { s.cir.ds with
      k := fld (argOf s ch 1) 19 16, frames := 0, errors := 0 } } }) ∧
  -- CIRCUIT_STATUS and PAGE_READ change nothing
  (∀ s ch, Accepted cmdCircuitStatus ch s → ∃ ws, ws.length = 4 ∧
    nth ws 1 0 = word (blocksOf s s.cir.active (fld (argOf s ch 1) 7 0) false +
      at' (blocksOf s s.cir.active (fld (argOf s ch 1) 7 0) true) 32) ∧
    Answers (.circuitStatus ch) 0x0407 ch (.data ws) s s) ∧
  (∀ s ch, Accepted cmdPageRead ch s → ∃ ws, ws.length = 3 ∧
    nth ws 0 0 = word (s.cir.active + at' (b2n s.cir.announce.isSome) 1 + at' (b2n s.cir.commit.isSome) 2
        + at' (sliceBits fun k => (slice' s k).armed) 16 + at' (sliceBits (takesPart s)) 32) ∧
    nth ws 1 0 = word (sliceBits fun k => (slice' s k).valid) ∧ Answers (.pageRead ch) 0x0408 ch (.data ws) s s)

/-- R163-R165: the instructions of the parse engines that compute: one register, or Z and LT, nothing else. -/
def Obligations.ParseComputes : Prop :=
  (∀ s e x rd ra rb, Executes e (.alu .add rd ra rb) s x →
    Becomes (.pAdd e) s (setEngine e ((stepped x).setReg rd (x.reg ra + x.reg rb)) s)) ∧
  (∀ s e x rd ra rb, Executes e (.alu .sub rd ra rb) s x →
    Becomes (.pSub e) s (setEngine e ((stepped x).setReg rd (x.reg ra - x.reg rb)) s)) ∧
  (∀ s e x rd ra rb, Executes e (.alu .and rd ra rb) s x →
    Becomes (.pAnd e) s (setEngine e ((stepped x).setReg rd (x.reg ra &&& x.reg rb)) s)) ∧
  (∀ s e x rd ra rb, Executes e (.alu .or rd ra rb) s x →
    Becomes (.pOr e) s (setEngine e ((stepped x).setReg rd (x.reg ra ||| x.reg rb)) s)) ∧
  (∀ s e x rd ra rb, Executes e (.alu .xor rd ra rb) s x →
    Becomes (.pXor e) s (setEngine e ((stepped x).setReg rd (x.reg ra ^^^ x.reg rb)) s)) ∧
  (∀ s e x rd ra rb, Executes e (.alu .shl rd ra rb) s x →
    Becomes (.pShl e) s (setEngine e ((stepped x).setReg rd (x.reg ra <<< ((x.reg rb).toNat % 64))) s)) ∧
  (∀ s e x rd ra rb, Executes e (.alu .shr rd ra rb) s x →
    Becomes (.pShr e) s (setEngine e ((stepped x).setReg rd (x.reg ra >>> ((x.reg rb).toNat % 64))) s)) ∧
  (∀ s e x rd ra, Executes e (.mov rd ra) s x →
    Becomes (.pMov e) s (setEngine e ((stepped x).setReg rd (x.reg ra)) s)) ∧
  (∀ s e x rd ra n, Executes e (.addi rd ra n) s x →
    Becomes (.pAddi e) s (setEngine e ((stepped x).setReg rd (x.reg ra + word n)) s)) ∧
  (∀ s e x rd ra n, Executes e (.andi rd ra n) s x →
    Becomes (.pAndi e) s (setEngine e ((stepped x).setReg rd (x.reg ra &&& word n)) s)) ∧
  (∀ s e x rd ra n, Executes e (.ori rd ra n) s x →
    Becomes (.pOri e) s (setEngine e ((stepped x).setReg rd (x.reg ra ||| word n)) s)) ∧
  (∀ s e x rd ra n, Executes e (.shli rd ra n) s x →
    Becomes (.pShli e) s (setEngine e ((stepped x).setReg rd (x.reg ra <<< n)) s)) ∧
  (∀ s e x rd ra n, Executes e (.shri rd ra n) s x →
    Becomes (.pShri e) s (setEngine e ((stepped x).setReg rd (x.reg ra >>> n)) s)) ∧
  (∀ s e x rd n, Executes e (.ldi rd n) s x → Becomes (.pLdi e) s (setEngine e ((stepped x).setReg rd (word n)) s)) ∧
  (∀ s e x rd n, Executes e (.ldih rd n) s x →
    Becomes (.pLdih e) s (setEngine e ((stepped x).setReg rd (x.reg rd <<< 18 ||| word n)) s)) ∧
  (∀ s e x rd ra sh n, Executes e (.extr rd ra sh n) s x →
    Becomes (.pExt e) s (setEngine e ((stepped x).setReg rd ((x.reg ra >>> sh) &&& word (2 ^ (n + 1) - 1))) s)) ∧
  (∀ s e x ra rb, Executes e (.cmp ra rb) s x →
    Becomes (.pCmp e) s (setEngine e { stepped x with z := x.reg ra == x.reg rb, lt := decide (x.reg ra < x.reg rb) } s)) ∧
  (∀ s e x ra n, Executes e (.cmpi ra n) s x →
    Becomes (.pCmpi e) s (setEngine e { stepped x with z := x.reg ra == word n, lt := decide (x.reg ra < word n) } s)) ∧
  (∀ s e x rd ra, Executes e (.ffs rd ra) s x →
    Becomes (.pFfs e) s (setEngine e { (stepped x).setReg rd (word (lowestBit (x.reg ra))) with
      z := x.reg ra == 0, lt := false } s)) ∧
  (∀ s e x rd ra bank, Executes e (.rng rd ra bank) s x →
    Becomes (.pRng e) s (setEngine e ((stepped x).setReg rd (rangeMask s x.slot bank ((x.reg ra).toNat % 65536))) s)) ∧
  -- a register written reads as written, and no other changes
  (∀ (x : Engine) n m w, n < x.g.length → (x.setReg n w).reg m = if m = n then w else x.reg m)

/-- R165-R170: branch, loads, the cursor, headers, lengths, patterns, key words and meta fields. -/
def Obligations.ParseMovesAndMarks : Prop :=
  (∀ s e x c a, Executes e (.b c a) s x →
    Becomes (.pB e) s (setEngine e { stepped x with pc := if condHolds x c then a else x.pc + 1 } s)) ∧
  -- a load inside the frame and its window
  (∀ s e x rd size fr off, Executes e (.ld rd size fr off) s x → ((if fr then 0 else x.cur) + off) + 2 ^ size ≤ x.fin →
    ((if fr then 0 else x.cur) + off) + 2 ^ size ≤ 512 →
    Becomes (.pLd e) s (setEngine e ((stepped x).setReg rd
      (word (loadBytes x.packet x.fin (2 ^ size) ((if fr then 0 else x.cur) + off) 0 false).1)) s)) ∧
  (∀ s e x rd ra size, Executes e (.ldx rd ra size) s x → x.cur + (x.reg ra).toNat + 2 ^ size ≤ x.fin →
    x.cur + (x.reg ra).toNat + 2 ^ size ≤ 512 →
    Becomes (.pLdx e) s (setEngine e ((stepped x).setReg rd
      (word (loadBytes x.packet x.fin (2 ^ size) (x.cur + (x.reg ra).toNat) 0 false).1)) s)) ∧
  -- one byte past END reads as zero, is marked and counted
  (∀ s e x rd fr off, Executes e (.ld rd 0 fr off) s x → x.fin ≤ (if fr then 0 else x.cur) + off →
    x.pflags.getLsbD 2 = false →
    BecomesCounting (.pLd e) 0x0505 0 s (setEngine e (((stepped x).flag 2).setReg rd 0) s)) ∧
  (∀ s e x n, Executes e (.adv n) s x →
    Becomes (.pAdv e) s (setEngine e { stepped x with cur := min 16383 (x.cur + n) } s)) ∧
  (∀ s e x ra, Executes e (.advr ra) s x →
    Becomes (.pAdvr e) s (setEngine e { stepped x with cur := min 16383 (x.cur + (x.reg ra).toNat) } s)) ∧
  (∀ s e x c, Executes e (.hdr c) s x → x.hdrs.length < 16 →
    Becomes (.pHdr e) s (setEngine e { stepped x with hdrs := x.hdrs ++ [(c, x.cur)] } s)) ∧
  -- LENCK: a length that ends the frame is good; one beyond it is a conflict
  (∀ s e x ra n, Executes e (.lenck ra n) s x →
    (x.cur : Int) + signed 64 (((x.reg ra).toNat + wrap 64 (signed 18 n)) % 2 ^ 64) = x.fin → x.cur ≤ x.fin →
    Becomes (.pLenck e) s (setEngine e (stepped x) s)) ∧
  (∀ s e x ra n, Executes e (.lenck ra n) s x → x.cur ≤ x.fin →
    (x.fin : Int) < (x.cur : Int) + signed 64 (((x.reg ra).toNat + wrap 64 (signed 18 n)) % 2 ^ 64) →
    BecomesCounting (.pLenck e) 0x0504 0 s (setEngine e ((stepped x).flag 1) s)) ∧
  -- MATCH takes its result once the scan is complete, and waits for it before
  (∀ s e x rd g, Executes e (.matchp rd g) s x → x.matched = true →
    Becomes (.pMatch e) s (setEngine e (giveMatch s rd g (stepped x)) s)) ∧
  (∀ s e x rd g, Executes e (.matchp rd g) s x → x.matched = false → x.steps < 16 →
    Becomes (.pMatch e) s (setEngine e { stepped x with wait := some (rd, g, x.steps) } s)) ∧
  (∀ s e x, engine? s e = some x → x.wait = none →
    Becomes (.matchResultsReady e) s (setEngine e { x with matched := true } s)) ∧
  (∀ s e x rd g n, engine? s e = some x → x.wait = some (rd, g, n) →
    ∃ t, exec (.matchResultsReady e) s = .next t ∧ engine? t e = some (giveMatch s rd g { x with matched := true }) ∧
      Agree t { s with prs := t.prs, free := t.free }) ∧
  (∀ s e x k ra, Executes e (.keyw k ra) s x →
    Becomes (.pKeyw e) s (setEngine e { stepped x with key := x.key.set k (x.reg ra) } s)) ∧
  (∀ s e x f ra cur, Executes e (.metaf f ra cur) s x →
    Becomes (.pMeta e) s (setEngine e { stepped x with facts := setFact f (if cur then word x.cur else x.reg ra) x.facts } s))

/-- R156-R158, R160, R170-R174: a packet enters an engine, its program ends, and packets leave in dispatch order. -/
def Obligations.ParsePrograms : Prop :=
  -- dispatch to the entry of the packet's kind
  (∀ s sd e p s1 v q s2 a, e < 128 → on s (35 + e / 32) = true → parseReady s = true → engine? s e = none →
    nextPacket sd s = some (p, s1) → stampPacket p s1 = some (v, q, s2) → q.kind ≠ .recirc →
    (version (setOrder sd (orderOf s2 sd ++ [e]) s2) v).faulty = false →
    nth (version (setOrder sd (orderOf s2 sd ++ [e]) s2) v).entry (kindCode q.kind) none = some a →
    Becomes (.parseDispatch sd e) s
      (setEngine e { engineEntry sd q v with pc := a } (setOrder sd (orderOf s2 sd ++ [e]) s2))) ∧
  (∀ s sd e, nextPacket sd s = none → Becomes (.parseDispatch sd e) s s) ∧
  (∀ sd p v, (engineEntry sd p v).cur = 0 ∧ (engineEntry sd p v).fin = p.bytes.length ∧
    (engineEntry sd p v).reg 14 = word p.bytes.length ∧ (engineEntry sd p v).reg 15 = sourceWord p ∧
    (engineEntry sd p v).steps = 0 ∧ ∀ n < 13, (engineEntry sd p v).reg n = 0) ∧
  -- a program that ends behind another packet waits for its turn
  (∀ s e x, Executes e .done s x → frontRuns s (orderOf s x.side) → (∀ r, orderOf s x.side ≠ e :: r) → orderOf s x.side ≠ [] →
    Becomes (.pDone e) s (setEngine e { stepped x with ended := some .done } s)) ∧
  (∀ s e x r, Executes e (.exc r) s x → frontRuns s (orderOf s x.side) → (∀ r, orderOf s x.side ≠ e :: r) → orderOf s x.side ≠ [] →
    Becomes (.pExc e) s (setEngine e { stepped x with ended := some (.exc r) } s)) ∧
  (∀ s e x, Executes e .drop s x → frontRuns s (orderOf s x.side) → (∀ r, orderOf s x.side ≠ e :: r) → orderOf s x.side ≠ [] →
    Becomes (.pDrop e) s (setEngine e { stepped x with ended := some .drop } s)) ∧
  -- DONE at the front: the packet goes to lookup with its key words and meta fields
  (∀ s e x r, Executes e .done s x → x.side = .line → x.pflags = 0 → flowReady s = true → s.prs.orderLine = e :: r →
    e ∉ r → frontRuns s r →
    ∃ t, exec (.pDone e) s = .next t ∧ engine? t e = none ∧ t.prs.orderLine = r ∧
      t.flw = { s.flw with inLine := s.flw.inLine ++ [{ x.packet with key := x.key, facts := x.facts, pflags := 0 }] } ∧
      Agree t { s with prs := t.prs, flw := t.flw }) ∧
  -- DROP at the front: discarded and counted
  (∀ s e x r, Executes e .drop s x → x.side = .line → s.prs.orderLine = e :: r → e ∉ r → frontRuns s r →
    ∃ t, exec (.pDrop e) s = .next t ∧ engine? t e = none ∧ t.prs.orderLine = r ∧ t.flw.inLine = s.flw.inLine ∧
      t.pwr = s.pwr ∧ t.pf = s.pf) ∧
  -- the 97th instruction and a word that fails R164 stop the program
  (∀ s e x, engine? s e = some x → x.ended = none → x.wait = none → 96 ≤ x.steps → frontRuns s (orderOf s x.side) →
    (∀ r, orderOf s x.side ≠ e :: r) → orderOf s x.side ≠ [] →
    BecomesCounting (.parseTruncSteps e) 0x0502 0 s (setEngine e (x.truncated 2) s)) ∧
  (∀ s e x, engine? s e = some x → x.steps < 96 → Becomes (.parseTruncSteps e) s s) ∧
  (∀ s e x, engine? s e = some x → x.running = true → fetchP s x = none → frontRuns s (orderOf s x.side) →
    (∀ r, orderOf s x.side ≠ e :: r) → orderOf s x.side ≠ [] →
    BecomesCounting (.badInstruction e) 0x0506 0 s (setEngine e ((x.flag 3).stop) s)) ∧
  (∀ s e x i, Executes e i s x → Becomes (.badInstruction e) s s)

/-- R151-R153: seconds and bins. -/
def Obligations.PerformanceBins : Prop :=
  -- SECOND_BOUNDARY: every entity's second is latched into its current bins, and a defect that holds enters the next
  (∀ s, timeReady s = true → fwWorks s = true → on s 3 = true →
    ∃ t, exec .secondBoundary s = .next t ∧ Agree t { s with perf := t.perf } ∧
      ∀ e ∈ entities, (perf t e).blocks = 0 ∧ (perf t e).errored = 0 ∧ (perf t e).defect = entityDefect s e ∧
        (perf t e).cur15.elapsed = (perf s e).cur15.elapsed + 1 ∧ (perf t e).cur24.elapsed = (perf s e).cur24.elapsed + 1 ∧
        (perf t e).cur15.eb = (perf s e).cur15.eb + (perf s e).errored) ∧
  -- while firmware does not run, a second passes unclassified
  (∀ s, timeReady s = true → fwWorks s = false →
    ∃ t, exec .secondBoundary s = .next t ∧ Agree t { s with perf := t.perf } ∧
      ∀ e ∈ entities, (perf t e).blocks = 0 ∧ (perf t e).errored = 0 ∧ (perf t e).cur15 = (perf s e).cur15 ∧
        (perf t e).cur24 = (perf s e).cur24) ∧
  (∀ s, timeReady s = false → Becomes .secondBoundary s s ∧ (∀ d, Becomes (.binClose d) s s) ∧ Becomes .binFinal s s) ∧
  -- BIN_CLOSE at a multiple of 900 s
  (∀ s, timeReady s = true → on s 3 = true → moduleSecs s % 900 = 0 →
    ∃ t, exec (.binClose false) s = .next t ∧ Agree t { s with perf := t.perf } ∧
      ∀ e ∈ entities, (perf t e).recent = ((perf s e).cur15.close 900 :: (perf s e).recent).take 32 ∧
        (perf t e).cur15 = { binReset with start := moduleSecs s } ∧ (perf t e).cur24 = (perf s e).cur24) ∧
  -- ... and of 86,400 s
  (∀ s, timeReady s = true → on s 3 = true → moduleSecs s % 86400 = 0 →
    ∃ t, exec (.binClose true) s = .next t ∧ Agree t { s with perf := t.perf } ∧
      ∀ e ∈ entities, (perf t e).prev24 = some ((perf s e).cur24.close 86400) ∧
        (perf t e).cur24 = { binReset with start := moduleSecs s } ∧ (perf t e).cur15 = (perf s e).cur15) ∧
  -- BIN_FINAL: a closed bin whose 10 s have passed is provisional no longer
  (∀ s, timeReady s = true → on s 3 = true →
    Becomes .binFinal s { s with perf := mapTab perfReset (fun x => { x with
      recent := x.recent.map (·.settle (moduleSecs s) 900), prev24 := x.prev24.map (·.settle (moduleSecs s) 86400) }) s.perf }) ∧
  (∀ (b : Bin) t len, b.start + len + 10 ≤ t → b.settle t len = { b with provisional := false }) ∧
  (∀ (b : Bin) t len, t < b.start + len + 10 → b.settle t len = b) ∧
  (∀ s ch, Accepted cmdBinRead ch s →
    let e := fld (argOf s ch 1) 15 0
    let n := fld (argOf s ch 1) 23 16
    Answers (.binRead ch) 0x0409 ch (.data (bytesWords 8 (binRecord e n (binOf (perf s e) n)))) s s)

/-- R163, R165: words of parse instructions written out bit by bit. -/
def Obligations.ParseWords : Prop :=
  decodeP 0b00000100010010001100000000000000 = some (.alu .add 1 2 3) ∧
  decodeP 0b00001000010010001100000000000000 = some (.alu .sub 1 2 3) ∧
  decodeP 0b00100000010010000000000000000000 = some (.mov 1 2) ∧
  decodeP 0b00111000010000000000000000000111 = some (.ldi 1 7) ∧
  decodeP 0b01000000010010000001000000000111 = some (.extr 1 2 16 7) ∧
  decodeP 0b01001100010000000000000000001000 = some (.b 1 8) ∧
  decodeP 0b01010000010110000011000000000000 = some (.ld 1 1 true 12) ∧
  decodeP 0b01111000000000000000000000010000 = some (.metaf 0 0 true) ∧
  decodeP 0b01111100000000000000000000000000 = some .done ∧
  decodeP 0b10000000000000000000000010000001 = some (.exc 0x81) ∧
  -- opcode 0, an opcode past the table, a set unused bit and a condition past its range are refused
  decodeP 0 = none ∧ decodeP 0b10001000000000000000000000000000 = none ∧
  decodeP 0b01111100000000000000000000000001 = none ∧ decodeP 0b01001101110000000000000000001000 = none

/-- R163-R165: the decoder reads back every well-formed parse instruction, with every operand at every value it admits. -/
def Obligations.ParseRoundTrip : Prop :=
  (∀ i : PInstr, i.wf = true → decodeP (encodeP i) = some i) ∧
  (∀ w i, decodeP w = some i → encodeP i = w ∧ i.wf = true) ∧
  (∀ i : PInstr, i.wf = true → encodeP i < 2 ^ 32)

/-- R20, R181, R183-R186, R201: the oldest packet of a side is looked up, counted, and goes where its entry or its miss
action sends it. -/
def Obligations.FlowLookups : Prop :=
  -- FORWARD and FIRMWARE: to QUEUE through admission, in the CLASS of the entry
  (∀ sd s p r l e, flowReady s = true → flowQ sd s = p :: r → flowFind s.flw { space := kindCode p.kind, k := p.key } = some l →
    entAt s.flw l = some e → (fld e.ctx.c0 58 56 = 0 ∨ fld e.ctx.c0 58 56 = 3) → schedReady s = true → keepsVersion p s →
    ∃ t, exec (.flowLookup sd) s = .next t ∧ Counts (hitEvent l) 0 1 s t ∧
      Agree t (admitted sd { p with ctx := some e.ctx, queue := some (fld e.ctx.c0 31 14), cls := clsOf (fld e.ctx.c0 55 54),
                                        version := none } (unref p (dequeued sd s)))) ∧
  -- RECIRCULATE: to QUEUE, keeping the version's reference
  (∀ sd s p r l e, flowReady s = true → flowQ sd s = p :: r → flowFind s.flw { space := kindCode p.kind, k := p.key } = some l →
    entAt s.flw l = some e → fld e.ctx.c0 58 56 = 2 → p.kind ≠ .recirc → schedReady s = true →
    ∃ t, exec (.flowLookup sd) s = .next t ∧ Counts 0x060E 0 1 s t ∧
      Agree t (admitted sd { p with ctx := some e.ctx, queue := some (fld e.ctx.c0 31 14), cls := clsOf (fld e.ctx.c0 55 54) }
        (dequeued sd s))) ∧
  -- DROP, by context or by the miss action of the space
  (∀ sd s p r l e, flowReady s = true → flowQ sd s = p :: r → flowFind s.flw { space := kindCode p.kind, k := p.key } = some l →
    entAt s.flw l = some e → fld e.ctx.c0 58 56 = 5 → p.tx = none → p.promise = none → keepsVersion p s →
    ∃ t, exec (.flowLookup sd) s = .next t ∧ Counts 0x0604 0 1 s t ∧ Agree t (unref p (dequeued sd s))) ∧
  (∀ sd s p r, flowReady s = true → flowQ sd s = p :: r → flowFind s.flw { space := kindCode p.kind, k := p.key } = none →
    (missOf p s).1 = 2 → p.tx = none → p.promise = none → keepsVersion p s →
    ∃ t, exec (.flowLookup sd) s = .next t ∧ Counts 0x0603 0 1 s t ∧ Counts 0x0604 0 1 s t ∧
      Agree t (unref p (dequeued sd s))) ∧
  -- a miss whose action is QUEUE: the queue MISS_BASE + PRIO
  (∀ sd s p r, flowReady s = true → flowQ sd s = p :: r → flowFind s.flw { space := kindCode p.kind, k := p.key } = none →
    (missOf p s).1 = 1 → schedReady s = true → keepsVersion p s →
    ∃ t, exec (.flowLookup sd) s = .next t ∧ Counts 0x0603 0 1 s t ∧
      Agree t (admitted sd { p with ctx := none, queue := some ((missOf p s).2 + p.facts.prio), cls := .bestEffort,
                                        version := none } (unref p (dequeued sd s)))) ∧
  -- a default miss, with no ring for its exception: counted, and dropped there
  (∀ sd s p r, flowReady s = true → flowQ sd s = p :: r → flowFind s.flw { space := kindCode p.kind, k := p.key } = none →
    (missOf p s).1 = 0 → exceptionRing s p.kind = none → p.tx = none → keepsVersion p s →
    ∃ t, exec (.flowLookup sd) s = .next t ∧ Counts 0x0603 0 1 s t ∧ Counts 0x0A0D 0 1 s t ∧
      Agree t (unref p (dequeued sd s))) ∧
  -- CIRCUIT: to the circuit's ingress queue, within its limit
  (∀ sd s p r l e k, flowReady s = true → flowQ sd s = p :: r → flowFind s.flw { space := kindCode p.kind, k := p.key } = some l →
    entAt s.flw l = some e → fld e.ctx.c0 58 56 = 1 → p.firstKind ≠ .line → keepsVersion p s →
    on s (19 + fld e.ctx.c0 13 6 % 16) = true → chooseQuad s = some k →
    (((circ s (fld e.ctx.c0 13 6)).ingress.map fun f => gfpLen f + 8).sum) + gfpLen p + 8
      ≤ (circ s (fld e.ctx.c0 13 6)).q * payloadBytes (blocksOf s s.cir.active (fld e.ctx.c0 13 6) true) →
    ∃ t, exec (.flowLookup sd) s = .next t ∧ Counts (hitEvent l) 0 1 s t ∧
      Agree t (setCirc (fld e.ctx.c0 13 6) { circ s (fld e.ctx.c0 13 6) with
        ingress := (circ s (fld e.ctx.c0 13 6)).ingress ++
          [{ p with ctx := some e.ctx, version := none, circuit := some (fld e.ctx.c0 13 6), delivery := .circuit, quadrant := k }] }
        (unref p (dequeued sd s)))) ∧
  (∀ sd s, flowReady s = false ∨ flowQ sd s = [] → Becomes (.flowLookup sd) s s)

/-- R180, R189, R192-R195, R202: the flow table's initialisation and its rehash. -/
def Obligations.FlowRehash : Prop :=
  (∀ s, on s 40 = true → s.flw.inited = false → s.flw.seeded = false →
    Becomes .flowTableInit s { s with free := s.free + 1, flw := { s.flw with
      slots := [], cam := [], tags := [], seed := Config.hwRandom s.free, seeded := true, inited := true } }) ∧
  (∀ s, on s 40 = true → s.flw.inited = false → s.flw.seeded = true →
    Becomes .flowTableInit s { s with flw := { s.flw with slots := [], cam := [], tags := [], inited := true } }) ∧
  (∀ s, on s 40 = false ∨ s.flw.inited = true → Becomes .flowTableInit s s) ∧
  -- AUTO_REHASH_START at 192 CAM entries
  (∀ s, on s 40 = true → s.flw.inited = true → fwWorks s = true → s.flw.auto = true → s.flw.newSeed = none →
    192 ≤ s.flw.cam.length →
    BecomesCounting .autoRehashStart 0x060B 0 s { s with free := s.free + 1, flw := { s.flw with
      newSeed := some (Config.hwRandom s.free), p := 0, stalled := false } }) ∧
  (∀ s, s.flw.cam.length < 192 ∨ s.flw.newSeed ≠ none ∨ s.flw.auto = false → Becomes .autoRehashStart s s) ∧
  -- a pair that migrates whole
  (∀ s sd f k, on s 40 = true → fwWorks s = true → s.flw.newSeed = some sd → s.flw.stalled = false →
    migrateSlots sd (pairSlots s.flw.p) s.flw 0 = (f, k, true) → s.flw.p + 1 ≠ 131072 →
    ∃ t, exec .rehashMigratePair s = .next t ∧ Counts 0x060A 0 k s t ∧
      Agree t { s with flw := { f with p := s.flw.p + 1, stalled := false } }) ∧
  -- the same when a stalled pair finds room
  (∀ s sd f k, on s 40 = true → fwWorks s = true → s.flw.newSeed = some sd → s.flw.stalled = true →
    migrateSlots sd (pairSlots s.flw.p) s.flw 0 = (f, k, true) → s.flw.p + 1 ≠ 131072 →
    ∃ t, exec .rehashRetry s = .next t ∧ Counts 0x060A 0 k s t ∧
      Agree t { s with flw := { f with p := s.flw.p + 1, stalled := false } }) ∧
  -- a pair that finds no room stalls the rehash at P, counted
  (∀ s sd f k, on s 40 = true → fwWorks s = true → s.flw.newSeed = some sd → s.flw.stalled = false →
    migrateSlots sd (pairSlots s.flw.p) s.flw 0 = (f, k, false) →
    ∃ t, exec .rehashMigratePair s = .next t ∧ Counts 0x060C 0 1 s t ∧
      t.flw = { f with stalled := true } ∧ Agree t { s with flw := t.flw, mbx := t.mbx }) ∧
  -- after the last pair the CAM is offered to the slots, and the new seed alone is in use
  (∀ s sd f k, on s 40 = true → fwWorks s = true → s.flw.newSeed = some sd → s.flw.stalled = false →
    migrateSlots sd (pairSlots s.flw.p) s.flw 0 = (f, k, true) → s.flw.p + 1 = 131072 →
    ∃ t, exec .rehashMigratePair s = .next t ∧ t.flw.seed = sd ∧ t.flw.newSeed = none ∧ t.flw.gen = !s.flw.gen ∧
      t.flw.stalled = false ∧ (∀ q ∈ t.mbx.pend, q.wait ≠ .rehash)) ∧
  (∀ s, s.flw.newSeed = none → Becomes .rehashMigratePair s s ∧ Becomes .rehashRetry s s) ∧
  (∀ s, s.flw.stalled = true → Becomes .rehashMigratePair s s) ∧ (∀ s, s.flw.stalled = false → Becomes .rehashRetry s s) ∧
  -- an entry already of the new generation stays where it is; one whose own bucket is a new candidate only changes GEN
  (∀ sd n f e, slotOf f n = some e → genOf e = !f.gen → migrateSlot sd n f = some (f, 0)) ∧
  (∀ sd n f e, slotOf f n = some e → genOf e = f.gen → ((candidates sd e.key).1 = n / 4 ∨ (candidates sd e.key).2 = n / 4) →
    migrateSlot sd n f = some ({ f with slots := minsert f.slots n { e with ctx := stampCtx e.key.space (!f.gen) e.ctx } }, 0))

/-- R182, R187, R190, R192, R432: the flow commands of group 0x06. -/
def Obligations.FlowCommands : Prop :=
  (∀ s ch n f k, Accepted cmdFlowInsert ch s →
    placeEntry (keyArg (msgWords (chan s ch))) (ctxArg (msgWords (chan s ch))) s.flw = some (.slot n, f, k) →
    Answers (.flowInsert ch) 0x0601 ch .done s (ev 0x0606 (count 0x060A 0 k { s with flw := f }))) ∧
  (∀ s ch n f k, Accepted cmdFlowInsert ch s →
    placeEntry (keyArg (msgWords (chan s ch))) (ctxArg (msgWords (chan s ch))) s.flw = some (.cam n, f, k) →
    Answers (.flowInsert ch) 0x0601 ch (.note 0x4601 n) s (ev 0x0607 (ev 0x0606 (count 0x060A 0 k { s with flw := f })))) ∧
  (∀ s ch, Accepted cmdFlowModify ch s →
    ∃ t, exec (.flowModify ch) s = .next t ∧ t.flw.tags = s.flw.tags ∧ t.flw.seed = s.flw.seed ∧
      (∀ n e, slotOf s.flw n = some e → e.key ≠ keyArg (msgWords (chan s ch)) → slotOf t.flw n = some e) ∧
      (∀ n e, slotOf s.flw n = some e → e.key = keyArg (msgWords (chan s ch)) →
        slotOf t.flw n = some { e with ctx := stampCtx e.key.space (genOf e) (ctxArg (msgWords (chan s ch))) })) ∧
  (∀ s ch, Accepted cmdFlowDelete ch s →
    ∃ t, exec (.flowDelete ch) s = .next t ∧ flowFind t.flw (keyArg (msgWords (chan s ch))) = none ∧
      (∀ n e, slotOf s.flw n = some e → e.key ≠ keyArg (msgWords (chan s ch)) → slotOf t.flw n = some e) ∧
      (∀ e ∈ allEnts t.flw, e ∈ allEnts s.flw)) ∧
  (∀ s ch l e, Accepted cmdFlowRead ch s → flowFind s.flw (keyArg (msgWords (chan s ch))) = some l → entAt s.flw l = some e →
    Answers (.flowRead ch) 0x0604 ch (.data [e.ctx.c0, e.ctx.c1, e.ctx.c2,
      word (match l with | .slot n => n | .cam n => 2 ^ 20 + n)]) s s) ∧
  (∀ s ch, Accepted cmdTagSet ch s →
    ∃ t, exec (.tagSet ch) s = .next t ∧ tagEntry t (fld (argOf s ch 1) 63 44) = some (argOf s ch 1) ∧
      (∀ g, g ≠ fld (argOf s ch 1) 63 44 → tagEntry t g = tagEntry s g) ∧ t.pwr = s.pwr ∧ t.pf = s.pf ∧ t.sch = s.sch) ∧
  (∀ s ch, Accepted cmdTagRemove ch s →
    ∃ t, exec (.tagRemove ch) s = .next t ∧ tagEntry t (fld (argOf s ch 1) 19 0) = none ∧
      mfind t.frm.reasm (fld (argOf s ch 1) 19 0) = none ∧
      (∀ g, g ≠ fld (argOf s ch 1) 19 0 → tagEntry t g = tagEntry s g) ∧ t.pwr = s.pwr ∧ t.pf = s.pf ∧ t.sch = s.sch) ∧
  (∀ s ch, Accepted cmdRehash ch s → bit (argOf s ch 1) 0 = true →
    Answers (.rehash ch) 0x0607 ch (.pend .rehash) s (ev 0x060B { s with flw := { s.flw with
      newSeed := some (argOf s ch 2), p := 0, stalled := false } })) ∧
  (∀ s ch, Accepted cmdRehash ch s → bit (argOf s ch 1) 0 = false →
    Answers (.rehash ch) 0x0607 ch (.pend .rehash) s (ev 0x060B { s with free := s.free + 1, flw := { s.flw with
      newSeed := some (Config.hwRandom s.free), p := 0, stalled := false } })) ∧
  (∀ s ch, Accepted cmdAutoRehash ch s →
    Answers (.autoRehash ch) 0x0608 ch .done s { s with flw := { s.flw with auto := bit (argOf s ch 1) 0 } }) ∧
  (∀ s ch, Accepted cmdFlowTableRead ch s →
    Answers (.flowTableRead ch) 0x0609 ch (.data [s.flw.seed, s.flw.newSeed.getD 0,
      word (b2n s.flw.gen + at' (b2n s.flw.newSeed.isSome) 1 + at' (b2n s.flw.stalled) 2 + at' (s.flw.p % 2 ^ 18) 3),
      word (validCount s.flw + at' s.flw.cam.length 32)]) s s)

/-- R175, R196, R197, R431: opening a batch and writing its content. -/
def Obligations.BatchContent : Prop :=
  -- the first batch is built empty in slot 0, one number higher than the last
  (∀ s ch, Accepted cmdBatchOpen ch s → currentSlot s = none →
    Answers (.batchOpen ch) 0x0501 ch (.data [word 0, word ((s.prs.lastBatch + 1) % 2 ^ 32)]) s { s with prs := { s.prs with
      v0 := { versionReset with st := .building, batch := (s.prs.lastBatch + 1) % 2 ^ 32 } } }) ∧
  -- with slot 0 current and slot 1 FREE: a copy in slot 1, every entry shared
  (∀ s ch, Accepted cmdBatchOpen ch s → s.prs.v0.st = .current → s.prs.v1.st ≠ .draining → s.prs.v0.faulty = false →
    ∃ t, exec (.batchOpen ch) s = .next t ∧ t.prs.v0 = s.prs.v0 ∧
      t.prs.v1 = { s.prs.v0 with st := .building, batch := (s.prs.lastBatch + 1) % 2 ^ 32, faulty := false, refs := 0,
                                 commitAt := none } ∧
      (∀ e ∈ t.prs.prog, e.2.h1 = e.2.h0) ∧ (∀ e ∈ t.prs.comps, e.2.h1 = e.2.h0) ∧ (∀ e ∈ t.prs.pats, e.2.h1 = e.2.h0) ∧
      Agree t { s with prs := t.prs, mbx := t.mbx }) ∧
  -- the same with the slots exchanged
  (∀ s ch, Accepted cmdBatchOpen ch s → s.prs.v1.st = .current → s.prs.v0.st ≠ .current → s.prs.v0.st ≠ .draining →
    s.prs.v1.faulty = true →
    ∃ t, exec (.batchOpen ch) s = .next t ∧ t.prs.v1 = s.prs.v1 ∧
      t.prs.v0 = { versionReset with st := .building, batch := (s.prs.lastBatch + 1) % 2 ^ 32 } ∧
      t.prs.prog = s.prs.prog ∧ Agree t { s with prs := t.prs, mbx := t.mbx }) ∧
  (∀ s ch, Accepted cmdBatchOpen ch s → s.prs.v0.st = .current → s.prs.v1.st = .draining →
    Answers (.batchOpen ch) 0x0501 ch (.pend .batchOpen) s s) ∧
  -- BATCH_PROGRAM writes its words, held by the BUILDING version alone, and no other
  (∀ s ch, Accepted cmdBatchProgram ch s →
    ∃ t, exec (.batchProgram ch) s = .next t ∧
      (∀ k, k < progCount (msgWords (chan s ch)) → pword t (fld (argOf s ch 1) 44 32 + k) =
        { w := progWord (msgWords (chan s ch)) k, h0 := (buildingSlot s).getD 0 == 0, h1 := (buildingSlot s).getD 0 != 0 }) ∧
      (∀ a, a < fld (argOf s ch 1) 44 32 ∨ fld (argOf s ch 1) 44 32 + progCount (msgWords (chan s ch)) ≤ a →
        pword t a = pword s a) ∧
      t.prs.v0 = s.prs.v0 ∧ t.prs.v1 = s.prs.v1 ∧ t.prs.comps = s.prs.comps ∧ t.prs.pats = s.prs.pats) ∧
  -- BATCH_RANGE
  (∀ s ch, Accepted cmdBatchRange ch s →
    ∃ t, exec (.batchRange ch) s = .next t ∧
      (∀ k, k < rangeCount (msgWords (chan s ch)) → comparator t (fld (argOf s ch 1) 39 32 + k) =
        { lo := fld (argOf s ch (2 + k)) 15 0, hi := fld (argOf s ch (2 + k)) 31 16,
          h0 := (buildingSlot s).getD 0 == 0, h1 := (buildingSlot s).getD 0 != 0 }) ∧
      (∀ n, n < fld (argOf s ch 1) 39 32 ∨ fld (argOf s ch 1) 39 32 + rangeCount (msgWords (chan s ch)) ≤ n →
        comparator t n = comparator s n) ∧
      t.prs.v0 = s.prs.v0 ∧ t.prs.v1 = s.prs.v1 ∧ t.prs.prog = s.prs.prog ∧ t.prs.pats = s.prs.pats) ∧
  -- BATCH_PATTERN
  (∀ s ch, Accepted cmdBatchPattern ch s →
    ∃ t, exec (.batchPattern ch) s = .next t ∧
      pattern t (fld (argOf s ch 1) 43 32) =
        { value := pad 32 ((wordsBytes ((msgWords (chan s ch)).drop 3)).take 32),
          mask := pad 32 ((wordsBytes ((msgWords (chan s ch)).drop 3)).drop 32), length := fld (argOf s ch 1) 55 50,
          group := fld (argOf s ch 1) 49 44, start := fld (argOf s ch 2) 10 0, stop := fld (argOf s ch 2) 26 16,
          h0 := (buildingSlot s).getD 0 == 0, h1 := (buildingSlot s).getD 0 != 0 } ∧
      (∀ n, n ≠ fld (argOf s ch 1) 43 32 → pattern t n = pattern s n) ∧ t.prs.prog = s.prs.prog ∧ t.prs.comps = s.prs.comps) ∧
  -- BATCH_ENTRY and BATCH_ACTIONS write the BUILDING version's own fields
  (∀ s ch v, Accepted cmdBatchEntry ch s → buildingSlot s = some v →
    Answers (.batchEntry ch) 0x0503 ch .done s (setVersion v { version s v with entry := (List.range 5).map (fun k =>
      if bit (argOf s ch (2 + k)) 63 = true then some (fld (argOf s ch (2 + k)) 12 0) else none) } s)) ∧
  (∀ s ch v, Accepted cmdBatchActions ch s → buildingSlot s = some v →
    Answers (.batchActions ch) 0x0506 ch .done s (setVersion v { version s v with
      actions := (List.range 3).map fun k => fld (argOf s ch 2) (2 * k + 1) (2 * k)
      miss := (List.range 5).map fun k => (fld (argOf s ch (3 + k)) 1 0, fld (argOf s ch (3 + k)) 19 2) } s)) ∧
  -- BATCH_DROP of program words: the BUILDING version holds them no longer
  (∀ s ch v, Accepted cmdBatchDrop ch s → buildingSlot s = some v → fld (argOf s ch 1) 33 32 = 0 →
    ∃ t, exec (.batchDrop ch) s = .next t ∧
      (∀ k, k < fld (argOf s ch 2) 28 16 → (pword t (fld (argOf s ch 2) 12 0 + k)).heldBy v = false ∧
        (pword t (fld (argOf s ch 2) 12 0 + k)).heldBy (1 - v) = (pword s (fld (argOf s ch 2) 12 0 + k)).heldBy (1 - v)) ∧
      t.prs.comps = s.prs.comps ∧ t.prs.pats = s.prs.pats ∧ t.prs.v0 = s.prs.v0 ∧ t.prs.v1 = s.prs.v1)

/-- R197-R199, R431: committing a batch at once and at a named time, abandoning it, reading the versions. -/
def Obligations.BatchCommit : Prop :=
  -- the first commit: no version was current
  (∀ s ch v, Accepted cmdBatchCommit ch s → argOf s ch 2 = 0 → buildingSlot s = some v → currentSlot s = none →
    ∃ t, exec (.batchCommit ch) s = .next t ∧ version t v = { version s v with st := .current, commitAt := none } ∧
      t.prs.committed = true ∧ t.prs.lastBatch = (version s v).batch ∧ Agree t { s with prs := t.prs, mbx := t.mbx }) ∧
  -- a later one: the former current version drains its references, or is FREE with none
  (∀ s ch v c, Accepted cmdBatchCommit ch s → argOf s ch 2 = 0 → buildingSlot s = some v → currentSlot s = some c →
    (version s c).refs ≠ 0 →
    ∃ t, exec (.batchCommit ch) s = .next t ∧ version t v = { version s v with st := .current, commitAt := none } ∧
      version t c = { version s c with st := .draining } ∧ t.prs.lastBatch = (version s v).batch ∧
      Agree t { s with prs := t.prs, mbx := t.mbx }) ∧
  (∀ s ch v c, Accepted cmdBatchCommit ch s → argOf s ch 2 = 0 → buildingSlot s = some v → currentSlot s = some c →
    (version s c).refs = 0 → waiting s .batchOpen = false →
    ∃ t, exec (.batchCommit ch) s = .next t ∧ version t v = { version s v with st := .current, commitAt := none } ∧
      version t c = versionReset ∧ Agree t { s with prs := t.prs, mbx := t.mbx }) ∧
  -- at a named time: PENDING until then, and done at it
  (∀ s ch v, Accepted cmdBatchCommit ch s → argOf s ch 2 ≠ 0 → buildingSlot s = some v →
    Answers (.batchCommit ch) 0x0508 ch (.pend .batchCommit) s
      (setVersion v { version s v with commitAt := some (argOf s ch 2).toNat } s)) ∧
  (∀ s v c n, buildingSlot s = some v → currentSlot s = some c → (version s v).commitAt = some n → on s 39 = true →
    timeReady s = true → n ≤ s.tmu.ns → (version s c).refs ≠ 0 →
    ∃ t, exec .batchTimedCommit s = .next t ∧ version t v = { version s v with st := .current, commitAt := none } ∧
      version t c = { version s c with st := .draining } ∧ (∀ q ∈ t.mbx.pend, q.wait ≠ .batchCommit)) ∧
  (∀ s v n, buildingSlot s = some v → (version s v).commitAt = some n → s.tmu.ns < n → Becomes .batchTimedCommit s s) ∧
  (∀ s, (∀ v, buildingSlot s = some v → (version s v).commitAt = none) → Becomes .batchTimedCommit s s) ∧
  -- BATCH_ABANDON: the slot becomes FREE
  (∀ s ch v, Accepted cmdBatchAbandon ch s → buildingSlot s = some v →
    ∃ t, exec (.batchAbandon ch) s = .next t ∧ version t v = versionReset ∧ version t (1 - v) = version s (1 - v) ∧
      (∀ e ∈ t.prs.prog, e.2.heldBy v = false) ∧ (∀ e ∈ t.prs.comps, e.2.heldBy v = false) ∧
      (∀ e ∈ t.prs.pats, e.2.heldBy v = false) ∧ Agree t { s with prs := t.prs, mbx := t.mbx }) ∧
  (∀ s ch, Accepted cmdVersionRead ch s →
    Answers (.versionRead ch) 0x050A ch (.data [versionWord s.prs.v0, versionWord s.prs.v1,
      word (s.prs.v0.refs % 2 ^ 32 + at' (s.prs.v1.refs % 2 ^ 32) 32)]) s s)

/-- R26, R206, R211, R224: a non-timed frame meets the buffer checks in order; the first that refuses it counts it and
discards it, and a frame that passes them joins its queue. -/
def Obligations.BufferChecks : Prop :=
  -- check 1: the queue is enabled and not parked
  (∀ sd s p r, schedReady s = true → admQ sd s = p :: r → p.cls ≠ .timed → Unclaimed p s →
    (queue s (p.queue.getD 0)).enable = false →
    ∃ t, exec (.bufferEnqueue sd) s = .next t ∧ Counts 0x0701 0 1 s t ∧ Agree t (unref p (admTaken sd s))) ∧
  (∀ sd s p r, schedReady s = true → admQ sd s = p :: r → p.cls ≠ .timed → Unclaimed p s →
    (queue s (p.queue.getD 0)).enable = true → (queue s (p.queue.getD 0)).parked = true →
    ∃ t, exec (.bufferEnqueue sd) s = .next t ∧ Counts 0x0705 0 1 s t ∧ Agree t (unref p (admTaken sd s))) ∧
  -- check 2: a parked policer drops every frame
  (∀ sd s p r c, schedReady s = true → admQ sd s = p :: r → p.cls ≠ .timed → Unclaimed p s →
    (queue s (p.queue.getD 0)).enable = true → (queue s (p.queue.getD 0)).parked = false →
    p.ctx = some c → bit c.c1 63 = true → fld c.c0 58 56 ≠ 2 → (policer s (fld c.c1 62 47)).parked = true →
    ∃ t, exec (.bufferEnqueue sd) s = .next t ∧ Counts 0x0705 0 1 s t ∧ Agree t (unref p (admTaken sd s))) ∧
  -- check 3, of a frame without a policer: LIMIT
  (∀ sd s p r, schedReady s = true → admQ sd s = p :: r → p.cls ≠ .timed → Unclaimed p s →
    (queue s (p.queue.getD 0)).enable = true → (queue s (p.queue.getD 0)).parked = false → p.ctx = none → p.yellow = false →
    (queue s (p.queue.getD 0)).limit < occupancy (queue s (p.queue.getD 0)) + cells p →
    ∃ t, exec (.bufferEnqueue sd) s = .next t ∧ Counts 0x0702 0 1 s t ∧ Agree t (unref p (admTaken sd s))) ∧
  -- check 4: a quadrant that is ready; check 5: cells beyond the reserve
  (∀ sd s p r k, schedReady s = true → admQ sd s = p :: r → p.cls ≠ .timed → Unclaimed p s →
    (queue s (p.queue.getD 0)).enable = true → (queue s (p.queue.getD 0)).parked = false → p.ctx = none → p.yellow = false →
    occupancy (queue s (p.queue.getD 0)) + cells p ≤ (queue s (p.queue.getD 0)).limit → chooseQuad s = some k →
    freeCells s k ≤ s.sch.reserve + cells p →
    ∃ t, exec (.bufferEnqueue sd) s = .next t ∧ Counts 0x0704 0 1 s t ∧ Agree t (unref p (admTaken sd s))) ∧
  (∀ sd s p r k, schedReady s = true → admQ sd s = p :: r → p.cls ≠ .timed →
    (queue s (p.queue.getD 0)).enable = true → (queue s (p.queue.getD 0)).parked = false → p.ctx = none → p.yellow = false →
    occupancy (queue s (p.queue.getD 0)) + cells p ≤ (queue s (p.queue.getD 0)).limit → chooseQuad s = some k →
    s.sch.reserve + cells p < freeCells s k →
    ∃ t, exec (.bufferEnqueue sd) s = .next t ∧
      (queue t (p.queue.getD 0)).frames = (queue s (p.queue.getD 0)).frames ++ [{ p with quadrant := k }] ∧
      (∀ q, q ≠ p.queue.getD 0 → (queue t q).frames = (queue s q).frames) ∧
      (∀ q, (queue t q).shaper = (queue s q).shaper) ∧ t.cir = s.cir ∧ t.flw = s.flw ∧ t.prs = s.prs) ∧
  -- no frame, a timed frame, or a scheduler that is not ready
  (∀ sd s, schedReady s = false ∨ admQ sd s = [] ∨ (∃ p r, admQ sd s = p :: r ∧ p.cls = .timed) →
    Becomes (.bufferEnqueue sd) s s) ∧
  -- the policer's colours: green from CBS, yellow from EBS, red for neither; a rate refills no bucket beyond its size
  (∀ n b s, b * 65536 ≤ ((policer s n).refill s).tc → (measure n b s).1 = .green ∧
    policer (measure n b s).2 n = { (policer s n).refill s with tc := ((policer s n).refill s).tc - b * 65536 }) ∧
  (∀ n b s, ((policer s n).refill s).tc < b * 65536 → b * 65536 ≤ ((policer s n).refill s).te → (measure n b s).1 = .yellow ∧
    policer (measure n b s).2 n = { (policer s n).refill s with te := ((policer s n).refill s).te - b * 65536 }) ∧
  (∀ n b s, ((policer s n).refill s).tc < b * 65536 → ((policer s n).refill s).te < b * 65536 →
    (measure n b s).1 = .red ∧ policer (measure n b s).2 n = (policer s n).refill s) ∧
  (∀ s (x : Policer), (x.refill s).tc ≤ x.cbs * 65536 ∧ (x.refill s).te ≤ x.ebs * 65536)

/-- R17, R212, R246, R249, R271: a port node whose destination has credit serves circuits, then timed frames, then assured,
then best effort; here client port n's node, 64 + n. -/
def Obligations.PortSelection : Prop :=
  (∀ s n c p, schedReady s = true → n < 4 → destOpen s (64 + n) = true → circuitPick s (64 + n) = some (c, p) →
    on s 18 = true → (cport s n).up = true →
    ∃ t, exec (.schedulerSelection (64 + n)) s = .next t ∧ (cport t n).tx = (cport s n).tx ++ [p] ∧
      (∀ k, k ≠ n → (cport t k).tx = (cport s k).tx) ∧ (circ t c).egressQ = (circ s c).egressQ.drop 1 ∧
      t.sch = s.sch ∧ creditsSpent t (portKey (64 + n)) = creditsSpent s (portKey (64 + n)) + beats p) ∧
  (∀ s n q p, schedReady s = true → n < 4 → destOpen s (64 + n) = true → circuitPick s (64 + n) = none →
    timedPick s (64 + n) = some (q, p) → gateSays s (64 + n) 2 p = .go → on s 18 = true → (cport s n).up = true →
    ∃ t, exec (.schedulerSelection (64 + n)) s = .next t ∧ (cport t n).tx = (cport s n).tx ++ [p] ∧
      (∀ k, k ≠ n → (cport t k).tx = (cport s k).tx) ∧ (queue t q).frames = (queue s q).frames.drop 1 ∧
      (∀ k, k ≠ q → (queue t k).frames = (queue s k).frames) ∧ t.cir = s.cir ∧
      creditsSpent t (portKey (64 + n)) = creditsSpent s (portKey (64 + n)) + beats p) ∧
  (∀ s n q path p, schedReady s = true → n < 4 → destOpen s (64 + n) = true → circuitPick s (64 + n) = none →
    timedPick s (64 + n) = none → fairPath s .assured (64 + n) = .queue q :: path → (queue s q).frames.head? = some p →
    gateSays s (64 + n) 1 p = .go → on s 18 = true → (cport s n).up = true →
    ∃ t, exec (.schedulerSelection (64 + n)) s = .next t ∧ (cport t n).tx = (cport s n).tx ++ [p] ∧
      (queue t q).frames = (queue s q).frames.drop 1 ∧ (∀ k, k ≠ q → (queue t k).frames = (queue s k).frames) ∧
      t.cir = s.cir ∧ creditsSpent t (portKey (64 + n)) = creditsSpent s (portKey (64 + n)) + beats p) ∧
  -- nothing that may go, no credit, a grant stream's node, a scheduler that is not ready
  (∀ s n, schedReady s = true → n < 4 → circuitPick s (64 + n) = none → timedPick s (64 + n) = none →
    fairPath s .assured (64 + n) = [] → fairPath s .bestEffort (64 + n) = [] →
    Becomes (.schedulerSelection (64 + n)) s s) ∧
  (∀ s n, n < 4 → destOpen s (64 + n) = false → Becomes (.schedulerSelection (64 + n)) s s) ∧
  (∀ s n, n < 64 ∨ 85 < n ∨ schedReady s = false → Becomes (.schedulerSelection n) s s) ∧
  -- CREDIT_RETURN gives one unit back to the interface
  (∀ s (f : Iface), f.inst < ifaceInsts f.block f.i →
    ∃ t, exec (.creditReturn f) s = .next t ∧ Agree t { s with spent := t.spent } ∧
      creditsSpent t (ifaceKey f.block f.i f.inst) = creditsSpent s (ifaceKey f.block f.i f.inst) - 1 ∧
      ∀ k, k ≠ ifaceKey f.block f.i f.inst → creditsSpent t k = creditsSpent s k) ∧
  (∀ s (f : Iface), ifaceInsts f.block f.i ≤ f.inst → Becomes (.creditReturn f) s s)

/-- R219-R222: the calendar. -/
def Obligations.Calendar : Prop :=
  -- a fine slot that has begun releases every node it holds, and no other
  (∀ s slot, schedReady s = true →
    ∃ t, exec (.calendarRelease slot) s = .next t ∧
      (∀ i, i ∈ items s → fineDue s slot (shaperOf s i) = true → shaperOf t i = { shaperOf s i with cal := .none }) ∧
      (∀ i, i ∈ items s → fineDue s slot (shaperOf s i) = false → shaperOf t i = shaperOf s i) ∧
      (∀ q, (queue t q).frames = (queue s q).frames) ∧ t.cir = s.cir ∧ t.prt.mode = s.prt.mode) ∧
  -- a coarse slot that begins moves its nodes to the fine wheel
  (∀ s slot, schedReady s = true →
    ∃ t, exec (.coarseSlotStart slot) s = .next t ∧
      (∀ i, i ∈ items s → (shaperOf s i).cal = .coarse slot → (shaperOf s i).eligible < schedNs s + 262144 →
        shaperOf t i = { shaperOf s i with cal := .fine (((shaperOf s i).eligible + 63) / 64 % 4096) }) ∧
      (∀ i, i ∈ items s → (shaperOf s i).cal ≠ .coarse slot → shaperOf t i = shaperOf s i) ∧
      (∀ q, (queue t q).frames = (queue s q).frames)) ∧
  -- each revolution of the coarse wheel takes in the parked nodes with a rate
  (∀ s, schedReady s = true →
    ∃ t, exec .coarseRevolution s = .next t ∧
      (∀ i, i ∈ items s → (shaperOf s i).cal = .parked → shapes (shaperOf s i) = true →
        shaperOf t i = { shaperOf s i with cal := wheelFor (schedNs s) (shaperOf s i).eligible }) ∧
      (∀ i, i ∈ items s → (shaperOf s i).cal ≠ .parked → shaperOf t i = shaperOf s i) ∧
      (∀ q, (queue t q).frames = (queue s q).frames)) ∧
  (∀ s n, schedReady s = false → Becomes (.calendarRelease n) s s ∧ Becomes (.coarseSlotStart n) s s ∧
    Becomes .coarseRevolution s s) ∧
  -- the wheel that takes an eligible time: within 262,144 ns, within 1,073,741,824 ns, or parked
  (∀ now e, e < now + 262144 → wheelFor now e = .fine ((e + 63) / 64 % 4096)) ∧
  (∀ now e, now + 262144 ≤ e → e ≤ now + 1073741824 → wheelFor now e = .coarse (e / 262144 % 4096)) ∧
  (∀ now e, now + 1073741824 < e → wheelFor now e = .parked) ∧
  -- a charge takes the accounting length from the level
  (∀ s l (x : Shaper), shapes x = true → (x.charge s l).level = x.now s - ((l * 65536 : Nat) : Int) ∧
    ((x.charge s l).cal = .none ↔ ((l * 65536 : Nat) : Int) ≤ x.now s)) ∧
  (∀ s (x : Shaper), shapes x = true → x.now s ≤ ((x.burst * 65536 : Nat) : Int))

/-- R206-R209, R211, R219, R221, R224, R225, R433: the commands of group 0x07. The fair-queuing tags, which follow every
change of them (R216), are left aside where a node is compared. -/
def Obligations.QueueCommands : Prop :=
  (∀ s ch, Accepted cmdQueueSet ch s →
    let w1 := argOf s ch 1
    let w3 := argOf s ch 3
    let w4 := argOf s ch 4
    let x := queue s (fld w1 17 0)
    ∃ t, exec (.queueSet ch) s = .next t ∧
      { queue t (fld w1 17 0) with tags := tagsReset } = { x with
        enable := bit w1 18, parent := fld w1 32 19, cls := clsOf (fld w1 34 33), weight := fld w1 46 35
        limit := fld w3 17 0, yellow := fld w3 35 18, lateDrop := bit w4 0, tolerance := fld w4 12 1
        acceptReport := bit w4 13, tags := tagsReset
        ring := if bit w4 27 = true then some (fld w4 26 16)
          else if isGroup (portOfSub s (fld w1 32 19)) = true then x.ring else none
        shaper := x.shaper.reshape s (fld (argOf s ch 2) 31 0) (fld (argOf s ch 2) 55 32) } ∧
      (∀ k, k ≠ fld w1 17 0 → { queue t k with tags := tagsReset } = { queue s k with tags := tagsReset }) ∧
      t.cir = s.cir ∧ t.flw = s.flw ∧ t.pwr = s.pwr) ∧
  (∀ s ch, Accepted cmdSubscriberSet ch s →
    let w1 := argOf s ch 1
    ∃ t, exec (.subscriberSet ch) s = .next t ∧
      { subNode t (fld w1 13 0) with assured := tagsReset, best := tagsReset } = { subNode s (fld w1 13 0) with
        parent := fld w1 24 14, weight := fld w1 36 25, policer := fld w1 53 37, assured := tagsReset, best := tagsReset
        shaper := (subNode s (fld w1 13 0)).shaper.reshape s (fld (argOf s ch 2) 31 0) (fld (argOf s ch 2) 55 32) } ∧
      (∀ k, k ≠ fld w1 13 0 → { subNode t k with assured := tagsReset, best := tagsReset } =
        { subNode s k with assured := tagsReset, best := tagsReset }) ∧
      (∀ q, (queue t q).frames = (queue s q).frames) ∧ t.cir = s.cir ∧ t.flw = s.flw ∧ t.pwr = s.pwr) ∧
  (∀ s ch, Accepted cmdServiceSet ch s →
    let w1 := argOf s ch 1
    ∃ t, exec (.serviceSet ch) s = .next t ∧
      { svcNode t (fld w1 10 0) with assured := tagsReset, best := tagsReset } = { svcNode s (fld w1 10 0) with
        parent := fld w1 17 11, weight := fld w1 29 18, assured := tagsReset, best := tagsReset
        shaper := (svcNode s (fld w1 10 0)).shaper.reshape s (fld (argOf s ch 2) 31 0) (fld (argOf s ch 2) 55 32) } ∧
      (∀ k, k ≠ fld w1 10 0 → { svcNode t k with assured := tagsReset, best := tagsReset } =
        { svcNode s k with assured := tagsReset, best := tagsReset }) ∧
      (∀ q, (queue t q).frames = (queue s q).frames) ∧ t.cir = s.cir ∧ t.flw = s.flw ∧ t.pwr = s.pwr) ∧
  (∀ s ch, Accepted cmdPortShaperSet ch s →
    let n := fld (argOf s ch 1) 6 0
    ∃ t, exec (.portShaperSet ch) s = .next t ∧
      shaperOf t (.port n) = (portNode s n).shaper.reshape s (fld (argOf s ch 2) 31 0) (fld (argOf s ch 2) 55 32) ∧
      (∀ i, i ≠ .port n → shaperOf t i = shaperOf s i) ∧ (∀ q, (queue t q).frames = (queue s q).frames) ∧ t.pwr = s.pwr) ∧
  (∀ s ch, Accepted cmdPolicerSet ch s →
    let n := fld (argOf s ch 1) 15 0
    let x := (policer s n).refill s
    Answers (.policerSet ch) 0x0705 ch .done s (setPolicer n { x with
      cir := fld (argOf s ch 2) 31 0, cbs := fld (argOf s ch 2) 55 32
      eir := fld (argOf s ch 3) 31 0, ebs := fld (argOf s ch 3) 55 32, yellowDrop := bit (argOf s ch 1) 16
      tc := min x.tc (fld (argOf s ch 2) 55 32 * 65536), te := min x.te (fld (argOf s ch 3) 55 32 * 65536) } s)) ∧
  -- RESET of a policer; of a node's bucket; of a queue as a node
  (∀ s ch, Accepted cmdReset ch s → fld (argOf s ch 1) 2 0 = 4 →
    let i := fld (argOf s ch 1) 31 8
    Answers (.resetCmd ch) 0x0706 ch .done s (setPolicer i { policer s i with
      tc := 0, te := 0, at45 := s.sch.time45, parked := (policer s i).parked && !bit (argOf s ch 1) 3 } s)) ∧
  (∀ s ch, Accepted cmdReset ch s → fld (argOf s ch 1) 2 0 ≠ 4 → bit (argOf s ch 1) 3 = false →
    ∃ t, exec (.resetCmd ch) s = .next t ∧
      (shaperOf t (resetItem (fld (argOf s ch 1) 2 0) (fld (argOf s ch 1) 31 8))).level = 0 ∧
      (∀ i, i ≠ resetItem (fld (argOf s ch 1) 2 0) (fld (argOf s ch 1) 31 8) → shaperOf t i = shaperOf s i) ∧
      (∀ q, (queue t q).frames = (queue s q).frames) ∧ t.flw = s.flw ∧ t.pwr = s.pwr) ∧
  (∀ s ch, Accepted cmdReset ch s → fld (argOf s ch 1) 2 0 = 0 → bit (argOf s ch 1) 3 = true →
    ∃ t, exec (.resetCmd ch) s = .next t ∧ (queue t (fld (argOf s ch 1) 31 8)).frames = [] ∧
      (queue t (fld (argOf s ch 1) 31 8)).parked = false ∧ (queue t (fld (argOf s ch 1) 31 8)).shaper.level = 0 ∧
      (∀ q, q ≠ fld (argOf s ch 1) 31 8 → (queue t q).frames = (queue s q).frames) ∧ t.flw = s.flw ∧ t.pwr = s.pwr) ∧
  (∀ s ch, Accepted cmdQueueRead ch s →
    let x := queue s (fld (argOf s ch 1) 17 0)
    Answers (.queueRead ch) 0x0707 ch (.data [word (occupancy x % 2 ^ 18 + at' (b2n (x.parked || x.shaper.cal == .parked)) 18
        + at' (b2n (inWheel x.shaper)) 19), word x.frames.length, word (wrap 64 (x.shaper.now s / 65536))]) s s) ∧
  (∀ s ch, Accepted cmdTimedReserve ch s →
    Answers (.timedReserve ch) 0x0708 ch .done s { s with sch := { s.sch with reserve := fld (argOf s ch 1) 16 0 } })

/-- R27: what the scrubber finds. One bit is corrected and counted; two bits are counted, latched, and handled as the region
has it. -/
def Obligations.MemoryErrors : Prop :=
  (∀ s, Becomes (.scrubberPass []) s s) ∧
  (∀ s e, eccNames e = true → on s (eccDom e) = true → e.twoBits = false →
    ∃ t, exec (.scrubberPass [e]) s = .next t ∧ Agree t s ∧ Counts 0x0E30 (regionNo e.region) 1 s t) ∧
  (∀ s e, eccNames e = false ∨ on s (eccDom e) = false → Becomes (.scrubberPass [e]) s s) ∧
  -- a flow slot is invalidated
  (∀ s e, eccNames e = true → on s (eccDom e) = true → e.twoBits = true → e.region = .flow →
    ∃ t, exec (.scrubberPass [e]) s = .next t ∧ t.flw = { s.flw with slots := merase s.flw.slots e.index } ∧
      t.glb.error.getLsbD 2 = true ∧ t.sch = s.sch ∧ t.pwr = s.pwr) ∧
  -- a queue, node or policer is parked
  (∀ s e, eccNames e = true → on s (eccDom e) = true → e.twoBits = true → e.region = .queueState → e.aux = 0 →
    ∃ t, exec (.scrubberPass [e]) s = .next t ∧ (queue t e.index).parked = true ∧
      (∀ q, (queue t q).frames = (queue s q).frames) ∧ t.glb.error.getLsbD 2 = true ∧ t.flw = s.flw) ∧
  (∀ s e, eccNames e = true → on s (eccDom e) = true → e.twoBits = true → e.region = .queueState → e.aux = 4 →
    ∃ t, exec (.scrubberPass [e]) s = .next t ∧ (policer t e.index).parked = true ∧ t.glb.error.getLsbD 2 = true ∧
      t.flw = s.flw) ∧
  -- a counter restarts, INVALID; a key slot is zeroised, one generation on; the crust of the frame counts as bad
  (∀ s e, eccNames e = true → on s (eccDom e) = true → e.twoBits = true → e.region = .counters → e.index < 0x10000 →
    e.index ≠ 0x090C →
    ∃ t, exec (.scrubberPass [e]) s = .next t ∧ counter t e.index e.aux = 0 ∧
      mget false t.cnt.invalid (evKey e.index e.aux) = true ∧ t.glb.error.getLsbD 2 = true ∧ t.flw = s.flw ∧ t.sch = s.sch) ∧
  (∀ s e, eccNames e = true → on s (eccDom e) = true → e.twoBits = true → e.region = .keyStore →
    ∃ t, exec (.scrubberPass [e]) s = .next t ∧
      keySlot t e.index = { st := .empty, key := [], gen := nextGen (keySlot s e.index).gen, usage := 0 } ∧
      (∀ n, n ≠ e.index → keySlot t n = keySlot s n) ∧ t.glb.error.getLsbD 2 = true ∧ t.sch = s.sch) ∧
  (∀ s e, eccNames e = true → on s (eccDom e) = true → e.twoBits = true → e.region = .crust →
    ∃ t, exec (.scrubberPass [e]) s = .next t ∧ t.frm = { s.frm with crustBad := true } ∧ t.glb.error.getLsbD 2 = true ∧
      t.pf = s.pf) ∧
  -- a live version that holds the word is marked faulty
  (∀ s e, eccNames e = true → on s (eccDom e) = true → e.twoBits = true → e.region = .rules →
    ∃ t, exec (.scrubberPass [e]) s = .next t ∧
      ((rulesHolders s e.index).1 = true → s.prs.v0.st ≠ .free → t.prs.v0 = { s.prs.v0 with faulty := true }) ∧
      ((rulesHolders s e.index).1 = false → t.prs.v0 = s.prs.v0) ∧
      ((rulesHolders s e.index).2 = true → s.prs.v1.st ≠ .free → t.prs.v1 = { s.prs.v1 with faulty := true }) ∧
      ((rulesHolders s e.index).2 = false → t.prs.v1 = s.prs.v1) ∧ t.glb.error.getLsbD 2 = true)

/-- R230, R238-R242, R246: the checks that admission takes a timed frame through, in order. -/
def Obligations.AdmissionChecks : Prop :=
  -- check 1: TIMED_ENABLE, a curve, TIME, and PF5 for a grant stream
  (∀ sd s p q port d, Offered sd s p q port d →
    (usedCurve s port = none ∨ timeReady s = false ∨ (admPort s port).enable = false ∨ (port < 64 ∧ s.pf.st ≠ .pf5)) →
    RefusedWith .contract sd s p) ∧
  -- check 2: the queue enabled and not parked; a parked queue also counts Q_PARKED_DROP
  (∀ sd s p q port d c, Offered sd s p q port d → usedCurve s port = some c → timeReady s = true →
    (admPort s port).enable = true → (port < 64 → s.pf.st = .pf5) →
    ((queue s q).parked = true → RefusedWith .beyondPolicy sd s p) ∧
    ((queue s q).enable = false → RefusedWith .beyondPolicy sd s p)) ∧
  -- checks 3 and 4: MAX_TIMED and MAX_AHEAD
  (∀ sd s p q port d c, Offered sd s p q port d → usedCurve s port = some c → timeReady s = true →
    (admPort s port).enable = true → (port < 64 → s.pf.st = .pf5) → (queue s q).parked = false → (queue s q).enable = true →
    (usedMaxTimed s port < acctLen s port p → RefusedWith .unplaceable sd s p) ∧
    (acctLen s port p ≤ usedMaxTimed s port → s.tmu.ns + aheadNs s port < d → RefusedWith .beyondPolicy sd s p)) ∧
  -- check 5: the subscriber's policer, parked
  (∀ sd s p q port d c, Offered sd s p q port d → usedCurve s port = some c → timeReady s = true →
    (admPort s port).enable = true → (port < 64 → s.pf.st = .pf5) → (queue s q).parked = false → (queue s q).enable = true →
    acctLen s port p ≤ usedMaxTimed s port → d ≤ s.tmu.ns + aheadNs s port →
    (subNode s (queue s q).parent).policer ≠ 0x1FFFF → (policer s (subNode s (queue s q).parent).policer).parked = true →
    RefusedWith .policed sd s p) ∧
  -- checks 6 to 8, for a subscriber without a policer
  (∀ sd s p q port d c, Offered sd s p q port d → usedCurve s port = some c → timeReady s = true →
    (admPort s port).enable = true → (port < 64 → s.pf.st = .pf5) → (queue s q).parked = false → (queue s q).enable = true →
    acctLen s port p ≤ usedMaxTimed s port → d ≤ s.tmu.ns + aheadNs s port →
    (subNode s (queue s q).parent).policer = 0x1FFFF →
    (chooseQuad s = none → RefusedWith .beyondPolicy sd s p) ∧
    (∀ k, chooseQuad s = some k →
      ((queue s q).limit < occupancy (queue s q) + cells p → RefusedWith .beyondPolicy sd s p) ∧
      (freeCells s k < cells p → RefusedWith .beyondPolicy sd s p) ∧
      (occupancy (queue s q) + cells p ≤ (queue s q).limit → cells p ≤ freeCells s k →
        (ledgerOk c s.tmu.ns (ledger s port) (acctLen s port p) d = false → RefusedWith .late sd s p) ∧
        (ledgerOk c s.tmu.ns (ledger s port) (acctLen s port p) d = true →
          (d < max (candidate s port s.tmu.ns (acctLen s port p) d) (queue s q).lastKey → RefusedWith .late sd s p) ∧
          -- accepted: it joins its queue, its key is its promise
          (max (candidate s port s.tmu.ns (acctLen s port p) d) (queue s q).lastKey ≤ d → (queue s q).acceptReport = false →
            ∃ t x, exec (.admissionDecision sd) s = .next t ∧ Counts 0x0801 0 1 s t ∧
              (queue t q).frames = (queue s q).frames ++ [x] ∧ x.bytes = p.bytes ∧ x.deadline = some d ∧
              x.promise = some (max (candidate s port s.tmu.ns (acctLen s port p) d) (queue s q).lastKey) ∧
              (queue t q).lastKey = max (candidate s port s.tmu.ns (acctLen s port p) d) (queue s q).lastKey ∧
              (∀ n, n ≠ q → queue t n = queue s n) ∧ t.adm = s.adm ∧ t.tmu = s.tmu ∧ t.pwr = s.pwr))))) ∧
  -- a host frame with neither a deadline nor a budget goes to exception
  (∀ sd s p, schedReady s = true → (admQ sd s).head? = some p → p.cls = .timed → p.tx = none → deadlineOf s.tmu.ns p = none →
    exceptionRing s p.kind = none → keepsVersion p s →
    ∃ t, exec (.admissionDecision sd) s = .next t ∧ Counts 0x0818 0 1 s t ∧ t.adm = s.adm ∧
      (∀ q, queue t q = queue s q) ∧ t.flw = s.flw ∧ t.pwr = s.pwr) ∧
  (∀ sd s, schedReady s = false ∨ admQ sd s = [] ∨ (∃ p, (admQ sd s).head? = some p ∧ p.cls ≠ .timed) →
    Becomes (.admissionDecision sd) s s) ∧
  -- TIMED_LATE_DROP
  (∀ s q, schedReady s = true → timeReady s = true →
    ∃ t, exec (.timedLateDrop q) s = .next t ∧
      (queue t q).frames = (queue s q).frames.drop ((queue s q).frames.takeWhile (pastTolerance s (queue s q))).length ∧
      (∀ n, n ≠ q → queue t n = queue s n) ∧ t.adm = s.adm ∧ t.tmu = s.tmu) ∧
  (∀ s q, schedReady s = false ∨ timeReady s = false → Becomes (.timedLateDrop q) s s)

/-- R234-R237, R248-R250: contracts with the head end, the account kept of them, and gate lists. -/
def Obligations.ContractsAndGates : Prop :=
  -- a valid offer that is no reduction: accepted, in force from F_e
  (∀ s item, takesContracts s = true → contractItem item 0x81 16 = true →
    offerRange (be (item.drop 8) 0 1) (be (item.drop 8) 4 4) (be (item.drop 8) 8 2) (be (item.drop 8) 10 2) = true →
    2 ≤ framesTo s (be (item.drop 8) 12 4) → (gsContract s (be (item.drop 8) 0 1)).cur = none →
    ∃ t, exec (.contractOffer item) s = .next t ∧ Counts 0x0816 0 1 s t ∧
      gsContract t (be (item.drop 8) 0 1) = { gsContract s (be (item.drop 8) 0 1) with
        next := some (some { number := be (item.drop 8) 2 2, rate := be (item.drop 8) 4 4, lat := be (item.drop 8) 8 2, minBurst := be (item.drop 8) 10 2 },
          be (item.drop 8) 12 4) } ∧
      (∀ g, g ≠ be (item.drop 8) 0 1 → gsContract t g = gsContract s g) ∧
      t.up = (sendControl 2 2 (natBe 1 (be (item.drop 8) 0 1) ++ [0] ++ natBe 2 (be (item.drop 8) 2 2)) s).up ∧
      t.pf = s.pf ∧ t.sch = s.sch) ∧
  (∀ s item, takesContracts s = true → (contractItem item 0x81 16 = false ∨
      offerRange (be (item.drop 8) 0 1) (be (item.drop 8) 4 4) (be (item.drop 8) 8 2) (be (item.drop 8) 10 2) = false ∨
      framesTo s (be (item.drop 8) 12 4) < 2) →
    BecomesCounting (.contractOffer item) 0x0810 0 s s) ∧
  -- CONTRACT_END of the contract in force, with notice enough
  (∀ s item x, takesContracts s = true → contractItem item 0x82 16 = true → be (item.drop 8) 0 1 < 64 →
    (gsContract s (be (item.drop 8) 0 1)).cur = some x → x.number = be (item.drop 8) 2 2 →
    2 ≤ framesTo s (be (item.drop 8) 12 4) →
    (noticeFrames s (be (item.drop 8) 0 1) : Int) ≤ framesTo s (be (item.drop 8) 12 4) →
    ∃ t, exec (.contractEnd item) s = .next t ∧ Counts 0x0817 0 1 s t ∧
      gsContract t (be (item.drop 8) 0 1) = { gsContract s (be (item.drop 8) 0 1) with
        next := some (none, be (item.drop 8) 12 4), short := false,
        old := some (x, max (be (item.drop 8) 12 4) (s.frm.frame.toNat + noticeFrames s (be (item.drop 8) 0 1))) } ∧
      (∀ g, g ≠ be (item.drop 8) 0 1 → gsContract t g = gsContract s g) ∧ t.pf = s.pf ∧ t.sch = s.sch) ∧
  (∀ s item, takesContracts s = true → (gsContract s (be (item.drop 8) 0 1)).cur = none →
    BecomesCounting (.contractEnd item) 0x0810 0 s s) ∧
  (∀ s item, takesContracts s = false → Becomes (.contractOffer item) s s ∧ Becomes (.contractEnd item) s s) ∧
  -- at upstream frame F_e the accepted contract is in force; a first one starts with no deficit
  (∀ s g c f, g < 64 → (gsContract s g).next = some (c, f) →
    ∃ t, exec (.contractInForce g f) s = .next t ∧ gsContract t g = { gsContract s g with
        cur := c, next := none, deficit := if (gsContract s g).cur = none then 0 else (gsContract s g).deficit } ∧
      (∀ k, k ≠ g → gsContract t k = gsContract s k) ∧ t.pf = s.pf ∧ t.sch = s.sch) ∧
  (∀ s g f, (gsContract s g).next = none → Becomes (.contractInForce g f) s s) ∧
  -- the account of an upstream frame, in 1/64 byte: deficit := max(0, deficit + R_c x 125 us - granted)
  (∀ s f, on s 41 = true → ∃ t, exec (.contractAccount f) s = .next t ∧
    (∀ g, 64 ≤ g → gsContract t g = gsContract s g) ∧
    (∀ g, measured (gsContract s g) f = none → gsContract t g = gsContract s g) ∧
    (∀ g c, g < 64 → measured (gsContract s g) f = some c →
      (gsContract t g).deficit = (gsContract s g).deficit + c.rate - mget 0 s.up.granted (grantKey f g) * 64 ∧
      (gsContract t g).cur = (gsContract s g).cur ∧
      ((gsContract t g).breaches = (gsContract s g).breaches + 1 ↔ (c.rate * c.lat * 64 < (gsContract t g).deficit * 8000 ∨
        grantKey f g ∈ s.up.shortGrant))) ∧ t.sch = s.sch ∧ t.pf = s.pf) ∧
  (∀ s f, on s 41 = false → Becomes (.contractAccount f) s s) ∧
  -- COMBINED_CURVE_END; GATE_INTERVAL_END; GATE_LIST_CHANGED at the boundary
  (∀ s n, n < 84 → on s 41 = true → (admPort s n).old ≠ none → (admPort s n).until' ≤ s.tmu.ns →
    Becomes (.combinedCurveEnd n) s (setAdmPort n { admPort s n with old := none, until' := 0 } s)) ∧
  (∀ s n, 84 ≤ n ∨ (admPort s n).old = none ∨ s.tmu.ns < (admPort s n).until' → Becomes (.combinedCurveEnd n) s s) ∧
  (∀ s n, n < 4 → on s 41 = true → Becomes (.gateIntervalEnd n) s (setGate n { gate s n with waiting := [] } s)) ∧
  (∀ s n l b, n < 4 → on s 41 = true → (gate s n).next = some (l, b) → boundaryAfter (gate s n).active b ≤ s.tmu.ns →
    ∃ t, exec (.gateListChanged n) s = .next t ∧ Counts 0x0812 0 1 s t ∧
      gate t n = { gate s n with active := l, next := none, waiting := [] } ∧ (∀ k, k ≠ n → gate t k = gate s k) ∧
      t.sch = s.sch ∧ t.prt.mode = s.prt.mode) ∧
  (∀ s n, (gate s n).next = none → Becomes (.gateListChanged n) s s)

/-- R207, R230, R234, R235, R248, R250, R434: the commands of group 0x08. -/
def Obligations.AdmissionCommands : Prop :=
  (∀ s ch, Accepted cmdAdmissionSet ch s →
    let w := argOf s ch 1
    ∃ t, exec (.admissionSet ch) s = .next t ∧
      { admPort t (fld w 6 0) with old := none, until' := 0 } = { admPort s (fld w 6 0) with
        enable := bit w 7, maxTimed := some (fld w 22 8), maxAhead := fld w 42 23, hostLat := fld w 49 43,
        outRing := fld (argOf s ch 2) 11 0, old := none, until' := 0 } ∧
      (∀ n, n ≠ fld w 6 0 → admPort t n = admPort s n) ∧ (∀ n, gate t n = gate s n) ∧ t.sch = s.sch ∧ t.pwr = s.pwr) ∧
  (∀ s ch, Accepted cmdAdmissionRead ch s →
    let n := fld (argOf s ch 1) 6 0
    Answers (.admissionRead ch) 0x0802 ch (.data [curveWord (curveOf s n),
      if ((nextCurve s n).isSome || (oldCurve s n).isSome) = true then curveWord (usedCurve s n) else 0,
      word ((ledger s n).map (·.2)).sum, word (combinedEnd s n)]) s s) ∧
  (∀ s ch, Accepted cmdContractRequest ch s →
    let w := argOf s ch 2
    Answers (.contractRequest ch) 0x0803 ch .done s (sendControl 2 1 (natBe 1 (fld (argOf s ch 1) 5 0) ++ [0, 0, 0] ++
      natBe 4 (fld w 31 0) ++ natBe 2 (fld w 47 32) ++ natBe 2 (fld w 58 48)) s)) ∧
  (∀ s ch, Accepted cmdContractRelease ch s →
    Answers (.contractRelease ch) 0x0804 ch .done s (sendControl 2 3 (natBe 1 (fld (argOf s ch 1) 5 0) ++ [0, 0, 0]) s)) ∧
  (∀ s ch, Accepted cmdContractRead ch s → ∀ x c, gsContract s (fld (argOf s ch 1) 5 0) = x → x.cur = some c →
    Answers (.contractRead ch) 0x0805 ch (.data [word (c.number + at' 1 16), word (c.rate + at' c.lat 32 + at' c.minBurst 48),
      word (x.deficit / 64), word x.breaches]) s s) ∧
  -- GATE_WRITE: the standby copy, and a pending change is cancelled
  (∀ s ch, Accepted cmdGateWrite ch s →
    let n := fld (argOf s ch 1) 1 0
    let first := fld (argOf s ch 1) 11 2
    let len := (msgWords (chan s ch)).length - 2
    ∃ t, exec (.gateWrite ch) s = .next t ∧ (gate t n).active = (gate s n).active ∧ (gate t n).next = none ∧
      (∀ k, k < len → mget gateEntryReset (gate t n).standby (first + k) = argOf s ch (2 + k)) ∧
      (∀ k, k < first ∨ first + len ≤ k → mget gateEntryReset (gate t n).standby k = mget gateEntryReset (gate s n).standby k) ∧
      (∀ m, m ≠ n → gate t m = gate s m) ∧ t.sch = s.sch ∧ t.pwr = s.pwr) ∧
  (∀ s ch, Accepted cmdGateCommit ch s →
    let n := fld (argOf s ch 1) 1 0
    let l : GateList := { entries := standbyList s (msgWords (chan s ch)), cycle := (argOf s ch 2).toNat, base := (argOf s ch 3).toNat }
    Answers (.gateCommit ch) 0x0807 ch .done s (setGate n { gate s n with next := some (l, (argOf s ch 4).toNat) } s)) ∧
  (∀ s ch, Accepted cmdHostShare ch s →
    let g := fld (argOf s ch 1) 3 0
    let x := fld (argOf s ch 2) 31 0
    ∃ t, exec (.hostShare ch) s = .next t ∧ share t g = x ∧ (∀ k, k ≠ g → share t k = share s k) ∧
      (shaperOf t (.port (68 + g))).rate = x ∧ (shaperOf t (.port (68 + g))).burst = (portNode s (68 + g)).shaper.burst ∧
      (∀ i, i ≠ .port (68 + g) → shaperOf t i = shaperOf s i) ∧ (∀ q, (queue t q).frames = (queue s q).frames) ∧
      t.pwr = s.pwr ∧ t.flw = s.flw)

/-- R252, R262-R268, R275, R279: the links of the client ports, and the frames they receive and send. -/
def Obligations.ClientFrames : Prop :=
  -- CLIENTn is set when every condition of R262 holds, and clears on the loss of any
  (∀ s n, n < 4 → mayLink s n = true → (cport s n).up = false → ∃ t, exec (.linkUp n) s = .next t ∧ Counts 0x0904 n 1 s t ∧
    { cport t n with pauses := [] } = { cport s n with
      up := true, amLock := true, hiSer := false, localFault := false, remoteFault := false, pauses := [] } ∧
    (∀ k, k ≠ n → { cport t k with pauses := [] } = { cport s k with pauses := [] }) ∧ (∀ q, (queue t q).frames = (queue s q).frames) ∧
    t.line = s.line ∧ t.pwr = s.pwr) ∧
  (∀ s n, mayLink s n = false ∨ (cport s n).up = true → Becomes (.linkUp n) s s) ∧
  (∀ s n c, n < 4 → portLanes s n ≠ [] → on s 18 = true → (cport s n).up = true →
    (c.localFault = true ∨ c.remoteFault = true ∨ c.hiSer = true ∨ c.amLockLost = true) →
    ∃ t, exec (.linkDown n c) s = .next t ∧ ((cport s n).tx = [] → Counts 0x0905 n 1 s t) ∧
      { cport t n with pauses := [] } = { cport s n with
        up := false, tx := [], localFault := c.localFault, remoteFault := c.remoteFault, hiSer := c.hiSer,
        amLock := (cport s n).amLock && !c.amLockLost, pauses := [],
        events := (cport s n).events ||| 1 ||| (if c.localFault then 2 else 0) ||| (if c.remoteFault then 4 else 0)
          ||| (if c.hiSer then 8 else 0) } ∧
      (∀ k, k ≠ n → { cport t k with pauses := [], tx := [] } = { cport s k with pauses := [], tx := [] }) ∧ t.line = s.line ∧ t.pwr = s.pwr) ∧
  (∀ s n c, portLanes s n = [] ∨ on s 18 = false → Becomes (.linkDown n c) s s) ∧
  -- a frame that R263 does not let in is counted and sets RX_DISCARD
  (∀ s n f ok st, receives s n = false → Becomes (.clientFrameReceived n f ok st) s s) ∧
  (∀ s n f st, n < 4 → receives s n = true →
    let seen := setCport n { cport s n with events := (cport s n).events ||| 0x80 } s
    (f.length < 64 → BecomesCounting (.clientFrameReceived n f true st) 0x0907 n s seen) ∧
    (64 ≤ f.length → (cport s n).maxFrame < f.length → BecomesCounting (.clientFrameReceived n f true st) 0x0908 n s seen) ∧
    (64 ≤ f.length → f.length ≤ (cport s n).maxFrame → f.drop (f.length - 4) ≠ fcs (f.take (f.length - 4)) →
      BecomesCounting (.clientFrameReceived n f true st) 0x0906 n s seen) ∧
    (64 ≤ f.length → f.length ≤ (cport s n).maxFrame → f.drop (f.length - 4) = fcs (f.take (f.length - 4)) →
      be (f.take (f.length - 4)) 12 2 = 0x8808 → be (f.take (f.length - 4)) 14 2 ≠ 0x0001 → be (f.take (f.length - 4)) 14 2 ≠ 0x0101 →
      BecomesCounting (.clientFrameReceived n f true st) 0x0909 n s seen) ∧
    BecomesCounting (.clientFrameReceived n f false st) 0x090A n s (setCport n { cport s n with
      fecBad := min ((cport s n).fecBad + 1) (2 ^ 64 - 1), events := (cport s n).events ||| 0x80 ||| 0x10 } s)) ∧
  -- every other frame goes where its filter says, without its FCS and with its checksum results
  (∀ s n f st b, n < 4 → receives s n = true → 64 ≤ f.length → f.length ≤ (cport s n).maxFrame → f = b ++ fcs b → be b 12 2 ≠ 0x8808 →
    (filterOf s n b = none → parseReady s = true → ∃ t p, exec (.clientFrameReceived n f true st) s = .next t ∧
      t.prs = { s.prs with inClient := s.prs.inClient ++ [p] } ∧ p.bytes = b ∧ p.kind = .client ∧ p.index = n ∧ p.arrival = st.ns ∧
      p.arrivalFrac = st.frac ∧ p.csumL3 = csumL3Of b ∧ p.csumL4 = csumL4Of b ∧ t.sch = s.sch ∧ t.flw = s.flw) ∧
    (∀ i w, filterOf s n b = some (i, w) → fld w 24 23 = 3 → BecomesCounting (.clientFrameReceived n f true st) 0x0910 n s s) ∧
    (∀ i w, filterOf s n b = some (i, w) → fld w 24 23 = 1 → schedReady s = true →
      ∃ t p, exec (.clientFrameReceived n f true st) s = .next t ∧ t.sch = { s.sch with inClient := s.sch.inClient ++ [p] } ∧
        p.bytes = b ∧ p.queue = some (fld w 17 0) ∧ p.filter = some i ∧ p.version = none ∧ p.ctx = none ∧ p.arrival = st.ns ∧
        t.prs = s.prs ∧ t.flw = s.flw)) ∧
  -- a frame leaves padded to 60 bytes and with its FCS
  (∀ s n st p r, n < 4 → (cport s n).tx = p :: r → p.tx = none → p.promise = none → histOf s p = none →
    ∃ t, exec (.clientFrameTransmitted n st) s = .next t ∧ Agree t (setCport n { cport s n with tx := r } s) ∧
      .clientFrame n (sentFrame p.bytes p.corrupt) p.corrupt ∈ t.out) ∧
  (∀ s n st, (cport s n).tx = [] → Becomes (.clientFrameTransmitted n st) s s ∧ Becomes (.txUnderrun n) s s) ∧
  (∀ b, 60 ≤ b.length → sentFrame b false = b ++ fcs b ∧ sentFrame b true = b ++ (fcs b).map (~~~·)) ∧
  (∀ b, b.length < 60 → sentFrame b false = b ++ List.replicate (60 - b.length) 0 ++ fcs (b ++ List.replicate (60 - b.length) 0)) ∧
  -- TX_UNDERRUN: the frame ends with an inverted FCS, and the ring's threshold rises
  (∀ s n p r x, n < 4 → (cport s n).tx = p :: r → p.tx = some x → x.stamp = false → x.segmented = false → x.report = false →
    x.acceptReport = false → p.promise = none → histOf s p = none → p.cls ≠ .timed → ctBytes (txRing s x.ring) < p.bytes.length →
    ∃ t, exec (.txUnderrun n) s = .next t ∧ Counts 0x090E n 1 s t ∧ .clientFrame n (sentFrame p.bytes true) true ∈ t.out ∧
      { cport t n with pauses := [] } = { cport s n with tx := r, events := (cport s n).events ||| 0x40, pauses := [] } ∧
      fld (txRing t x.ring).ctrl 30 24 = min 64 (fld (txRing s x.ring).ctrl 30 24 + 2)) ∧
  (∀ s n p r, (cport s n).tx = p :: r → p.tx = none ∨ p.cls = .timed → Becomes (.txUnderrun n) s s)

/-- R260, R261, R265, R271-R274, R435: pause, and the commands of group 0x09. -/
def Obligations.PauseAndPortCommands : Prop :=
  -- a PAUSE frame restarts the timer, quanta 0 ends the pause, and an ignored pause stays ignored
  (∀ s n q, n < 4 → receives s n = true → (cport s n).flow = 1 → ∃ t, exec (.pauseFrameReceived n q) s = .next t ∧
    { pauseReset' (cport t n) 0 with xoff := false } = { pauseReset' (cport s n) 0 with
      timer := (q != 0 && ((pauseReset' (cport s n) 0).timer || !(pauseReset' (cport s n) 0).ignoring)),
      ignoring := (q != 0 && (pauseReset' (cport s n) 0).ignoring), xoff := false } ∧
    Counts 0x090B n 1 s t ∧ (∀ k, (queue t k).frames = (queue s k).frames)) ∧
  (∀ s n q, receives s n = false → Becomes (.pauseFrameReceived n q) s s) ∧
  (∀ s n q, n < 4 → receives s n = true → (cport s n).flow ≠ 1 →
    BecomesCounting (.pauseFrameReceived n q) 0x0909 n s (setCport n { cport s n with events := (cport s n).events ||| 0x80 } s)) ∧
  -- a PFC frame does so for each priority it names, and for no other
  (∀ s n e q, n < 4 → receives s n = true → (cport s n).flow = 2 → ∃ t, exec (.pfcFrameReceived n e q) s = .next t ∧
    Counts 0x090B n 1 s t ∧
    (∀ p, p < 8 → { pauseReset' (cport t n) p with xoff := false } = { pauseReset' (cport s n) p with
      timer := if e.getLsbD p then (nth q p 0 != 0 && ((pauseReset' (cport s n) p).timer || !(pauseReset' (cport s n) p).ignoring))
        else (pauseReset' (cport s n) p).timer,
      ignoring := if e.getLsbD p then (nth q p 0 != 0 && (pauseReset' (cport s n) p).ignoring) else (pauseReset' (cport s n) p).ignoring,
      xoff := false })) ∧
  (∀ s n e q, n < 4 → receives s n = true → (cport s n).flow ≠ 2 →
    BecomesCounting (.pfcFrameReceived n e q) 0x0909 n s (setCport n { cport s n with events := (cport s n).events ||| 0x80 } s)) ∧
  -- the timer runs out; the watchdog fires; its second ends
  (∀ s n p, n < 4 → ∃ t, exec (.pauseTimerExpiry n p) s = .next t ∧
    { pauseReset' (cport t n) p with xoff := false } = { pauseReset' (cport s n) p with timer := false, xoff := false } ∧
    (∀ k, (queue t k).frames = (queue s k).frames)) ∧
  (∀ s n p, n < 4 → on s 18 = true → (cport s n).flow ≠ 0 → (pauseReset' (cport s n) p).timer = true →
    (pauseReset' (cport s n) p).ignoring = false → ∃ t, exec (.pauseWatchdog n p) s = .next t ∧ Counts 0x090D n 1 s t ∧
      { pauseReset' (cport t n) p with xoff := false } = { pauseReset' (cport s n) p with timer := false, ignoring := true, xoff := false } ∧
      (cport t n).events = (cport s n).events ||| 0x20) ∧
  (∀ s n p, (pauseReset' (cport s n) p).timer = false → Becomes (.pauseWatchdog n p) s s) ∧
  (∀ s n p, n < 4 → ∃ t, exec (.watchdogEnd n p) s = .next t ∧
    { pauseReset' (cport t n) p with xoff := false } = { pauseReset' (cport s n) p with ignoring := false, xoff := false }) ∧
  (∀ s n p, n < 4 → (cport s n).up = true → (pauseReset' (cport s n) p).xoff = true → (cport s n).xon < pauseCells s n (cport s n) p →
    ∃ t, exec (.pauseRefresh n p) s = .next t ∧ Agree t s ∧ .pauseFrame n ((cport s n).flow == 2)
      (if (cport s n).flow = 2 then BitVec.ofNat 8 (2 ^ p) else 0)
      (if (cport s n).flow = 2 then (List.range 8).map fun k => if k = p then 0xFFFF else 0 else [0xFFFF]) ∈ t.out) ∧
  (∀ s n p, (pauseReset' (cport s n) p).xoff = false ∨ pauseCells s n (cport s n) p ≤ (cport s n).xon → Becomes (.pauseRefresh n p) s s) ∧
  -- PORT_MODE: every CLIENT bit clears, the mode is stored; refused while the ledger of a client port holds work
  (∀ s ch, Accepted cmdPortMode ch s → ∃ t, exec (.portMode ch) s = .next t ∧ t.prt.mode = fld (argOf s ch 1) 1 0 ∧
    t.fw.want.portMode = fld (argOf s ch 1) 1 0 ∧ (∀ n, n < 4 → (cport t n).up = false) ∧ t.prt.filters = s.prt.filters) ∧
  (∀ s ch, clientLedgerBusy s = true ∨ modeBlocked s (fld (argOf s ch 1) 1 0) = true → ¬ Accepted cmdPortMode ch s) ∧
  (∀ s ch, Accepted cmdPortSet ch s →
    let w1 := argOf s ch 1
    let w2 := argOf s ch 2
    let n := fld w1 1 0
    ∃ t, exec (.portSet ch) s = .next t ∧ { cport t n with pauses := [] } = { cport s n with
        maxFrame := fld w1 16 2, preTx := bit w1 17, preRx := bit w1 18, flow := fld w1 20 19, watchdog := fld w1 30 21,
        xoff := fld w2 17 0, xon := fld w2 35 18, noPause := BitVec.ofNat 8 (fld w2 43 36), pauses := [] } ∧
      (∀ k, k ≠ n → { cport t k with pauses := [] } = { cport s k with pauses := [] }) ∧
      (∀ k, (queue t k).frames = (queue s k).frames) ∧ t.prt.mode = s.prt.mode) ∧
  (∀ s ch, Accepted cmdPfcPriority ch s →
    let n := fld (argOf s ch 1) 10 0
    ∃ t, exec (.pfcPriority ch) s = .next t ∧ (svcNode t n).pfc = fld (argOf s ch 1) 13 11 ∧ (svcNode t n).shaper = (svcNode s n).shaper ∧
      (∀ k, k ≠ n → (svcNode t k).pfc = (svcNode s k).pfc) ∧ (∀ k, (queue t k).frames = (queue s k).frames) ∧ t.pwr = s.pwr) ∧
  (∀ s ch, Accepted cmdFilterSet ch s → Answers (.filterSet ch) 0x0904 ch .done s
    { s with prt := { s.prt with filters := mput 0 s.prt.filters (fld (argOf s ch 1) 7 0) (argOf s ch 2) } }) ∧
  (∀ s ch, Accepted cmdEqReload ch s → ∃ t, exec (.eqReload ch) s = .next t ∧ (∀ n, n < 4 → (cport t n).up = false) ∧
    t.line = { s.line with eqTries := 0, eqReading := true, eqRaw := none, eqReady := false }) ∧
  (∀ s ch, Accepted cmdPortInfo ch s → Answers (.portInfo ch) 0x0906 ch (.data ([word (b2n s.line.eqFromRom), s.line.carrierId]
    ++ (List.range 4).map fun k => word (leNat (nth s.line.eqEntries k [])))) s s) ∧
  (∀ s ch, Accepted cmdLaneLoopback ch s → fld (argOf s ch 1) 3 2 = 0 →
    let k := fld (argOf s ch 1) 1 0
    Answers (.laneLoopback ch) 0x0907 ch .done s (setLane k { lane s k with loop := 0 } s)) ∧
  (∀ s ch, Accepted cmdLaneLoopback ch s → fld (argOf s ch 1) 3 2 ≠ 0 →
    let k := fld (argOf s ch 1) 1 0
    ∃ t, exec (.laneLoopback ch) s = .next t ∧ lane t k = { lane s k with loop := fld (argOf s ch 1) 3 2 } ∧
      (∀ j, j ≠ k → lane t j = lane s j) ∧ (∀ n, portOfLane s k = some n → (cport t n).up = false)) ∧
  (∀ s ch, Accepted cmdLanePrbs ch s →
    let w := argOf s ch 1
    let k := fld w 1 0
    ∃ t, exec (.lanePrbs ch) s = .next t ∧
      lane t k = { lane s k with prbs := { (lane s k).prbs.set (fld w 7 4) (fld w 11 8) (bit w 12) (bit w 13) with
        inject := fld w 15 14, injectArg := fld w 31 16 } } ∧
      (∀ j, j ≠ k → lane t j = lane s j) ∧ (fld w 7 4 ≠ 0 → ∀ n, portOfLane s k = some n → (cport t n).up = false)) ∧
  (∀ s ch, Accepted cmdLanePrbsRead ch s →
    let k := fld (argOf s ch 1) 1 0
    Answers (.lanePrbsRead ch) 0x0909 ch (.data (checkerWords (lane s k).prbs.checker)) s
      (if bit (argOf s ch 1) 2 then setLane k { lane s k with prbs := { (lane s k).prbs with checker :=
        { (lane s k).prbs.checker with bitErrors := 0, symErrors := 0, losses := 0 } } } s else s))
end

