-- ==== Sys2Proof/Tests/Slice0.lean ====
section
/-! SUPPORT. The model's own tests. -/

namespace Sys2Proof.Tests
open Sys2Proof.Machine

theorem test_idle : step State.reset = .next State.reset := rfl

end Sys2Proof.Tests
end

section
/-! Rules of the shared state operations: tables, event counts, vectors, and the end of a command; what each of them keeps,
said with `Agree`. -/

namespace Sys2Proof.Machine

/-! ### Tables -/

section Tables
variable {α : Type}

@[simp] theorem mget_minsert_same (d : α) (m : Map α) (n : Nat) (v : α) : mget d (minsert m n v) n = v := by
  induction m with
  | nil => simp [minsert, mget]
  | cons e r ih =>
    obtain ⟨k, w⟩ := e
    simp only [minsert]
    split_ifs with hlt heq
    · simp [mget]
    · simp [mget]
    · simp [mget, Ne.symm heq, ih]

theorem mget_minsert_of_ne (d : α) (m : Map α) {n k : Nat} (v : α) (h : k ≠ n) :
    mget d (minsert m n v) k = mget d m k := by
  induction m with
  | nil => simp [minsert, mget, h.symm]
  | cons e r ih =>
    obtain ⟨j, w⟩ := e
    simp only [minsert]
    split_ifs with hlt heq
    · simp [mget, h.symm]
    · subst heq
      simp [mget, h.symm]
    · simp [mget, ih]

@[simp] theorem mget_merase_same (d : α) (m : Map α) (n : Nat) : mget d (merase m n) n = d := by
  induction m with
  | nil => rfl
  | cons e r ih =>
    obtain ⟨j, w⟩ := e
    unfold merase at ih ⊢
    by_cases h : j = n
    · simpa [h] using ih
    · simpa [h, mget] using ih

theorem mget_merase_of_ne (d : α) (m : Map α) {n k : Nat} (h : k ≠ n) : mget d (merase m n) k = mget d m k := by
  induction m with
  | nil => rfl
  | cons e r ih =>
    obtain ⟨j, w⟩ := e
    unfold merase at ih ⊢
    by_cases hj : j = n
    · subst hj
      simpa [mget, h.symm] using ih
    · simp [hj, mget, ih]

variable [DecidableEq α]

@[simp] theorem mget_mput_same (d : α) (m : Map α) (n : Nat) (v : α) : mget d (mput d m n v) n = v := by
  unfold mput
  split_ifs with h
  · simp [h]
  · simp

theorem mget_mput_of_ne (d : α) (m : Map α) {n k : Nat} (v : α) (h : k ≠ n) :
    mget d (mput d m n v) k = mget d m k := by
  unfold mput
  split_ifs
  · exact mget_merase_of_ne d m h
  · exact mget_minsert_of_ne d m v h

end Tables

/-! ### Agreement -/

namespace Agree
variable {s t u v : State}

@[refl] protected theorem refl (s : State) : Agree s s := by constructor <;> intros <;> rfl

theorem flow_eq (h : Agree t u) (n : Nat) : (cport t n).flow = (cport u n).flow := by
  simpa using congrArg CPort.flow (h.ports n)

theorem error_eq (h : Agree t u) : t.glb.error = u.glb.error := by simpa using congrArg Glb.error h.glb

theorem invalid_eq (h : Agree t u) : t.cnt.invalid = u.cnt.invalid := by simpa using congrArg Cnt.invalid h.cnt

@[trans] protected theorem trans (h : Agree t u) (k : Agree u v) : Agree t v where
  pwr := h.pwr.trans k.pwr
  glb := h.glb.trans k.glb
  pcie := h.pcie.trans k.pcie
  mbx := h.mbx.trans k.mbx
  fw := h.fw.trans k.fw
  line := h.line.trans k.line
  frm := h.frm.trans k.frm
  pf := h.pf.trans k.pf
  ke := h.ke.trans k.ke
  up := h.up.trans k.up
  cir := h.cir.trans k.cir
  perf := h.perf.trans k.perf
  cnt := h.cnt.trans k.cnt
  tmu := h.tmu.trans k.tmu
  prs := h.prs.trans k.prs
  flw := h.flw.trans k.flw
  sch := h.sch.trans k.sch
  adm := h.adm.trans k.adm
  ports n := (h.ports n).trans (k.ports n)
  still n hn := (h.still n ((k.flow_eq n).trans hn)).trans (k.still n hn)
  mode := h.mode.trans k.mode
  filters := h.filters.trans k.filters
  cph := h.cph.trans k.cph
  dma := h.dma.trans k.dma
  tin := h.tin.trans k.tin
  spent := h.spent.trans k.spent
  free := h.free.trans k.free
  pending := h.pending.trans k.pending

/-- The mailboxes and the global registers may be replaced on both sides. -/
theorem withMbxGlb (h : Agree t u) (m : Mbx) (g : Glb) :
    Agree { t with mbx := m, glb := g } { u with mbx := m, glb := g } :=
  { h with mbx := rfl, glb := rfl }

end Agree

/-- What follows every command by itself: GLB_READY_CHANGED, vectors, event counts and probes, what has left the module. -/
theorem agree_bookkeeping (s : State) (c : BitVec 64) (vs : Map Vec) (cs : Map (BitVec 64)) (ps : Map Probe) (o : List Out) :
    Agree { s with
      glb := { s.glb with changed := c }, pcie := { s.pcie with vecs := vs }
      cnt := { s.cnt with counters := cs, probes := ps }, out := o } s := by
  constructor <;> intros <;> rfl

theorem agree_count (e inst n : Nat) (s : State) : Agree (count e inst n s) s := by
  unfold count
  split
  · exact agree_bookkeeping s _ _ _ _ _
  · rfl

theorem agree_ev (e : Nat) (s : State) : Agree (ev e s) s := agree_count e 0 1 s

theorem agree_emit (o : Out) (s : State) : Agree (emit o s) s := agree_bookkeeping s _ _ _ _ _

theorem agree_setVec (v : Nat) (x : Vec) (s : State) : Agree (setVec v x s) s := agree_bookkeeping s _ _ _ _ _

theorem agree_raise (v : Nat) (s : State) : Agree (raise v s) s := by
  unfold raise
  split_ifs
  · rfl
  · exact (agree_emit _ _).trans (agree_setVec _ _ _)
  · exact agree_setVec _ _ _

/-- GLB_READY_CHANGED and vector 0 follow a change of readiness (R365). -/
theorem agree_settle (s s' : State) : Agree (settle s s') s' := by
  have changed (c : BitVec 64) : Agree { s' with glb := { s'.glb with changed := c } } s' := agree_bookkeeping s' _ _ _ _ _
  simp only [settle]
  split_ifs
  · rfl
  · exact changed _
  · exact (agree_raise _ _).trans (changed _)

/-! ### The pause that a port asserts (R274) -/

@[simp] theorem cport_setCport_same (n : Nat) (x : CPort) (s : State) : cport (setCport n x s) n = x :=
  mget_mput_same _ _ _ _

theorem cport_setCport_of_ne {n k : Nat} (h : k ≠ n) (x : CPort) (s : State) : cport (setCport n x s) k = cport s k :=
  mget_mput_of_ne _ _ _ h

/-- On a port with flow control the pause state is left out of the agreement. -/
theorem agree_setCport_pauses (n : Nat) (ps : Map PauseSt) (s : State) (h : (cport s n).flow ≠ 0) :
    Agree (setCport n { cport s n with pauses := ps } s) s := by
  have other (k : Nat) (hk : k ≠ n) : cport (setCport n { cport s n with pauses := ps } s) k = cport s k :=
    cport_setCport_of_ne hk _ s
  have hports (k : Nat) : { cport (setCport n { cport s n with pauses := ps } s) k with pauses := [] } =
      { cport s k with pauses := [] } := by
    by_cases hk : k = n
    · subst hk; simp
    · rw [other k hk]
  have hstill (k : Nat) (hf : (cport s k).flow = 0) : cport (setCport n { cport s n with pauses := ps } s) k = cport s k :=
    other k fun hk => h (hk ▸ hf)
  exact { Agree.refl s with ports := hports, still := hstill }

theorem agree_sendPause (n prio quanta : Nat) (s : State) : Agree (sendPause n prio quanta s) s :=
  (agree_count _ _ _ _).trans (agree_emit _ _)

theorem agree_judgePause (n prio : Nat) (s : State) (h : (cport s n).flow ≠ 0) : Agree (judgePause n prio s) s := by
  simp only [judgePause]
  split_ifs
  · exact (agree_sendPause _ _ _ _).trans (agree_setCport_pauses n _ s h)
  · exact (agree_sendPause _ _ _ _).trans (agree_setCport_pauses n _ s h)
  · rfl

theorem agree_pauseFollows (s : State) : Agree (pauseFollows s) s := by
  unfold pauseFollows
  refine List.foldlRecOn (motive := (Agree · s)) _ _ (Agree.refl s) fun t ht n _ => ?_
  simp only [Bool.or_eq_true, decide_eq_true_eq]
  split
  next => exact ht
  next h =>
    have hflow : (cport t n).flow ≠ 0 := fun h0 => h (.inl h0)
    refine Agree.trans ?_ ht
    refine List.foldlRecOn (motive := (Agree · t)) _ _ (Agree.refl t) fun u hu prio _ => ?_
    exact (agree_judgePause n prio u (hu.flow_eq n ▸ hflow)).trans hu

/-! ### Counters -/

theorem counter_count_same {e inst : Nat} {s : State} (n : Nat) (h : on s (evDom e inst) = true) :
    counter (count e inst n s) e inst = counter s e inst + BitVec.ofNat 64 n := by
  simp [count, h, counter]

theorem counter_count_of_ne {e inst f i : Nat} (n : Nat) (s : State) (h : evKey f i ≠ evKey e inst) :
    counter (count e inst n s) f i = counter s f i := by
  unfold count
  split
  · exact mget_mput_of_ne _ _ _ h
  · rfl

theorem cnt_raise (v : Nat) (s : State) : (raise v s).cnt = s.cnt := by
  unfold raise
  split_ifs <;> rfl

theorem cnt_settle (s s' : State) : (settle s s').cnt = s'.cnt := by
  simp only [settle]
  split_ifs
  · rfl
  · rfl
  · exact cnt_raise _ _

/-- The only event that a port's pause counts is 0x090C of that port (R280). -/
theorem counter_judgePause_of_ne {n e i : Nat} (prio : Nat) (s : State) (h : evKey e i ≠ evKey 0x090C n) :
    counter (judgePause n prio s) e i = counter s e i := by
  simp only [judgePause]
  split_ifs
  · exact counter_count_of_ne _ _ h
  · exact counter_count_of_ne _ _ h
  · rfl

theorem counter_pauseFollows_of_ne {e i : Nat} (s : State) (he : e ≠ 0x090C) (hi : i < 16) :
    counter (pauseFollows s) e i = counter s e i := by
  unfold pauseFollows
  refine List.foldlRecOn (motive := fun t => counter t e i = counter s e i) _ _ rfl fun t ht n hn => ?_
  have hkey : evKey e i ≠ evKey 0x090C n := by
    have := List.mem_range.mp hn
    unfold evKey
    omega
  simp only
  split
  · exact ht
  · refine List.foldlRecOn (motive := fun u => counter u e i = counter s e i) _ _ ht fun u hu prio _ => ?_
    exact (counter_judgePause_of_ne prio u hkey).trans hu

/-- No event has more than 16 counters (R487): no branch of the table gives more. -/
theorem evInsts_le (e : Nat) : evInsts e ≤ 16 := by
  have pick {p : Prop} [Decidable p] {a b : Nat} (ha : a ≤ 16) (hb : b ≤ 16) : (if p then a else b) ≤ 16 := by
    split <;> assumption
  unfold evInsts ifaceInsts
  repeat' apply pick
  all_goals decide

/-! ### The end of a command -/

/-- A command that ends in `u` leaves a state that agrees with `u`, and in which only 0x090C has been counted since. -/
theorem done_spec (s u : State) : ∃ t, done s u = .next t ∧ Agree t u ∧
    ∀ e i, e ≠ 0x090C → i < 16 → counter t e i = counter u e i := by
  refine ⟨settle s (pauseFollows u), rfl, (agree_settle _ _).trans (agree_pauseFollows u), fun e i he hi => ?_⟩
  calc counter (settle s (pauseFollows u)) e i = counter (pauseFollows u) e i := by simp only [counter, cnt_settle]
    _ = counter u e i := counter_pauseFollows_of_ne u he hi

theorem becomes_of_exec_eq_done {c : Instr} {s u v : State} (h : exec c s = done s u) (hv : Agree u v) : Becomes c s v := by
  obtain ⟨t, ht, hagree, -⟩ := done_spec s u
  exact ⟨t, h.trans ht, hagree.trans hv⟩

/-! ### The always-on counter (R24) -/

theorem exec_alwaysOnCounterTick (s : State) : exec .alwaysOnCounterTick s = execAlwaysOnCounterTick s := rfl

theorem exec_supplyGood (s : State) : exec .supplyGood s = execSupplyGood s := rfl

theorem becomes_alwaysOnCounterTick {s : State} (h : s.pwr.supplyGood = true) :
    Becomes .alwaysOnCounterTick s { s with pwr := { s.pwr with aon := s.pwr.aon + 1 } } :=
  becomes_of_exec_eq_done (by simp [exec_alwaysOnCounterTick, execAlwaysOnCounterTick, h]) (Agree.refl _)

/-- The tick of the last period wraps: the sum is taken in 48 bits. -/
theorem alwaysOnCounterTick_wraps {s : State} (hgood : s.pwr.supplyGood = true) (hmax : s.pwr.aon.toNat = 2 ^ 48 - 1) :
    ∃ t, exec .alwaysOnCounterTick s = .next t ∧ t.pwr = { s.pwr with aon := 0 } := by
  obtain ⟨t, ht, hagree⟩ := becomes_alwaysOnCounterTick hgood
  have hwrap : s.pwr.aon + 1 = 0 := by bv_omega
  exact ⟨t, ht, by rw [hagree.pwr, hwrap]⟩

/-- Supply is good and the counter stands in its last period. -/
def lastPeriod : State := { State.reset with pwr := { pwrReset with supplyGood := true, aon := BitVec.allOnes 48 } }

/-- Witness of `alwaysOnCounterTick_wraps`. -/
theorem lastPeriod_wraps : ∃ t, exec .alwaysOnCounterTick lastPeriod = .next t ∧ t.pwr = { lastPeriod.pwr with aon := 0 } :=
  alwaysOnCounterTick_wraps rfl (by decide)

/-- Starting a domain keeps the counter and supply good. -/
theorem startOn_keeps_counter (s : State) (n : Nat) :
    (startOn s n).pwr.aon = s.pwr.aon ∧ (startOn s n).pwr.supplyGood = s.pwr.supplyGood := by
  unfold startOn
  split_ifs <;> exact ⟨rfl, rfl⟩

theorem startWave_keeps_counter (w : Nat) (s : State) :
    (startWave w s).pwr.aon = s.pwr.aon ∧ (startWave w s).pwr.supplyGood = s.pwr.supplyGood := by
  unfold startWave
  refine List.foldlRecOn (motive := fun t : State => t.pwr.aon = s.pwr.aon ∧ t.pwr.supplyGood = s.pwr.supplyGood)
    _ _ ⟨rfl, rfl⟩ fun t ht n _ => ?_
  obtain ⟨haon, hgood⟩ := startOn_keeps_counter t n
  exact ⟨haon.trans ht.1, hgood.trans ht.2⟩

/-- Settles O2: a tick ends in the state with the counter advanced, 48-bit addition gives the wrap, and the wave that
SUPPLY_GOOD starts keeps the counter it has set to zero. -/
theorem alwaysOnCounter : Obligations.AlwaysOnCounter := by
  refine ⟨fun _ => becomes_alwaysOnCounterTick, fun _ => alwaysOnCounterTick_wraps, fun s hbad => ?_, fun s hbad => ?_⟩
  · obtain ⟨t, ht, hagree, -⟩ := done_spec s
      (startWave 1 { s with pwr := { s.pwr with supplyGood := true, aon := 0, boots := s.pwr.boots + 1 } })
    obtain ⟨haon, hgood⟩ := startWave_keeps_counter 1
      { s with pwr := { s.pwr with supplyGood := true, aon := 0, boots := s.pwr.boots + 1 } }
    have hexec : exec .supplyGood s = .next t := by simpa [exec_supplyGood, execSupplyGood, hbad] using ht
    exact ⟨t, hexec, by rw [hagree.pwr, hgood], by rw [hagree.pwr, haon]⟩
  · exact becomes_of_exec_eq_done (by simp [exec_alwaysOnCounterTick, execAlwaysOnCounterTick, hbad]) (Agree.refl s)

end Sys2Proof.Machine
end

section
/-! What the scrubber does with memory errors (R27): events and messages touch the mailboxes and the global registers
only, and the fair-queuing tags follow without touching what a queue holds. -/

namespace Sys2Proof.Machine

/-! ### What events and messages leave unchanged -/

/-- The states agree but for the mailboxes and the global registers, which events and latched errors write. -/
def Reported (t s : State) : Prop := Agree t { s with mbx := t.mbx, glb := t.glb }

theorem Agree.reported {t s : State} (h : Agree t s) : Reported t s := { h with mbx := rfl, glb := rfl }

namespace Reported
variable {s t : State}

theorem agree (h : Reported t s) : Agree t { s with mbx := t.mbx, glb := t.glb } := h

theorem pwr (h : Reported t s) : t.pwr = s.pwr := h.agree.pwr

theorem frm (h : Reported t s) : t.frm = s.frm := h.agree.frm

theorem pf (h : Reported t s) : t.pf = s.pf := h.agree.pf

theorem prs (h : Reported t s) : t.prs = s.prs := h.agree.prs

theorem flw (h : Reported t s) : t.flw = s.flw := h.agree.flw

theorem sch (h : Reported t s) : t.sch = s.sch := h.agree.sch

theorem cph (h : Reported t s) : t.cph = s.cph := h.agree.cph

theorem invalid (h : Reported t s) : t.cnt.invalid = s.cnt.invalid := h.agree.invalid_eq

@[refl] protected theorem refl (s : State) : Reported s s := (Agree.refl s).reported

@[trans] protected theorem trans {t u s : State} (h : Reported t u) (k : Reported u s) : Reported t s :=
  Agree.trans h (Agree.withMbxGlb k t.mbx t.glb)

theorem foldl {α : Type} {f : State → α → State} (hf : ∀ t a, Reported (f t a) t) (l : List α) (s : State) :
    Reported (l.foldl f s) s :=
  List.foldlRecOn (motive := (Reported · s)) l f (.refl s) fun t ht a _ => (hf t a).trans ht

end Reported

theorem reported_mbx (m : Mbx) (s : State) : Reported { s with mbx := m } s := Agree.refl _

theorem reported_glb (g : Glb) (s : State) : Reported { s with glb := g } s := Agree.refl _

theorem reported_ev (e : Nat) (s : State) : Reported (ev e s) s := (agree_ev e s).reported

theorem reported_raise (v : Nat) (s : State) : Reported (raise v s) s := (agree_raise v s).reported

theorem reported_setError (n : Nat) (s : State) : Reported (setError n s) s := (reported_raise _ _).trans (reported_glb _ _)

theorem reported_setMbxEvent (n : Nat) (s : State) : Reported (setMbxEvent n s) s :=
  (reported_raise _ _).trans (reported_mbx _ _)

theorem reported_notify (c : Nat) (s : State) : Reported (notify c s) s := by
  unfold notify
  split_ifs
  · exact reported_raise _ _
  · exact reported_raise _ _
  · rfl

theorem reported_post (c : Nat) (s : State) : Reported (post c s) s :=
  (reported_notify _ _).trans ((reported_ev _ _).trans (reported_mbx _ _))

theorem reported_trySend (n : Nat) (s : State) : Reported (trySend n s) s := by
  unfold trySend
  split
  · split
    · rfl
    · exact (reported_post _ _).trans ((reported_mbx _ _).trans (reported_mbx _ _))
  · rfl

theorem reported_beginOverflow (n : Nat) (s : State) : Reported (beginOverflow n s) s := by
  unfold beginOverflow
  split
  · rfl
  · exact (reported_setMbxEvent _ _).trans ((reported_ev _ _).trans (reported_mbx _ _))

theorem reported_discardOut (n k : Nat) (s : State) : Reported (discardOut n k s) s :=
  (agree_count _ _ _ _).reported.trans (reported_mbx _ _)

theorem reported_enqueueOut (n : Nat) (m : OutMsg) (s : State) : Reported (enqueueOut n m s) s := by
  have queued (q : List OutMsg) : Reported (trySend n (setOutQ n q s)) s :=
    (reported_trySend _ _).trans (reported_mbx _ _)
  have overflowed : Reported (discardOut n 1 (beginOverflow n s)) s :=
    (reported_discardOut _ _ _).trans (reported_beginOverflow _ _)
  simp only [enqueueOut]
  split_ifs
  · exact queued _
  · exact queued _
  · exact overflowed
  · exact reported_discardOut _ _ _
  · exact queued _
  · exact overflowed

theorem reported_event (num : Nat) (data : List Word) (s : State) : Reported (event num data s) s := by
  unfold event
  split
  · exact (reported_enqueueOut _ _ _).trans (reported_mbx _ _)
  · rfl

theorem reported_evReport (num : Nat) (data : List Word) (s : State) : Reported (evReport num data s) s :=
  (reported_event _ _ _).trans (reported_ev _ _)

theorem reported_finishPend (p : Pend) (code : Nat) (data : List Word) (s : State) : Reported (finishPend p code data s) s := by
  unfold finishPend sendResult
  exact (reported_enqueueOut _ _ _).trans (reported_mbx _ _)

theorem reported_finishWait (w : Wait) (code : Nat) (data : List Word) (s : State) : Reported (finishWait w code data s) s :=
  Reported.foldl (fun t p => reported_finishPend p code data t) _ s

/-! ### Queues, policers and key slots -/

@[simp] theorem queue_setQueue_same (q : Nat) (x : Queue) (s : State) : queue (setQueue q x s) q = x :=
  mget_mput_same _ _ _ _

theorem queue_setQueue_of_ne {q k : Nat} (h : k ≠ q) (x : Queue) (s : State) : queue (setQueue q x s) k = queue s k :=
  mget_mput_of_ne _ _ _ h

@[simp] theorem policer_setPolicer_same (n : Nat) (x : Policer) (s : State) : policer (setPolicer n x s) n = x :=
  mget_mput_same _ _ _ _

@[simp] theorem keySlot_setKeySlot_same (n : Nat) (k : KeySlot) (s : State) : keySlot (setKeySlot n k s) n = k :=
  mget_mput_same _ _ _ _

theorem keySlot_setKeySlot_of_ne {n k : Nat} (h : k ≠ n) (x : KeySlot) (s : State) :
    keySlot (setKeySlot n x s) k = keySlot s k :=
  mget_mput_of_ne _ _ _ h

/-- Parking a queue leaves the frames of every queue. -/
theorem frames_park (i q : Nat) (s : State) :
    (queue (setQueue i { queue s i with parked := true } s) q).frames = (queue s q).frames := by
  by_cases h : q = i
  · subst h; simp
  · rw [queue_setQueue_of_ne h]

/-! ### The fair-queuing tags (R215-R217) -/

/-- Only tags may differ: of queues, nodes and rings. -/
structure Retagged (t s : State) : Prop where
  rest : { t with sch := s.sch, dma := s.dma } = s
  queues : ∀ q, { queue t q with tags := tagsReset } = { queue s q with tags := tagsReset }
  pols : t.sch.pols = s.sch.pols

namespace Retagged
variable {s t u : State}

@[refl] protected theorem refl (s : State) : Retagged s s := ⟨rfl, fun _ => rfl, rfl⟩

@[trans] protected theorem trans (h : Retagged t u) (k : Retagged u s) : Retagged t s where
  rest := (congrArg (fun x : State => { x with sch := s.sch, dma := s.dma }) h.rest).trans k.rest
  queues q := (h.queues q).trans (k.queues q)
  pols := h.pols.trans k.pols

theorem foldl {α : Type} {f : State → α → State} (hf : ∀ t a, Retagged (f t a) t) (l : List α) (s : State) :
    Retagged (l.foldl f s) s :=
  List.foldlRecOn (motive := (Retagged · s)) l f (.refl s) fun t ht a _ => (hf t a).trans ht

theorem flw_eq (h : Retagged t s) : t.flw = s.flw := by simpa using congrArg State.flw h.rest

theorem parked_eq (h : Retagged t s) (q : Nat) : (queue t q).parked = (queue s q).parked := by
  simpa using congrArg Queue.parked (h.queues q)

theorem frames_eq (h : Retagged t s) (q : Nat) : (queue t q).frames = (queue s q).frames := by
  simpa using congrArg Queue.frames (h.queues q)

end Retagged

theorem retagged_setChildTags (cls : Cls) (c : Child) (g : Tags) (s : State) : Retagged (setChildTags cls c g s) s := by
  cases c with
  | queue q =>
    refine ⟨rfl, fun k => ?_, rfl⟩
    by_cases h : k = q
    · subst h; simp [setChildTags]
    · simp [setChildTags, queue_setQueue_of_ne h]
  | sub n => exact ⟨rfl, fun _ => rfl, rfl⟩
  | svc n => exact ⟨rfl, fun _ => rfl, rfl⟩
  | ring n => exact ⟨rfl, fun _ => rfl, rfl⟩

theorem retagged_setParentTags (cls : Cls) (p : Parent) (g : Tags) (s : State) : Retagged (setParentTags cls p g s) s := by
  cases p <;> exact ⟨rfl, fun _ => rfl, rfl⟩

theorem retagged_restChild (cls : Cls) (s : State) (c : Child) : Retagged (restChild cls s c) s := by
  simp only [restChild]
  split
  · exact retagged_setChildTags _ _ _ _
  · rfl

theorem retagged_restParent (cls : Cls) (s : State) (c : Child) : Retagged (restParent cls s c) s := by
  simp only [restParent]
  split
  · rfl
  · exact retagged_setParentTags _ _ _ _

theorem retagged_wakeChild (cls : Cls) (s : State) (c : Child) : Retagged (wakeChild cls s c) s := by
  simp only [wakeChild]
  split
  · exact retagged_setChildTags _ _ _ _
  · rfl

theorem retagged_followClass (cls : Cls) (s : State) : Retagged (followClass cls s) s :=
  (Retagged.foldl (retagged_wakeChild cls) _ _).trans
    ((Retagged.foldl (retagged_restParent cls) _ _).trans (Retagged.foldl (retagged_restChild cls) _ _))

theorem retagged_followTags (s : State) : Retagged (followTags s) s :=
  (retagged_followClass _ _).trans (retagged_followClass _ _)

/-! ### Versions -/

theorem version_setVersion_same (v : Nat) (x : Version) (s : State) : version (setVersion v x s) v = x := by
  unfold version setVersion
  split_ifs <;> rfl

theorem version_setVersion_other {v w : Nat} (h : w = 0 ↔ v ≠ 0) (x : Version) (s : State) :
    version (setVersion v x s) w = version s w := by
  unfold version setVersion
  split_ifs with hw hv hv
  · exact absurd hv (h.mp hw)
  · rfl
  · rfl
  · exact absurd (h.mpr hv) hw

theorem Reported.version_eq {t s : State} (h : Reported t s) (v : Nat) : version t v = version s v := by
  simp only [version, h.prs]

/-- A live version that holds the word is faulty afterwards, whether or not it was so before. -/
theorem version_markFaulty_same (v : Nat) (holds : Bool) (s : State) :
    version (markFaulty v holds s) v =
      if holds && (version s v).st != .free then { version s v with faulty := true } else version s v := by
  simp only [markFaulty]
  cases hlive : holds && (version s v).st != .free with
  | false => simp
  | true =>
    cases hfaulty : (version s v).faulty with
    | true =>
      have already : { version s v with faulty := true } = version s v := by rw [← hfaulty]
      simp [already]
    | false => simp [(reported_evReport _ _ _).version_eq, version_setVersion_same]

theorem version_markFaulty_other {v w : Nat} (h : w = 0 ↔ v ≠ 0) (holds : Bool) (s : State) :
    version (markFaulty v holds s) w = version s w := by
  simp only [markFaulty]
  split
  · rw [(reported_evReport _ _ _).version_eq, version_setVersion_other h]
  · rfl

theorem v0_rulesHit (i : Nat) (s : State) : (rulesHit i s).prs.v0 =
    if (rulesHolders s i).1 && s.prs.v0.st != .free then { s.prs.v0 with faulty := true } else s.prs.v0 :=
  (version_markFaulty_other (w := 0) (by decide) _ _).trans (version_markFaulty_same 0 _ s)

theorem v1_rulesHit (i : Nat) (s : State) : (rulesHit i s).prs.v1 =
    if (rulesHolders s i).2 && s.prs.v1.st != .free then { s.prs.v1 with faulty := true } else s.prs.v1 := by
  have kept : version (markFaulty 0 (rulesHolders s i).1 s) 1 = s.prs.v1 := version_markFaulty_other (by decide) _ s
  have marked := version_markFaulty_same 1 (rulesHolders s i).2 (markFaulty 0 (rulesHolders s i).1 s)
  rwa [kept] at marked

/-! ### The regions of R27 -/

theorem reported_flowHit (n : Nat) (hides : Bool) (s : State) :
    Reported (flowHit n hides s) { s with flw := { s.flw with slots := merase s.flw.slots n } } :=
  reported_evReport _ _ _

theorem reported_keyHit (n : Nat) (s : State) : Reported (keyHit n s)
    (setKeySlot n { st := .empty, key := [], gen := nextGen (keySlot s n).gen, usage := 0 } s) :=
  (reported_finishWait _ _ _ _).trans (reported_ev _ _)

/-- A queue hit: parked and reported, and then the tags follow. -/
theorem queueStateHit_queue (i : Nat) (s : State) : ∃ u, Retagged (queueStateHit 0 i s) u ∧
    Reported u (setQueue i { queue s i with parked := true } s) :=
  ⟨_, retagged_followTags _, reported_evReport _ _ _⟩

/-- A policer hit: parked and reported, and then the tags follow. -/
theorem queueStateHit_policer (i : Nat) (s : State) : ∃ u, Retagged (queueStateHit 4 i s) u ∧
    Reported u (setPolicer i { policer s i with parked := true } s) :=
  ⟨_, retagged_followTags _, reported_evReport _ _ _⟩

/-- An error in an event counter names one of the 16 or fewer that the event has. -/
theorem aux_lt_of_eccNames {e : EccError} (hnames : eccNames e = true) (hregion : e.region = .counters)
    (hindex : e.index < 0x10000) : e.aux < 16 := by
  have hle := evInsts_le e.index
  simp only [eccNames, hregion, Bool.or_eq_true, Bool.and_eq_true, decide_eq_true_eq] at hnames
  omega

/-- The hit of an event counter. -/
theorem counterHit_event {i : Nat} (aux : Nat) (s : State) (h : i < 0x10000) :
    counter (counterHit i aux s) i aux = 0 ∧ mget false (counterHit i aux s).cnt.invalid (evKey i aux) = true ∧
      (counterHit i aux s).flw = s.flw ∧ (counterHit i aux s).sch = s.sch := by
  simp [counterHit, h, counter]

/-! ### SCRUBBER_PASS -/

theorem exec_scrubberPass (l : List EccError) (s : State) : exec (.scrubberPass l) s = done s (l.foldl scrubError s) := rfl

theorem error_raise (v : Nat) (s : State) : (raise v s).glb = s.glb := by
  unfold raise
  split_ifs <;> rfl

theorem error_setError (n : Nat) (s : State) : (setError n s).glb.error = s.glb.error ||| BitVec.ofNat 64 (2 ^ n) := by
  simp [setError, error_raise]

theorem counter_setError (n : Nat) (s : State) (e i : Nat) : counter (setError n s) e i = counter s e i := by
  simp only [setError, counter, cnt_raise]

/-- A two-bit error in a region that is ON is counted, has the effect of its region, and is latched in GLB_ERROR; after
that effect the command writes only what events write, and counts only pause frames. -/
theorem scrubberPass_twoBits {s : State} {e : EccError} (hnames : eccNames e = true) (hon : on s (eccDom e) = true)
    (htwo : e.twoBits = true) : ∃ c t, Agree c s ∧ exec (.scrubberPass [e]) s = .next t ∧ t.glb.error.getLsbD 2 = true ∧
      Reported t (twoBits e c) ∧ ∀ f i, f ≠ 0x090C → i < 16 → counter t f i = counter (twoBits e c) f i := by
  obtain ⟨t, ht, hagree, hcounter⟩ := done_spec s (setError 2 (twoBits e (count 0x0E31 (regionNo e.region) 1 s)))
  refine ⟨_, t, agree_count 0x0E31 (regionNo e.region) 1 s, ?_, ?_, hagree.reported.trans (reported_setError _ _),
    fun f i hf hi => (hcounter f i hf hi).trans (counter_setError _ _ _ _)⟩
  · simpa [exec_scrubberPass, scrubError, hnames, hon, htwo] using ht
  · simp [hagree.error_eq, error_setError]

theorem scrubberPass_oneBit {s : State} {e : EccError} (hnames : eccNames e = true) (hon : on s (eccDom e) = true)
    (hone : e.twoBits = false) :
    ∃ t, exec (.scrubberPass [e]) s = .next t ∧ Agree t s ∧ Counts 0x0E30 (regionNo e.region) 1 s t := by
  obtain ⟨t, ht, hagree, hcounter⟩ := done_spec s (count 0x0E30 (regionNo e.region) 1 s)
  refine ⟨t, ?_, hagree.trans (agree_count _ _ _ _), fun hdom => ?_⟩
  · simpa [exec_scrubberPass, scrubError, hnames, hon, hone] using ht
  · have hinst : regionNo e.region < 16 := by cases e.region <;> decide
    exact (hcounter _ _ (by decide) hinst).trans (counter_count_same 1 hdom)

/-- An error that names nothing of its region, or lies in a region that is not ON, has no effect. -/
theorem scrubberPass_unreached {s : State} {e : EccError} (h : eccNames e = false ∨ on s (eccDom e) = false) :
    Becomes (.scrubberPass [e]) s s := by
  have hguard : (!eccNames e || !on s (eccDom e)) = true := by simpa using h
  have hskip : scrubError s e = s := by simp only [scrubError, hguard, if_true]
  exact becomes_of_exec_eq_done (exec_scrubberPass [e] s) (by simpa [hskip] using Agree.refl s)

section TwoBits
variable {s : State} {e : EccError} (hnames : eccNames e = true) (hon : on s (eccDom e) = true) (htwo : e.twoBits = true)
include hnames hon htwo

theorem scrubberPass_flow (hregion : e.region = .flow) :
    ∃ t, exec (.scrubberPass [e]) s = .next t ∧ t.flw = { s.flw with slots := merase s.flw.slots e.index } ∧
      t.glb.error.getLsbD 2 = true ∧ t.sch = s.sch ∧ t.pwr = s.pwr := by
  obtain ⟨c, t, hc, ht, herror, hrep, -⟩ := scrubberPass_twoBits hnames hon htwo
  simp only [twoBits, hregion] at hrep
  have hit := hrep.trans (reported_flowHit _ _ c)
  exact ⟨t, ht, hit.flw.trans (by simp only [hc.flw]), herror, hit.sch.trans hc.sch, hit.pwr.trans hc.pwr⟩

theorem scrubberPass_queue (hregion : e.region = .queueState) (hkind : e.aux = 0) :
    ∃ t, exec (.scrubberPass [e]) s = .next t ∧ (queue t e.index).parked = true ∧
      (∀ q, (queue t q).frames = (queue s q).frames) ∧ t.glb.error.getLsbD 2 = true ∧ t.flw = s.flw := by
  obtain ⟨c, t, hc, ht, herror, hrep, -⟩ := scrubberPass_twoBits hnames hon htwo
  simp only [twoBits, hregion, hkind] at hrep
  obtain ⟨u, htags, hpark⟩ := queueStateHit_queue e.index c
  have hqueue (q : Nat) : queue t q = queue (queueStateHit 0 e.index c) q := by simp only [queue, hrep.sch]
  have hqueue' (q : Nat) : queue u q = queue (setQueue e.index { queue c e.index with parked := true } c) q := by
    simp only [queue, hpark.sch]
  have hqueueC (q : Nat) : queue c q = queue s q := by simp only [queue, hc.sch]
  refine ⟨t, ht, ?_, fun q => ?_, herror, ?_⟩
  · rw [hqueue, htags.parked_eq, hqueue', queue_setQueue_same]
  · rw [hqueue, htags.frames_eq, hqueue', frames_park, hqueueC]
  · exact hrep.flw.trans (htags.flw_eq.trans (hpark.flw.trans hc.flw))

theorem scrubberPass_policer (hregion : e.region = .queueState) (hkind : e.aux = 4) :
    ∃ t, exec (.scrubberPass [e]) s = .next t ∧ (policer t e.index).parked = true ∧ t.glb.error.getLsbD 2 = true ∧
      t.flw = s.flw := by
  obtain ⟨c, t, hc, ht, herror, hrep, -⟩ := scrubberPass_twoBits hnames hon htwo
  simp only [twoBits, hregion, hkind] at hrep
  obtain ⟨u, htags, hpark⟩ := queueStateHit_policer e.index c
  have hpolicer : policer t e.index = policer (setPolicer e.index { policer c e.index with parked := true } c) e.index := by
    simp only [policer, hrep.sch, htags.pols, hpark.sch]
  refine ⟨t, ht, ?_, herror, hrep.flw.trans (htags.flw_eq.trans (hpark.flw.trans hc.flw))⟩
  rw [hpolicer, policer_setPolicer_same]

theorem scrubberPass_counter (hregion : e.region = .counters) (hindex : e.index < 0x10000) (hpause : e.index ≠ 0x090C) :
    ∃ t, exec (.scrubberPass [e]) s = .next t ∧ counter t e.index e.aux = 0 ∧
      mget false t.cnt.invalid (evKey e.index e.aux) = true ∧ t.glb.error.getLsbD 2 = true ∧ t.flw = s.flw ∧
      t.sch = s.sch := by
  obtain ⟨c, t, hc, ht, herror, hrep, hcounter⟩ := scrubberPass_twoBits hnames hon htwo
  have hinst := aux_lt_of_eccNames hnames hregion hindex
  simp only [twoBits, hregion] at hrep hcounter
  obtain ⟨hzero, hinvalid, hflw, hsch⟩ := counterHit_event e.aux c hindex
  exact ⟨t, ht, (hcounter _ _ hpause hinst).trans hzero, by rw [hrep.invalid, hinvalid], herror,
    hrep.flw.trans (hflw.trans hc.flw), hrep.sch.trans (hsch.trans hc.sch)⟩

theorem scrubberPass_key (hregion : e.region = .keyStore) :
    ∃ t, exec (.scrubberPass [e]) s = .next t ∧
      keySlot t e.index = { st := .empty, key := [], gen := nextGen (keySlot s e.index).gen, usage := 0 } ∧
      (∀ n, n ≠ e.index → keySlot t n = keySlot s n) ∧ t.glb.error.getLsbD 2 = true ∧ t.sch = s.sch := by
  obtain ⟨c, t, hc, ht, herror, hrep, -⟩ := scrubberPass_twoBits hnames hon htwo
  simp only [twoBits, hregion] at hrep
  have hit := hrep.trans (reported_keyHit _ c)
  have hslot (n : Nat) : keySlot c n = keySlot s n := by simp only [keySlot, hc.cph]
  have hslot' (n : Nat) : keySlot t n = keySlot (setKeySlot e.index
      { st := .empty, key := [], gen := nextGen (keySlot c e.index).gen, usage := 0 } c) n := by
    simp only [keySlot, hit.cph]
  refine ⟨t, ht, ?_, fun n hn => ?_, herror, hit.sch.trans hc.sch⟩
  · rw [hslot', keySlot_setKeySlot_same, hslot]
  · rw [hslot', keySlot_setKeySlot_of_ne hn, hslot]

theorem scrubberPass_crust (hregion : e.region = .crust) :
    ∃ t, exec (.scrubberPass [e]) s = .next t ∧ t.frm = { s.frm with crustBad := true } ∧ t.glb.error.getLsbD 2 = true ∧
      t.pf = s.pf := by
  obtain ⟨c, t, hc, ht, herror, hrep, -⟩ := scrubberPass_twoBits hnames hon htwo
  simp only [twoBits, hregion] at hrep
  exact ⟨t, ht, hrep.frm.trans (by simp only [hc.frm]), herror, hrep.pf.trans hc.pf⟩

theorem scrubberPass_rules (hregion : e.region = .rules) :
    ∃ t, exec (.scrubberPass [e]) s = .next t ∧
      t.prs.v0 = (if (rulesHolders s e.index).1 && s.prs.v0.st != .free then { s.prs.v0 with faulty := true }
        else s.prs.v0) ∧
      t.prs.v1 = (if (rulesHolders s e.index).2 && s.prs.v1.st != .free then { s.prs.v1 with faulty := true }
        else s.prs.v1) ∧ t.glb.error.getLsbD 2 = true := by
  obtain ⟨c, t, hc, ht, herror, hrep, -⟩ := scrubberPass_twoBits hnames hon htwo
  simp only [twoBits, hregion] at hrep
  have hholders : rulesHolders c e.index = rulesHolders s e.index := by simp only [rulesHolders, hc.prs]
  refine ⟨t, ht, ?_, ?_, herror⟩
  · rw [hrep.prs, v0_rulesHit, hholders, hc.prs]
  · rw [hrep.prs, v1_rulesHit, hholders, hc.prs]

end TwoBits

/-- Every domain has reached ON. -/
def domainsOn : State :=
  { State.reset with pwr := { pwrReset with
    doms := (List.range 50).map fun n => (n, { st := .on, fromOff := false, everOn := true }) } }

/-- A two-bit error in the first word of a region; of the counters, that of 0x0E31. -/
def hitIn (r : EccRegion) : EccError := { region := r, index := if r = .counters then 0x0E31 else 0, aux := 0, twoBits := true }

/-- Witness: in every region a two-bit error meets the hypotheses of `scrubberPass_twoBits`. -/
theorem hitIn_reached (r : EccRegion) : eccNames (hitIn r) = true ∧ on domainsOn (eccDom (hitIn r)) = true := by
  cases r <;> decide

/-- Settles O38, region by region. -/
theorem memoryErrors : Obligations.MemoryErrors := by
  refine ⟨fun s => becomes_of_exec_eq_done (exec_scrubberPass [] s) (Agree.refl s), fun _ _ => scrubberPass_oneBit,
    fun _ _ => scrubberPass_unreached, fun _ _ => scrubberPass_flow, fun _ _ => scrubberPass_queue,
    fun _ _ => scrubberPass_policer, fun _ _ => scrubberPass_counter, fun _ _ => scrubberPass_key,
    fun _ _ => scrubberPass_crust, fun s e hnames hon htwo hregion => ?_⟩
  obtain ⟨t, ht, hv0, hv1, herror⟩ := scrubberPass_rules hnames hon htwo hregion
  refine ⟨t, ht, fun hholds hlive => ?_, fun hholds => ?_, fun hholds hlive => ?_, fun hholds => ?_, herror⟩
  · simpa [hholds, hlive] using hv0
  · simpa [hholds] using hv0
  · simpa [hholds, hlive] using hv1
  · simpa [hholds] using hv1

end Sys2Proof.Machine
end

section
/-! A read of the head of a stamp queue (R303): what a command ends with only adds to what has left the module, the rules of
the stamp queues and of what a requester latches, and the read itself. -/

namespace Sys2Proof.Machine

/-! ### What has left the module stays on record -/

@[simp] theorem out_count (e inst n : Nat) (s : State) : (count e inst n s).out = s.out := by
  unfold count
  split <;> rfl

theorem out_raise_suffix (v : Nat) (s : State) : s.out <:+ (raise v s).out := by
  unfold raise
  split_ifs
  · exact List.suffix_rfl
  · exact List.suffix_cons _ _
  · exact List.suffix_rfl

theorem out_settle_suffix (s s' : State) : s'.out <:+ (settle s s').out := by
  have raised (g : Glb) : s'.out <:+ (raise 0 { s' with glb := g }).out := out_raise_suffix 0 { s' with glb := g }
  simp only [settle]
  split_ifs
  · exact List.suffix_rfl
  · exact List.suffix_rfl
  · exact raised _

theorem out_sendPause_suffix (n prio quanta : Nat) (s : State) : s.out <:+ (sendPause n prio quanta s).out := by
  rw [sendPause, out_count]
  exact List.suffix_cons _ _

theorem out_judgePause_suffix (n prio : Nat) (s : State) : s.out <:+ (judgePause n prio s).out := by
  simp only [judgePause]
  split_ifs
  · exact out_sendPause_suffix _ _ _ (setCport _ _ s)
  · exact out_sendPause_suffix _ _ _ (setCport _ _ s)
  · exact List.suffix_rfl

theorem out_pauseFollows_suffix (s : State) : s.out <:+ (pauseFollows s).out := by
  unfold pauseFollows
  refine List.foldlRecOn (motive := fun t : State => s.out <:+ t.out) _ _ List.suffix_rfl fun t ht n _ => ?_
  simp only
  split
  · exact ht
  · exact List.foldlRecOn (motive := fun u : State => s.out <:+ u.out) _ _ ht fun u hu prio _ =>
      hu.trans (out_judgePause_suffix n prio u)

/-- What a command has sent is still on record when it has ended. -/
theorem out_suffix_of_done {s u t : State} (h : done s u = .next t) : u.out <:+ t.out := by
  cases h
  exact (out_pauseFollows_suffix u).trans (out_settle_suffix s _)

/-! ### Stamp queues and latches -/

@[simp] theorem tsq_setTsq_same (q : Nat) (x : StampQ) (s : State) : tsq (setTsq q x s) q = x := mget_mput_same _ _ _ _

theorem tsq_setTsq_of_ne {q k : Nat} (h : k ≠ q) (x : StampQ) (s : State) : tsq (setTsq q x s) k = tsq s k :=
  mget_mput_of_ne _ _ _ h

@[simp] theorem tsq_setLatch (r : Req) (l : TmuLatch) (s : State) (q : Nat) : tsq (setLatch r l s) q = tsq s q := rfl

@[simp] theorem latch_setLatch_same (r : Req) (l : TmuLatch) (s : State) : latch (setLatch r l s) r = l :=
  mget_mput_same _ _ _ _

theorem Agree.tsq_eq {t u : State} (h : Agree t u) (q : Nat) : tsq t q = tsq u q := by simp only [tsq, h.tmu]

theorem Agree.latch_eq {t u : State} (h : Agree t u) (r : Req) : latch t r = latch u r := by simp only [latch, h.tmu]

theorem readHead_nil {s : State} {q : Nat} (r : Req) (h : (tsq s q).recs = []) : readHead r q s = (0, s) := by
  simp only [readHead, h]

theorem readHead_cons {s : State} {q : Nat} {x : Stamp} {rest : List Stamp} (r : Req) (h : (tsq s q).recs = x :: rest) :
    readHead r q s = (stampWord x, setLatch r { latch s r with tsq := mput 0 (latch s r).tsq q (word x.ns) }
      (setTsq q { tsq s q with recs := rest } s)) := by
  simp only [readHead, h]

/-! ### TSQ_HEAD_READ -/

/-- A 64-bit read with a side effect, by a requester that is answered and of a block that is ON (R362). -/
theorem readSide_wide {s : State} {r : Req} {domain : Nat} (offset : Nat) (f : State → BitVec 64 × State)
    (hreach : reaches s r = true) (hon : on s domain = true) :
    readSide r offset domain true f s = emit (.readReply r (f s).1) (f s).2 := by
  simp [readSide, hreach, hon]

theorem exec_tsqHeadRead (r : Req) (q : Nat) (wide : Bool) (s : State) :
    exec (.tsqHeadRead r q wide) s = execTsqHeadRead r q wide s := rfl

section Read
variable {s : State} {r : Req} {q : Nat} (hq : q < 5) (hreach : reaches s r = true) (hon : on s 7 = true)
include hq hreach hon

/-- The read replies the word of `readHead` and leaves its state, but for what follows every command. -/
theorem tsqHeadRead_replies : ∃ t, exec (.tsqHeadRead r q true) s = .next t ∧ .readReply r (readHead r q s).1 ∈ t.out ∧
    Agree t (readHead r q s).2 := by
  obtain ⟨t, ht, hagree, -⟩ := done_spec s (emit (.readReply r (readHead r q s).1) (readHead r q s).2)
  refine ⟨t, ?_, (out_suffix_of_done ht).mem List.mem_cons_self, hagree.trans (agree_emit _ _)⟩
  rw [exec_tsqHeadRead, execTsqHeadRead, if_neg (by omega), readSide_wide _ _ hreach hon, ht]

/-- A queue with records loses the oldest and nothing else, and its time is latched. -/
theorem tsqHeadRead_cons {x : Stamp} {rest : List Stamp} (hrecs : (tsq s q).recs = x :: rest) :
    ∃ t, exec (.tsqHeadRead r q true) s = .next t ∧ .readReply r (stampWord x) ∈ t.out ∧ (tsq t q).recs = rest ∧
      mget 0 (latch t r).tsq q = word x.ns ∧ (∀ k, k ≠ q → tsq t k = tsq s k) ∧
      (tsq t q).lostTotal = (tsq s q).lostTotal := by
  obtain ⟨t, ht, hreply, hagree⟩ := tsqHeadRead_replies hq hreach hon
  rw [readHead_cons r hrecs] at hreply hagree
  have hqueue : tsq t q = { tsq s q with recs := rest } := by simp [hagree.tsq_eq]
  refine ⟨t, ht, hreply, by rw [hqueue], ?_, fun k hk => ?_, by rw [hqueue]⟩
  · simp [hagree.latch_eq]
  · rw [hagree.tsq_eq, tsq_setLatch, tsq_setTsq_of_ne hk]

theorem tsqHeadRead_nil (hrecs : (tsq s q).recs = []) :
    ∃ t, exec (.tsqHeadRead r q true) s = .next t ∧ .readReply r 0 ∈ t.out ∧ Agree t s := by
  simpa only [readHead_nil r hrecs] using tsqHeadRead_replies hq hreach hon

end Read

/-- A record of a burst start in upstream frame 7 (R301). -/
def burstRecord : Stamp := { tag := 7, lost := 0, stepped := false, gs := 3, fracHi := 0x8000, ns := 1000 }

/-- Every domain is ON, and queue 4 holds two records. -/
def twoStamps : State := setTsq 4 { tsqReset with recs := [burstRecord, { burstRecord with tag := 8, ns := 2000 }] } domainsOn

/-- Witness of `tsqHeadRead_cons`: the management processor reads the oldest of two records. -/
theorem twoStamps_read : ∃ t, exec (.tsqHeadRead .mgmt 4 true) twoStamps = .next t ∧
    .readReply .mgmt (stampWord burstRecord) ∈ t.out ∧ (tsq t 4).recs = [{ burstRecord with tag := 8, ns := 2000 }] ∧
    mget 0 (latch t .mgmt).tsq 4 = 1000 ∧ (∀ k, k ≠ 4 → tsq t k = tsq twoStamps k) ∧
    (tsq t 4).lostTotal = (tsq twoStamps 4).lostTotal :=
  tsqHeadRead_cons (by decide) (by decide) (by decide) rfl

/-- Witness of `tsqHeadRead_nil`: queue 0 beside it is empty. -/
theorem twoStamps_read_empty : ∃ t, exec (.tsqHeadRead .mgmt 0 true) twoStamps = .next t ∧ .readReply .mgmt 0 ∈ t.out ∧
    Agree t twoStamps :=
  tsqHeadRead_nil (by decide) (by decide) (by decide) rfl

/-- Settles O3: the two outcomes of a read, of a queue with records and of an empty one. -/
theorem stampQueueHead : Obligations.StampQueueHead :=
  ⟨fun _ _ _ _ _ hq hreach hon => tsqHeadRead_cons hq hreach hon, fun _ _ _ => tsqHeadRead_nil⟩

end Sys2Proof.Machine
end

section
/-! The words of the parse instructions (R163-R165): the fields of each format, read back; decoding an encoding; words and
bits. -/

namespace Sys2Proof.Machine

/-! ### The fields of a format -/

section Fields
variable {op rd ra rb fn imm sz off cond target : Nat}

theorem fmtA_op (hrd : rd < 16) (hra : ra < 16) (hrb : rb < 16) (hfn : fn < 2 ^ 14) :
    fmtA op rd ra rb fn / 2 ^ 26 = op := by unfold fmtA; omega

theorem fmtA_rd (hrd : rd < 16) (hra : ra < 16) (hrb : rb < 16) (hfn : fn < 2 ^ 14) :
    fmtA op rd ra rb fn / 2 ^ 22 % 16 = rd := by unfold fmtA; omega

theorem fmtA_ra (hra : ra < 16) (hrb : rb < 16) (hfn : fn < 2 ^ 14) :
    fmtA op rd ra rb fn / 2 ^ 18 % 16 = ra := by unfold fmtA; omega

theorem fmtA_rb (hrb : rb < 16) (hfn : fn < 2 ^ 14) : fmtA op rd ra rb fn / 2 ^ 14 % 16 = rb := by unfold fmtA; omega

theorem fmtA_fn (hfn : fn < 2 ^ 14) : fmtA op rd ra rb fn % 2 ^ 14 = fn := by unfold fmtA; omega

theorem fmtA_lt (hop : op < 64) (hrd : rd < 16) (hra : ra < 16) (hrb : rb < 16) (hfn : fn < 2 ^ 14) :
    fmtA op rd ra rb fn < 2 ^ 32 := by unfold fmtA; omega

theorem fmtB_op (hrd : rd < 16) (hra : ra < 16) (himm : imm < 2 ^ 18) : fmtB op rd ra imm / 2 ^ 26 = op := by
  unfold fmtB; omega

theorem fmtB_rd (hrd : rd < 16) (hra : ra < 16) (himm : imm < 2 ^ 18) : fmtB op rd ra imm / 2 ^ 22 % 16 = rd := by
  unfold fmtB; omega

theorem fmtB_ra (hra : ra < 16) (himm : imm < 2 ^ 18) : fmtB op rd ra imm / 2 ^ 18 % 16 = ra := by unfold fmtB; omega

theorem fmtB_imm (himm : imm < 2 ^ 18) : fmtB op rd ra imm % 2 ^ 18 = imm := by unfold fmtB; omega

theorem fmtB_lt (hop : op < 64) (hrd : rd < 16) (hra : ra < 16) (himm : imm < 2 ^ 18) :
    fmtB op rd ra imm < 2 ^ 32 := by unfold fmtB; omega

theorem b2n_lt_two (x : Bool) : b2n x < 2 := by cases x <;> decide

theorem b2n_beq_one (x : Bool) : (b2n x == 1) = x := by cases x <;> rfl

section FormatW
variable (base : Bool)

theorem fmtW_op (hrd : rd < 16) (hsz : sz < 4) (hoff : off < 512) : fmtW op rd sz base off / 2 ^ 26 = op := by
  have := b2n_lt_two base; unfold fmtW; omega

theorem fmtW_rd (hrd : rd < 16) (hsz : sz < 4) (hoff : off < 512) : fmtW op rd sz base off / 2 ^ 22 % 16 = rd := by
  have := b2n_lt_two base; unfold fmtW; omega

theorem fmtW_sz (hsz : sz < 4) (hoff : off < 512) : fmtW op rd sz base off / 2 ^ 20 % 4 = sz := by
  have := b2n_lt_two base; unfold fmtW; omega

theorem fmtW_base (hoff : off < 512) : fmtW op rd sz base off / 2 ^ 19 % 2 = b2n base := by
  have := b2n_lt_two base; unfold fmtW; omega

theorem fmtW_off (hoff : off < 512) : fmtW op rd sz base off / 2 ^ 10 % 512 = off := by
  have := b2n_lt_two base; unfold fmtW; omega

theorem fmtW_lt (hop : op < 64) (hrd : rd < 16) (hsz : sz < 4) (hoff : off < 512) :
    fmtW op rd sz base off < 2 ^ 32 := by have := b2n_lt_two base; unfold fmtW; omega

end FormatW

theorem fmtJ_op (hcond : cond < 16) (htarget : target < 2 ^ 13) : fmtJ op cond target / 2 ^ 26 = op := by
  unfold fmtJ; omega

theorem fmtJ_cond (hcond : cond < 16) (htarget : target < 2 ^ 13) : fmtJ op cond target / 2 ^ 22 % 16 = cond := by
  unfold fmtJ; omega

theorem fmtJ_target (htarget : target < 2 ^ 13) : fmtJ op cond target % 2 ^ 13 = target := by unfold fmtJ; omega

theorem fmtJ_lt (hop : op < 64) (hcond : cond < 16) (htarget : target < 2 ^ 13) : fmtJ op cond target < 2 ^ 32 := by
  unfold fmtJ; omega

end Fields

/-! ### The encoding of a well-formed instruction -/

/-- The fields of an encoding are those of its instruction. -/
theorem fieldsP_encodeP {i : PInstr} (h : i.wf = true) : fieldsP (encodeP i) = some i := by
  cases i <;> simp only [PInstr.wf, Bool.and_eq_true, decide_eq_true_eq] at h <;> unfold encodeP fieldsP
  case alu op _ _ _ =>
    rw [fmtA_op, fmtA_rd, fmtA_ra, fmtA_rb]
    · cases op <;> rfl
    all_goals omega
  case b =>
    rw [fmtJ_op, fmtJ_cond, fmtJ_target]
    · rfl
    all_goals omega
  case ld =>
    rw [fmtW_op, fmtW_rd, fmtW_sz, fmtW_base, fmtW_off, b2n_beq_one]
    · rfl
    all_goals omega
  case extr shift len =>
    have hshift : (shift * 2 ^ 8 + len) / 2 ^ 8 = shift := by omega
    have hlen : (shift * 2 ^ 8 + len) % 2 ^ 8 = len := by omega
    rw [fmtA_op, fmtA_rd, fmtA_ra, fmtA_fn]
    · dsimp only
      rw [hshift, hlen]
      rfl
    all_goals omega
  case metaf field _ cur =>
    have hcur := b2n_lt_two cur
    have hfield : (b2n cur * 2 ^ 4 + field) % 16 = field := by omega
    have hbit : (b2n cur * 2 ^ 4 + field) / 16 % 2 = b2n cur := by omega
    rw [fmtB_op, fmtB_ra, fmtB_imm]
    · dsimp only
      rw [hfield, hbit, b2n_beq_one]
      rfl
    all_goals omega
  case mov | cmp | ldx | advr | ffs =>
    all_goals
      rw [fmtA_op, fmtA_rd, fmtA_ra, fmtA_rb, fmtA_fn]
      · rfl
      all_goals omega
  all_goals
    rw [fmtB_op, fmtB_rd, fmtB_ra, fmtB_imm]
    · rfl
    all_goals omega

theorem aluCode_lt (op : AluOp) : aluCode op < 64 := by cases op <;> decide

theorem encodeP_lt {i : PInstr} (h : i.wf = true) : encodeP i < 2 ^ 32 := by
  cases i <;> simp only [PInstr.wf, Bool.and_eq_true, decide_eq_true_eq] at h
  case alu op _ _ _ => exact fmtA_lt (aluCode_lt op) (by omega) (by omega) (by omega) (by omega)
  case mov | cmp | ldx | advr | ffs | extr => all_goals exact fmtA_lt (by omega) (by omega) (by omega) (by omega) (by omega)
  case b => exact fmtJ_lt (by omega) (by omega) (by omega)
  case ld frame _ => exact fmtW_lt frame (by omega) (by omega) (by omega) (by omega)
  case metaf field ra cur =>
    have hcur := b2n_lt_two cur
    exact fmtB_lt (by omega) (by omega) (by omega) (by omega)
  all_goals exact fmtB_lt (by omega) (by omega) (by omega) (by omega)

theorem decodeP_encodeP {i : PInstr} (h : i.wf = true) : decodeP (encodeP i) = some i := by
  simp [decodeP, fieldsP_encodeP h, h]

/-- A word that decodes is the encoding of a well-formed instruction: the decoder compares it with that encoding. -/
theorem encodeP_of_decodeP {w : Nat} {i : PInstr} (h : decodeP w = some i) : encodeP i = w ∧ i.wf = true := by
  unfold decodeP at h
  split at h
  next j _ =>
    split_ifs at h with hok
    cases h
    simpa [and_comm] using hok
  next => cases h

/-- Settles O28: the fields of each format read back; the decoder itself checks the other way. -/
theorem parseRoundTrip : Obligations.ParseRoundTrip :=
  ⟨fun _ => decodeP_encodeP, fun _ _ => encodeP_of_decodeP, fun _ => encodeP_lt⟩

/-- Settles O27: each word is decoded as it stands. -/
theorem parseWords : Obligations.ParseWords := by
  unfold Obligations.ParseWords
  decide

end Sys2Proof.Machine
end

section
/-! A step takes the command at the front of the queue. -/

namespace Sys2Proof.Machine

/-- Settles O1: `step` matches on the queue, whose first command it executes on the rest. -/
theorem stepRunsFrontCommand : Obligations.StepRunsFrontCommand := fun _ _ _ => rfl

end Sys2Proof.Machine
end

section
/-! What an operation may touch: the state cut into parts, and for each operation that the commands share the list of parts
outside of which it changes nothing. What follows every command by itself is no part's content, as in `Agree`; the events
that a block counts are a part for each block. -/

namespace Sys2Proof.Machine

/-! ### Parts of the state -/

/-- The parts: the fields of the state that `Agree` compares, then finer ones, and the event counters of a block. -/
inductive Part where
  | pwr | glb | pcie | mbx | fw | line | frm | pf | ke | up | cir | perf | cnt | tmu | prs | flw | sch | adm | prt | cph
  | dma | tin | spent | free | pending
  /-- The framer beside reassembly and the frames for the cipher. -/
  | sync
  /-- The scheduler beside the frames it holds. -/
  | nodes
  /-- The burst on the air and the bursts built. -/
  | air
  /-- The event counters of a block. -/
  | events (block : Nat)
  deriving DecidableEq

/-- Two states have a part in common. -/
def Part.Same (t s : State) : Part → Prop
  | .pwr => t.pwr = s.pwr
  | .glb => { t.glb with changed := 0 } = { s.glb with changed := 0 }
  | .pcie => { t.pcie with vecs := [] } = { s.pcie with vecs := [] }
  | .mbx => t.mbx = s.mbx
  | .fw => t.fw = s.fw
  | .line => t.line = s.line
  | .frm => t.frm = s.frm
  | .pf => t.pf = s.pf
  | .ke => t.ke = s.ke
  | .up => t.up = s.up
  | .cir => t.cir = s.cir
  | .perf => t.perf = s.perf
  | .cnt => { t.cnt with counters := [], probes := [] } = { s.cnt with counters := [], probes := [] }
  | .tmu => t.tmu = s.tmu
  | .prs => t.prs = s.prs
  | .flw => t.flw = s.flw
  | .sch => t.sch = s.sch
  | .adm => t.adm = s.adm
  | .prt => (∀ n, { cport t n with pauses := [] } = { cport s n with pauses := [] }) ∧
      (∀ n, (cport s n).flow = 0 → cport t n = cport s n) ∧ t.prt.mode = s.prt.mode ∧ t.prt.filters = s.prt.filters
  | .cph => t.cph = s.cph
  | .dma => t.dma = s.dma
  | .tin => t.tin = s.tin
  | .spent => t.spent = s.spent
  | .free => t.free = s.free
  | .pending => t.pending = s.pending
  | .sync => { t.frm with reasm := [], toCipher := [] } = { s.frm with reasm := [], toCipher := [] }
  | .nodes => { t.sch with queues := [], inLine := [], inClient := [] } =
      { s.sch with queues := [], inLine := [], inClient := [] }
  | .air => t.up.onAir = s.up.onAir ∧ t.up.built = s.up.built
  | .events b => ∀ e i, e / 256 = b → i < 16 → counter t e i = counter s e i

namespace Part.Same
variable {t u s : State}

protected theorem refl (p : Part) (s : State) : p.Same s s := by
  cases p
  case prt => exact ⟨fun _ => rfl, fun _ _ => rfl, rfl, rfl⟩
  case air => exact ⟨rfl, rfl⟩
  case events => exact fun _ _ _ _ => rfl
  all_goals exact Eq.refl _

protected theorem trans {p : Part} (h : p.Same t u) (k : p.Same u s) : p.Same t s := by
  cases p
  case prt =>
    obtain ⟨hports, hstill, hmode, hfilters⟩ := h
    obtain ⟨kports, kstill, kmode, kfilters⟩ := k
    refine ⟨fun n => (hports n).trans (kports n), fun n hn => ?_, hmode.trans kmode, hfilters.trans kfilters⟩
    have hflow : (cport u n).flow = (cport s n).flow := by simpa using congrArg CPort.flow (kports n)
    exact (hstill n (hflow.trans hn)).trans (kstill n hn)
  case air => exact ⟨h.1.trans k.1, h.2.trans k.2⟩
  case events => exact fun e i he hi => (h e i he hi).trans (k e i he hi)
  all_goals exact Eq.trans h k

end Part.Same

/-- `t` is `s` but for the parts listed. -/
def Touches (l : List Part) (t s : State) : Prop := ∀ p, p ∉ l → p.Same t s

namespace Touches
variable {l m : List Part} {t u s : State}

@[refl] protected theorem refl (l : List Part) (s : State) : Touches l s s := fun p _ => .refl p s

/-- A list may be widened. -/
theorem widen (h : Touches l t s) (hl : l.all m.contains = true) : Touches m t s :=
  fun p hp => h p fun k => hp (List.contains_iff_mem.mp (List.all_eq_true.mp hl p k))

/-- Two operations in sequence. -/
theorem trans (h : Touches l t u) (k : Touches m u s) : Touches (l ++ m) t s := fun p hp =>
  (h p fun hl => hp (List.mem_append_left m hl)).trans (k p fun hm => hp (List.mem_append_right l hm))

theorem foldl {α : Type} {f : State → α → State} {xs : List α} (hf : ∀ t, ∀ x ∈ xs, Touches l (f t x) t) (s : State) :
    Touches l (xs.foldl f s) s :=
  List.foldlRecOn (motive := (Touches l · s)) xs f (.refl l s) fun t ht x hx =>
    ((hf t x hx).trans ht).widen (List.all_eq_true.mpr (by simp))

/-- What a list leaves out is the same. -/
theorem same {p : Part} (h : Touches l t s) (hl : l.contains p = false) : p.Same t s :=
  h p (by simpa using hl)

theorem pwr (h : Touches l t s) (hl : l.contains .pwr = false) : t.pwr = s.pwr := h.same hl

/-- A domain is ON as before where the supply's part is left. -/
theorem on_eq (h : Touches l t s) (d : Nat) (hl : l.contains .pwr = false) : on t d = on s d := by
  simp only [on, dom, h.pwr hl]

theorem mbx (h : Touches l t s) (hl : l.contains .mbx = false) : t.mbx = s.mbx := h.same hl

theorem fw (h : Touches l t s) (hl : l.contains .fw = false) : t.fw = s.fw := h.same hl

theorem line (h : Touches l t s) (hl : l.contains .line = false) : t.line = s.line := h.same hl

theorem frm (h : Touches l t s) (hl : l.contains .frm = false) : t.frm = s.frm := h.same hl

theorem pf (h : Touches l t s) (hl : l.contains .pf = false) : t.pf = s.pf := h.same hl

theorem ke (h : Touches l t s) (hl : l.contains .ke = false) : t.ke = s.ke := h.same hl

theorem up (h : Touches l t s) (hl : l.contains .up = false) : t.up = s.up := h.same hl

theorem cir (h : Touches l t s) (hl : l.contains .cir = false) : t.cir = s.cir := h.same hl

theorem perf (h : Touches l t s) (hl : l.contains .perf = false) : t.perf = s.perf := h.same hl

theorem tmu (h : Touches l t s) (hl : l.contains .tmu = false) : t.tmu = s.tmu := h.same hl

theorem prs (h : Touches l t s) (hl : l.contains .prs = false) : t.prs = s.prs := h.same hl

theorem flw (h : Touches l t s) (hl : l.contains .flw = false) : t.flw = s.flw := h.same hl

theorem sch (h : Touches l t s) (hl : l.contains .sch = false) : t.sch = s.sch := h.same hl

theorem adm (h : Touches l t s) (hl : l.contains .adm = false) : t.adm = s.adm := h.same hl

theorem cph (h : Touches l t s) (hl : l.contains .cph = false) : t.cph = s.cph := h.same hl

theorem dma (h : Touches l t s) (hl : l.contains .dma = false) : t.dma = s.dma := h.same hl

theorem tin (h : Touches l t s) (hl : l.contains .tin = false) : t.tin = s.tin := h.same hl

theorem spent (h : Touches l t s) (hl : l.contains .spent = false) : t.spent = s.spent := h.same hl

theorem free (h : Touches l t s) (hl : l.contains .free = false) : t.free = s.free := h.same hl

theorem pending (h : Touches l t s) (hl : l.contains .pending = false) : t.pending = s.pending := h.same hl

theorem error (h : Touches l t s) (hl : l.contains .glb = false) : t.glb.error = s.glb.error := by
  simpa using congrArg Glb.error (h.same hl : Part.Same _ _ .glb)

/-- The framer is the same but for reassembly and the frames for the cipher. -/
theorem sync (h : Touches l t s) (hl : l.contains .sync = false) :
    t.frm = { s.frm with reasm := t.frm.reasm, toCipher := t.frm.toCipher } :=
  congrArg (fun f : Frm => { f with reasm := t.frm.reasm, toCipher := t.frm.toCipher }) (h.same hl)

theorem subs (h : Touches l t s) (hl : l.contains .nodes = false) : t.sch.subs = s.sch.subs := by
  simpa using congrArg Sch.subs (h.same hl : Part.Same _ _ .nodes)

theorem onAir (h : Touches l t s) (hl : l.contains .air = false) : t.up.onAir = s.up.onAir := (h.same hl : Part.Same _ _ .air).1

theorem built (h : Touches l t s) (hl : l.contains .air = false) : t.up.built = s.up.built := (h.same hl : Part.Same _ _ .air).2

theorem counter {e i : Nat} (h : Touches l t s) (hl : l.contains (.events (e / 256)) = false) (hi : i < 16) :
    counter t e i = counter s e i :=
  (h.same hl : Part.Same _ _ (.events (e / 256))) e i rfl hi

end Touches

/-- The state with the parts listed of another. -/
def overlay (l : List Part) (t s : State) : State := { s with
  pwr := if .pwr ∈ l then t.pwr else s.pwr
  glb := if .glb ∈ l then t.glb else s.glb
  pcie := if .pcie ∈ l then t.pcie else s.pcie
  mbx := if .mbx ∈ l then t.mbx else s.mbx
  fw := if .fw ∈ l then t.fw else s.fw
  line := if .line ∈ l then t.line else s.line
  frm := if .frm ∈ l then t.frm else s.frm
  pf := if .pf ∈ l then t.pf else s.pf
  ke := if .ke ∈ l then t.ke else s.ke
  up := if .up ∈ l then t.up else s.up
  cir := if .cir ∈ l then t.cir else s.cir
  perf := if .perf ∈ l then t.perf else s.perf
  cnt := if .cnt ∈ l then t.cnt else s.cnt
  tmu := if .tmu ∈ l then t.tmu else s.tmu
  prs := if .prs ∈ l then t.prs else s.prs
  flw := if .flw ∈ l then t.flw else s.flw
  sch := if .sch ∈ l then t.sch else s.sch
  adm := if .adm ∈ l then t.adm else s.adm
  prt := if .prt ∈ l then t.prt else s.prt
  cph := if .cph ∈ l then t.cph else s.cph
  dma := if .dma ∈ l then t.dma else s.dma
  tin := if .tin ∈ l then t.tin else s.tin
  spent := if .spent ∈ l then t.spent else s.spent
  free := if .free ∈ l then t.free else s.free
  pending := if .pending ∈ l then t.pending else s.pending }

/-- What is not listed agrees. -/
theorem Touches.agree {l : List Part} {t s : State} (h : Touches l t s) : Agree t (overlay l t s) := by
  have pick {α β : Type} (f : α → β) {p : Part} {a b : α} (hab : p ∉ l → f a = f b) :
      f a = f (if p ∈ l then a else b) := by
    split
    next => rfl
    next hp => exact hab hp
  have hprt : Part.Same t (overlay l t s) .prt := by
    unfold overlay
    by_cases hp : .prt ∈ l
    · exact ⟨fun _ => by simp [hp, cport], fun _ _ => by simp [hp, cport], by simp [hp], by simp [hp]⟩
    · simpa [hp, Part.Same, cport] using h .prt hp
  obtain ⟨hports, hstill, hmode, hfilters⟩ := hprt
  exact {
    pwr := pick id (h .pwr), glb := pick (fun g : Glb => { g with changed := 0 }) (h .glb)
    pcie := pick (fun x : Pcie => { x with vecs := [] }) (h .pcie), mbx := pick id (h .mbx), fw := pick id (h .fw)
    line := pick id (h .line), frm := pick id (h .frm), pf := pick id (h .pf), ke := pick id (h .ke), up := pick id (h .up)
    cir := pick id (h .cir), perf := pick id (h .perf)
    cnt := pick (fun x : Cnt => { x with counters := [], probes := [] }) (h .cnt), tmu := pick id (h .tmu)
    prs := pick id (h .prs), flw := pick id (h .flw), sch := pick id (h .sch), adm := pick id (h .adm)
    ports := hports, still := hstill, mode := hmode, filters := hfilters, cph := pick id (h .cph), dma := pick id (h .dma)
    tin := pick id (h .tin), spent := pick id (h .spent), free := pick id (h .free), pending := pick id (h .pending) }

/-- An agreement leaves every part, once the counters are left. -/
theorem Agree.touches {t s : State} (h : Agree t s) {bs : List Nat}
    (hc : ∀ e i, e / 256 ∉ bs → i < 16 → counter t e i = counter s e i) : Touches (bs.map .events) t s := by
  intro p hp
  cases p
  case prt => exact ⟨h.ports, h.still, h.mode, h.filters⟩
  case air => exact ⟨congrArg Up.onAir h.up, congrArg Up.built h.up⟩
  case sync => exact congrArg (fun f : Frm => { f with reasm := [], toCipher := [] }) h.frm
  case nodes => exact congrArg (fun f : Sch => { f with queues := [], inLine := [], inClient := [] }) h.sch
  case events b =>
    intro e i he hi
    exact hc e i (fun hb => hp (List.mem_map_of_mem (he ▸ hb))) hi
  case pwr => exact h.pwr
  case glb => exact h.glb
  case pcie => exact h.pcie
  case mbx => exact h.mbx
  case fw => exact h.fw
  case line => exact h.line
  case frm => exact h.frm
  case pf => exact h.pf
  case ke => exact h.ke
  case up => exact h.up
  case cir => exact h.cir
  case perf => exact h.perf
  case cnt => exact h.cnt
  case tmu => exact h.tmu
  case prs => exact h.prs
  case flw => exact h.flw
  case sch => exact h.sch
  case adm => exact h.adm
  case cph => exact h.cph
  case dma => exact h.dma
  case tin => exact h.tin
  case spent => exact h.spent
  case free => exact h.free
  case pending => exact h.pending

/-! ### Writing fields -/

/-- Fields other than the counters are written: their parts alone are touched, the finer ones with their field. -/
theorem touches_overlay (l : List Part) (t s : State) (hcnt : .cnt ∉ l)
    (hfrm : .frm ∈ l → .sync ∈ l) (hsch : .sch ∈ l → .nodes ∈ l)
    (hup : .up ∈ l → .air ∈ l) : Touches l (overlay l t s) s := by
  intro p hp
  unfold overlay
  cases p
  case prt => simp [Part.Same, hp, cport]
  case sync => simp [Part.Same, mt hfrm hp]
  case nodes => simp [Part.Same, mt hsch hp]
  case air => simp [Part.Same, mt hup hp]
  case events => simp [Part.Same, hcnt, counter]
  all_goals simp [Part.Same, hp]

/-- A list may leave out a part that is the same. -/
theorem Touches.drop {p : Part} {l : List Part} {t s : State} (h : Touches (p :: l) t s) (hp : p.Same t s) : Touches l t s := by
  intro q hq
  by_cases hqp : q = p
  · exact hqp ▸ hp
  · exact h q (by simp [hqp, hq])

section Fields
variable (s : State)

theorem touches_pwr (x : Pwr) : Touches [.pwr] { s with pwr := x } s :=
  touches_overlay [.pwr] { s with pwr := x } s (by decide) (by decide) (by decide) (by decide)

theorem touches_glb (x : Glb) : Touches [.glb] { s with glb := x } s :=
  touches_overlay [.glb] { s with glb := x } s (by decide) (by decide) (by decide) (by decide)

theorem touches_mbx (x : Mbx) : Touches [.mbx] { s with mbx := x } s :=
  touches_overlay [.mbx] { s with mbx := x } s (by decide) (by decide) (by decide) (by decide)

theorem touches_fw (x : Fw) : Touches [.fw] { s with fw := x } s :=
  touches_overlay [.fw] { s with fw := x } s (by decide) (by decide) (by decide) (by decide)

theorem touches_line (x : Line) : Touches [.line] { s with line := x } s :=
  touches_overlay [.line] { s with line := x } s (by decide) (by decide) (by decide) (by decide)

theorem touches_frm (x : Frm) : Touches [.sync, .frm] { s with frm := x } s :=
  touches_overlay [.sync, .frm] { s with frm := x } s (by decide) (by decide) (by decide) (by decide)

theorem touches_reasm (r : Map Reasm) (c : List LineFrame) :
    Touches [.frm] { s with frm := { s.frm with reasm := r, toCipher := c } } s :=
  (touches_frm s _).drop rfl

theorem touches_pf (x : Pf) : Touches [.pf] { s with pf := x } s :=
  touches_overlay [.pf] { s with pf := x } s (by decide) (by decide) (by decide) (by decide)

theorem touches_ke (x : Ke) : Touches [.ke] { s with ke := x } s :=
  touches_overlay [.ke] { s with ke := x } s (by decide) (by decide) (by decide) (by decide)

theorem touches_up (x : Up) : Touches [.air, .up] { s with up := x } s :=
  touches_overlay [.air, .up] { s with up := x } s (by decide) (by decide) (by decide) (by decide)

theorem touches_cir (x : Cir) : Touches [.cir] { s with cir := x } s :=
  touches_overlay [.cir] { s with cir := x } s (by decide) (by decide) (by decide) (by decide)

theorem touches_perf (x : Map Perf) : Touches [.perf] { s with perf := x } s :=
  touches_overlay [.perf] { s with perf := x } s (by decide) (by decide) (by decide) (by decide)

theorem touches_tmu (x : Tmu) : Touches [.tmu] { s with tmu := x } s :=
  touches_overlay [.tmu] { s with tmu := x } s (by decide) (by decide) (by decide) (by decide)

theorem touches_prs (x : Prs) : Touches [.prs] { s with prs := x } s :=
  touches_overlay [.prs] { s with prs := x } s (by decide) (by decide) (by decide) (by decide)

theorem touches_flw (x : Flow) : Touches [.flw] { s with flw := x } s :=
  touches_overlay [.flw] { s with flw := x } s (by decide) (by decide) (by decide) (by decide)

theorem touches_sch (x : Sch) : Touches [.nodes, .sch] { s with sch := x } s :=
  touches_overlay [.nodes, .sch] { s with sch := x } s (by decide) (by decide) (by decide) (by decide)

theorem touches_queues (q : Map Queue) : Touches [.sch] { s with sch := { s.sch with queues := q } } s :=
  (touches_sch s _).drop rfl

theorem touches_adm (x : Adm) : Touches [.adm] { s with adm := x } s :=
  touches_overlay [.adm] { s with adm := x } s (by decide) (by decide) (by decide) (by decide)

theorem touches_prt (x : Prt) : Touches [.prt] { s with prt := x } s :=
  touches_overlay [.prt] { s with prt := x } s (by decide) (by decide) (by decide) (by decide)

theorem touches_cph (x : Cph) : Touches [.cph] { s with cph := x } s :=
  touches_overlay [.cph] { s with cph := x } s (by decide) (by decide) (by decide) (by decide)

theorem touches_dma (x : Dma) : Touches [.dma] { s with dma := x } s :=
  touches_overlay [.dma] { s with dma := x } s (by decide) (by decide) (by decide) (by decide)

theorem touches_tin (x : Tin) : Touches [.tin] { s with tin := x } s :=
  touches_overlay [.tin] { s with tin := x } s (by decide) (by decide) (by decide) (by decide)

theorem touches_free (x : Nat) : Touches [.free] { s with free := x } s :=
  touches_overlay [.free] { s with free := x } s (by decide) (by decide) (by decide) (by decide)

end Fields

/-! ### Event counts, interrupts, what leaves the module, and the end of a command -/

theorem touches_count {e i : Nat} (n : Nat) (s : State) (hi : i < 16) :
    Touches [.events (e / 256)] (count e i n s) s := by
  refine (agree_count e i n s).touches (bs := [e / 256]) fun f j hf hj => counter_count_of_ne n s ?_
  rintro hkey
  have hfe : f = e := by unfold evKey at hkey; omega
  simp [hfe] at hf

theorem touches_ev (e : Nat) (s : State) : Touches [.events (e / 256)] (ev e s) s := touches_count 1 s (by decide)

theorem touches_emit (l : List Part) (o : Out) (s : State) : Touches l (emit o s) s :=
  ((agree_emit o s).touches (bs := []) fun _ _ _ _ => rfl).widen (by simp)

theorem touches_raise (l : List Part) (v : Nat) (s : State) : Touches l (raise v s) s :=
  ((agree_raise v s).touches (bs := []) fun _ _ _ _ => by simp only [counter, cnt_raise]).widen (by simp)

/-- A count between operations that count nothing of its block. -/
theorem counts_of_touches {e i n : Nat} {l m : List Part} {t u s : State} (h : Touches l t (count e i n u)) (k : Touches m u s)
    (hl : l.contains (.events (e / 256)) = false) (hm : m.contains (.events (e / 256)) = false)
    (hpwr : m.contains .pwr = false) (hi : i < 16) : Counts e i n s t := by
  intro hon
  rw [h.counter hl hi, counter_count_same n (by rw [k.on_eq _ hpwr, hon]), k.counter hm hi]

/-- A command ends in a state that differs from what it left by pauses of ports alone. -/
theorem done_touches (s u : State) : ∃ t, done s u = .next t ∧ Touches [.events 9] t u := by
  obtain ⟨t, ht, hagree, hcount⟩ := done_spec s u
  exact ⟨t, ht, hagree.touches (bs := [9]) fun e i he hi => hcount e i (by rintro rfl; simp at he) hi⟩

/-- A command that leaves `w` leaves it but for bookkeeping, and counts what `w` has counted. -/
theorem becomesCounting_of_exec_eq_done {c : Instr} {e i : Nat} {s w v : State} (h : exec c s = done s w) (hv : Agree w v)
    (hw : Counts e i 1 s w) (he : e ≠ 0x090C) (hi : i < 16) : BecomesCounting c e i s v := by
  obtain ⟨t, ht, hagree, hcount⟩ := done_spec s w
  exact ⟨t, h.trans ht, hagree.trans hv, fun hon => (hcount e i he hi).trans (hw hon)⟩

/-- The common case: the event is the last thing that the command does. -/
theorem becomesCounting_ev {c : Instr} {e : Nat} {s : State} (h : exec c s = done s (ev e s)) (he : e ≠ 0x090C) :
    BecomesCounting c e 0 s s :=
  becomesCounting_of_exec_eq_done h (agree_ev e s) (counter_count_same 1) he (by decide)

end Sys2Proof.Machine
end

section
/-! What the operations that the commands share may touch: messages of firmware, frames that end, keys. -/

namespace Sys2Proof.Machine

/-! ### Messages, events, and the answers of commands (R400-R425) -/

/-- The mailboxes, and the events of mailboxes. -/
def mailParts : List Part := [.mbx, .events 0x0E]

theorem touches_notify (l : List Part) (c : Nat) (s : State) : Touches l (notify c s) s := by
  unfold notify
  split_ifs
  · exact touches_raise _ _ _
  · exact touches_raise _ _ _
  · rfl

theorem touches_setChan (c : Nat) (x : Chan) (s : State) : Touches [.mbx] (setChan c x s) s := touches_mbx s _

theorem touches_setOutQ (n : Nat) (q : List OutMsg) (s : State) : Touches [.mbx] (setOutQ n q s) s := touches_mbx s _

theorem touches_post (c : Nat) (s : State) : Touches mailParts (post c s) s :=
  ((touches_notify [] _ _).trans ((touches_ev _ _).trans (touches_setChan c _ s))).widen rfl

theorem touches_trySend (n : Nat) (s : State) : Touches mailParts (trySend n s) s := by
  unfold trySend
  split
  · split
    · rfl
    · exact ((touches_post _ _).trans ((touches_setChan _ _ _).trans (touches_setOutQ _ _ _))).widen rfl
  · rfl

theorem touches_setMbxEvent (n : Nat) (s : State) : Touches [.mbx] (setMbxEvent n s) s :=
  ((touches_raise [] _ _).trans (touches_mbx s _)).widen rfl

theorem touches_beginOverflow (n : Nat) (s : State) : Touches mailParts (beginOverflow n s) s := by
  unfold beginOverflow
  split
  · rfl
  · exact ((touches_setMbxEvent _ _).trans ((touches_ev _ _).trans (touches_mbx s _))).widen rfl

theorem touches_discardOut (n k : Nat) (s : State) : Touches mailParts (discardOut n k s) s :=
  ((touches_count _ _ (by decide)).trans (touches_mbx s _)).widen rfl

theorem touches_enqueueOut (n : Nat) (m : OutMsg) (s : State) : Touches mailParts (enqueueOut n m s) s := by
  have queued (q : List OutMsg) : Touches mailParts (trySend n (setOutQ n q s)) s :=
    ((touches_trySend _ _).trans (touches_setOutQ _ _ _)).widen rfl
  have overflowed : Touches mailParts (discardOut n 1 (beginOverflow n s)) s :=
    ((touches_discardOut _ _ _).trans (touches_beginOverflow _ _)).widen rfl
  simp only [enqueueOut]
  split_ifs
  · exact queued _
  · exact queued _
  · exact overflowed
  · exact touches_discardOut _ _ _
  · exact queued _
  · exact overflowed

theorem touches_event (num : Nat) (data : List Word) (s : State) : Touches mailParts (event num data s) s := by
  unfold event
  split
  · exact ((touches_enqueueOut _ _ _).trans (touches_mbx s _)).widen rfl
  · rfl

theorem touches_evReport (num : Nat) (data : List Word) (s : State) :
    Touches (mailParts ++ [.events (num / 256)]) (evReport num data s) s :=
  (touches_event _ _ _).trans (touches_ev num s)

theorem touches_finishPend (p : Pend) (code : Nat) (data : List Word) (s : State) :
    Touches mailParts (finishPend p code data s) s :=
  ((touches_enqueueOut _ _ _).trans (touches_mbx s _)).widen rfl

theorem touches_finishWait (w : Wait) (code : Nat) (data : List Word) (s : State) :
    Touches mailParts (finishWait w code data s) s :=
  Touches.foldl (fun _ _ _ => touches_finishPend _ _ _ _) s

theorem touches_acknowledge (c seq note code : Nat) (s : State) : Touches mailParts (acknowledge c seq note code s) s :=
  ((touches_ev _ _).trans (touches_setChan _ _ _)).widen rfl

theorem touches_answer (ch seq opcode : Nat) (a : Ans) (s : State) : Touches mailParts (answer ch seq opcode a s) s := by
  have pend (w : Wait) : Touches mailParts { acknowledge ch seq 0 1 s with mbx := { (acknowledge ch seq 0 1 s).mbx with
      pend := (acknowledge ch seq 0 1 s).mbx.pend ++ [{ ch := ch, seq := seq, opcode := opcode, wait := w }] } } s :=
    ((touches_mbx _ _).trans (touches_acknowledge _ _ _ _ _)).widen rfl
  cases a with
  | done => exact touches_acknowledge _ _ _ _ _
  | note code note => exact touches_acknowledge _ _ _ _ _
  | data ws => exact ((touches_enqueueOut _ _ _).trans (pend .result)).widen rfl
  | pend w => exact pend w

/-! ### Versions and frames that end (R199, R252-R256, R388) -/

theorem touches_setVersion (v : Nat) (x : Version) (s : State) : Touches [.prs] (setVersion v x s) s := by
  unfold setVersion
  split
  · exact touches_prs s _
  · exact touches_prs s _

theorem touches_reholdPools (v : Nat) (f : Bool → Bool → Bool) (s : State) : Touches [.prs] (reholdPools v f s) s :=
  touches_prs s _

theorem touches_openBatch (s : State) : Touches [.prs] (openBatch s).1 s := by
  simp only [openBatch]
  split
  · exact touches_setVersion _ _ _
  · split
    · exact touches_setVersion _ _ _
    · exact ((touches_setVersion _ _ _).trans (touches_reholdPools _ _ _)).widen rfl

theorem touches_freeVersion (v : Nat) (s : State) :
    Touches [.prs, .mbx, .events 5, .events 0x0E] (freeVersion v s) s := by
  have freed : Touches [.prs, .events 5] (ev 0x050F (setVersion v versionReset (reholdPools v (fun _ _ => false) s))) s :=
    ((touches_ev _ _).trans ((touches_setVersion _ _ _).trans (touches_reholdPools _ _ _))).widen rfl
  simp only [freeVersion]
  split
  · exact ((touches_finishWait _ _ _ _).trans ((touches_openBatch _).trans freed)).widen rfl
  · exact freed.widen rfl

theorem touches_releaseRef (v : Nat) (s : State) : Touches [.prs, .mbx, .events 5, .events 0x0E] (releaseRef v s) s := by
  simp only [releaseRef]
  split
  · exact ((touches_freeVersion _ _).trans (touches_setVersion _ _ _)).widen rfl
  · exact (touches_setVersion _ _ _).widen rfl

theorem touches_dropRef (p : Packet) (s : State) : Touches [.prs, .mbx, .events 5, .events 0x0E] (dropRef p s) s := by
  unfold dropRef
  split
  · exact touches_releaseRef _ _
  · rfl

theorem touches_setRing (rx : Bool) (n : Nat) (r : Ring) (s : State) : Touches [.dma] (setRing rx n r s) s := by
  cases rx <;> exact touches_dma s _

theorem touches_writeCpl (rx : Bool) (n : Nat) (bytes : List Byte) (s : State) : Touches [.dma] (writeCpl rx n bytes s) s := by
  simp only [writeCpl]
  split
  · have written (r : Ring) (a b : Out) : Touches [.dma] (emit b (emit a (setRing rx n r s))) s :=
      ((touches_emit [] _ _).trans ((touches_emit [] _ _).trans (touches_setRing _ _ _ _))).widen rfl
    split
    · exact written _ _ _
    · exact ((touches_raise [] _ _).trans (written _ _ _)).widen rfl
  · rfl

theorem touches_writeLive (rx : Bool) (n : Nat) (bytes : List Byte) (s : State) :
    Touches [.dma] (writeLive rx n bytes s) s := by
  unfold writeLive
  split
  · exact touches_writeCpl _ _ _ _
  · rfl

theorem touches_releaseSlots (ring k : Nat) (s : State) : Touches [.dma] (releaseSlots ring k s) s := by
  simp only [releaseSlots]
  split
  · rfl
  · exact touches_dma s _

theorem touches_finishSend (x : SegSend) (s : State) : Touches [.dma] (finishSend x s) s :=
  ((touches_writeLive _ _ _ _).trans (touches_releaseSlots _ _ _)).widen rfl

theorem touches_segEnds (t : TxInfo) (e : SegEnd) (s : State) : Touches [.dma] (segEnds t e s) s := by
  unfold segEnds
  split
  · rfl
  · simp only
    split
    · exact touches_dma s _
    · exact ((touches_finishSend _ _).trans (touches_dma s _)).widen rfl

theorem touches_txFinal (p : Packet) (status egress : Nat) (outcome : Option Word) (reason : Nat) (s : State) :
    Touches [.dma] (txFinal p status egress outcome reason s) s := by
  unfold txFinal
  split
  · rfl
  · split
    · exact touches_segEnds _ _ _
    · simp only
      split
      · exact ((touches_writeLive _ _ _ _).trans (touches_releaseSlots _ _ _)).widen rfl
      · exact touches_releaseSlots _ _ _

theorem touches_tapAdd (obj : Nat) (f : TapAcc → TapAcc) (s : State) : Touches [.tin] (tapAdd obj f s) s := by
  unfold tapAdd
  split
  · refine Touches.foldl (fun t k _ => ?_) s
    split
    · exact touches_tin t _
    · rfl
  · rfl

theorem touches_setHistEng (e : Nat) (h : Hist) (s : State) : Touches [.cnt] (setHistEng e h s) s := by
  intro p hp
  cases p
  case cnt => simp at hp
  case prt => exact ⟨fun _ => rfl, fun _ _ => rfl, rfl, rfl⟩
  case air => exact ⟨rfl, rfl⟩
  case events => exact fun _ _ _ _ => rfl
  all_goals exact Eq.refl _

theorem touches_histSample (e x : Nat) (s : State) : Touches [.cnt, .events 0x0C] (histSample e x s) s := by
  simp only [histSample]
  split
  · have counted (h : Hist) : Touches [.cnt, .events 0x0C] (ev 0x0C47 (setHistEng e h s)) s :=
      ((touches_ev _ _).trans (touches_setHistEng _ _ _)).widen rfl
    split
    · exact counted _
    · exact ((touches_raise [] _ _).trans (counted _)).widen rfl
  · exact (touches_setHistEng _ _ _).widen rfl

theorem touches_takeLatency (p : Packet) (fate : Fate) (t late : Nat) (s : State) :
    Touches [.cnt, .events 0x0C] (takeLatency p fate t late s) s := by
  unfold takeLatency
  split
  · rfl
  · split
    · rfl
    · split
      · exact (touches_ev _ _).widen rfl
      · exact touches_histSample _ _ _

theorem touches_writeRecord (p : Packet) (port : Nat) (w : Word) (s : State) :
    Touches [.dma, .events 8, .events 0x0A] (writeRecord p port w s) s := by
  unfold writeRecord
  split
  · exact (touches_ev _ _).widen rfl
  · simp only
    split
    · exact ((touches_ev _ _).trans (touches_writeCpl _ _ _ _)).widen rfl
    · exact (touches_ev _ _).widen rfl

theorem touches_reportOutcome (p : Packet) (port egress : Nat) (w : Word) (s : State) :
    Touches [.dma, .events 8, .events 0x0A] (reportOutcome p port egress w s) s := by
  unfold reportOutcome
  split
  · exact (touches_txFinal _ _ _ _ _ _).widen rfl
  · exact touches_writeRecord _ _ _ _

theorem touches_tapOutcome (port : Nat) (fate : Fate) (attr : Nat) (s : State) :
    Touches [.tin] (tapOutcome port fate attr s) s := by
  unfold tapOutcome
  split
  · split
    · rfl
    · exact touches_tapAdd _ _ _
    all_goals
      split_ifs
      · exact touches_tapAdd _ _ _
      · exact touches_tapAdd _ _ _
      · exact touches_tapAdd _ _ _
      · rfl
  · rfl

theorem touches_promiseBroken (port : Nat) (fate : Fate) (attr : Nat) (s : State) :
    Touches [.perf] (promiseBroken port fate attr s) s := by
  simp only [promiseBroken]
  split
  · exact touches_perf s _
  · rfl

/-- An outcome is an event of admission (R258). -/
theorem outcomeEvent_block {fate : Fate} (attr : Nat) (h : fate ≠ .passed) : outcomeEvent fate attr / 256 = 8 := by
  cases fate
  case passed => exact absurd rfl h
  case late =>
    simp only [outcomeEvent]
    split_ifs <;> rfl
  all_goals simp [outcomeEvent]

/-- What the end of a promise touches. -/
def outcomeParts : List Part := [.perf, .cnt, .dma, .tin, .events 8, .events 0x0A, .events 0x0C]

theorem touches_promiseEnds (p : Packet) (port t : Nat) (expired byModule : Bool) (s : State) :
    Touches outcomeParts (promiseEnds p port t expired byModule s) s := by
  have counted {fate : Fate} (attr : Nat) (h : fate ≠ .passed) : Touches [.events 8] (ev (outcomeEvent fate attr) s) s := by
    have := touches_ev (outcomeEvent fate attr) s
    rwa [outcomeEvent_block attr h] at this
  have told {fate : Fate} (attr : Nat) (h : fate ≠ .passed) : Touches [.perf, .tin, .events 8]
      (promiseBroken port fate attr (tapOutcome port fate attr (ev (outcomeEvent fate attr) s))) s :=
    ((touches_promiseBroken _ _ _ _).trans ((touches_tapOutcome _ _ _ _).trans (counted attr h))).widen rfl
  simp only [promiseEnds]
  refine ((touches_reportOutcome _ _ _ _ _).trans ((touches_takeLatency _ _ _ _ _).trans (told _ ?_))).widen rfl
  split_ifs <;> decide

theorem touches_framePasses (p : Packet) (port t : Nat) (s : State) : Touches outcomeParts (framePasses p port t s) s := by
  unfold framePasses
  split
  · exact touches_promiseEnds _ _ _ _ _ _
  · exact ((touches_txFinal _ _ _ _ _ _).trans (touches_takeLatency _ _ _ _ _)).widen rfl

/-- What the discard of a frame touches. -/
def discardParts : List Part := [.prs, .mbx, .events 5, .events 0x0E] ++ outcomeParts

theorem touches_discardFrame (p : Packet) (byModule : Bool) (s : State) :
    Touches discardParts (discardFrame p byModule s) s := by
  simp only [discardFrame]
  split
  · exact ((touches_promiseEnds _ _ _ _ _ _).trans (touches_dropRef _ _)).widen rfl
  · exact ((touches_txFinal _ _ _ _ _ _).trans (touches_dropRef _ _)).widen rfl

theorem touches_discardFrames (l : List Packet) (byModule : Bool) (s : State) :
    Touches discardParts (discardFrames l byModule s) s :=
  Touches.foldl (fun _ _ _ => touches_discardFrame _ _ _) s

/-! ### Keys and tags (R319-R322, R187) -/

/-- What a change of the key store touches. -/
def keyParts : List Part := [.cph, .mbx, .events 0x0B, .events 0x0E]

theorem touches_setKeySlot (n : Nat) (k : KeySlot) (s : State) : Touches [.cph] (setKeySlot n k s) s := touches_cph s _

theorem touches_loadKey (n usage : Nat) (key : List Byte) (s : State) : Touches [.cph, .events 0x0B] (loadKey n usage key s) s :=
  ((touches_ev _ _).trans (touches_setKeySlot _ _ _)).widen rfl

theorem touches_finishErase (n : Nat) (s : State) : Touches keyParts (finishErase n s) s :=
  ((touches_finishWait _ _ _ _).trans ((touches_ev _ _).trans (touches_setKeySlot _ _ _))).widen rfl

theorem touches_eraseKey (n : Nat) (s : State) : Touches keyParts (eraseKey n s) s := by
  simp only [eraseKey]
  split
  · split
    · exact (touches_setKeySlot _ _ _).widen rfl
    · exact ((touches_finishErase _ _).trans (touches_setKeySlot _ _ _)).widen rfl
  · rfl

theorem touches_eraseTagKey (b : Bool) (s : State) (tag : Nat) : Touches keyParts (eraseTagKey b s tag) s := by
  unfold eraseTagKey
  split
  · exact touches_eraseKey _ _
  · rfl

theorem touches_eraseEpochKeys (b : Bool) (s : State) : Touches keyParts (eraseEpochKeys b s) s :=
  ((touches_eraseKey _ _).trans (Touches.foldl (fun t x _ => touches_eraseTagKey b t x) s)).widen rfl

theorem touches_loadTagKey (b : Bool) (s : State) (tag : Nat) : Touches [.cph, .events 0x0B] (loadTagKey b s tag) s := by
  unfold loadTagKey
  split
  · split
    · rfl
    · exact touches_loadKey _ _ _ _
  · rfl

theorem touches_loadEpochKeys (b : Bool) (s : State) : Touches [.cph, .events 0x0B] (loadEpochKeys b s) s :=
  Touches.foldl (fun t x _ => touches_loadTagKey b t x) s

theorem touches_installTagKeys (tag : Nat) (s : State) : Touches [.cph, .events 0x0B] (installTagKeys tag s) s :=
  Touches.foldl (fun t b _ => touches_loadTagKey b t tag) s

/-- The entry of a tag is written; what follows of it is keys. -/
theorem touches_writeTag_keys (tag : Nat) (w : Word) (s : State) :
    Touches keyParts (writeTag tag w s) { s with flw := { s.flw with tags := minsert s.flw.tags tag w } } := by
  unfold writeTag
  generalize { s with flw := { s.flw with tags := minsert s.flw.tags tag w } } = s1
  simp only
  split
  · exact (touches_installTagKeys _ _).widen rfl
  · split
    · split
      · exact ((touches_installTagKeys _ _).trans (touches_cph s1 _)).widen rfl
      · rfl
    · exact ((touches_cph _ _).trans ((touches_eraseKey _ _).trans (touches_eraseKey _ _))).widen rfl
    · rfl

theorem touches_writeTag (tag : Nat) (w : Word) (s : State) : Touches (.flw :: keyParts) (writeTag tag w s) s :=
  ((touches_writeTag_keys tag w s).trans (touches_flw s _)).widen rfl

/-- What the removal of a tag touches. -/
def tagParts : List Part := [.flw, .frm, .events 3] ++ keyParts

theorem touches_removeTag (tag : Nat) (s : State) : Touches tagParts (removeTag tag s) s := by
  have closed : Touches [.frm, .events 3] (if (mfind s.frm.reasm tag).isSome then
      ev 0x0315 { s with frm := { s.frm with reasm := merase s.frm.reasm tag } } else s) s := by
    split
    · exact ((touches_ev _ _).trans (touches_reasm s _ _)).widen rfl
    · rfl
  simp only [removeTag]
  generalize (if (mfind s.frm.reasm tag).isSome then _ else s) = s1 at closed
  have written (t : State) (c : Cph) (f : Flow) : Touches [.cph, .flw] { t with cph := c, flw := f } t :=
    ((touches_cph { t with flw := f } c).trans (touches_flw t f)).widen rfl
  split
  · exact ((written _ _ _).trans ((touches_eraseKey _ _).trans ((touches_eraseKey _ _).trans closed))).widen rfl
  · exact ((written _ _ _).trans closed).widen rfl

end Sys2Proof.Machine
end

section
/-! What a change of the proofing state and the losses of the line's signals may touch. -/

namespace Sys2Proof.Machine

/-! ### Frames held, defects, blocks (R254, R147-R150) -/

/-- Where frames are held. -/
def heldParts : List Part := [.prs, .flw, .sch, .prt, .dma, .cir, .frm, .cph, .air, .up]

theorem touches_mapPackets (f : Packet → Packet) (s : State) :
    Touches (.sync :: .nodes :: heldParts) (mapPackets f s) s :=
  touches_overlay (.sync :: .nodes :: heldParts) (mapPackets f s) s (by decide) (by decide) (by decide) (by decide)

theorem touches_markLineFault (s : State) : Touches heldParts (markLineFault s) s :=
  ((touches_mapPackets _ s).drop rfl).drop rfl

theorem touches_setPerf (e : Nat) (x : Perf) (s : State) : Touches [.perf] (setPerf e x s) s := touches_perf s _

theorem touches_markDefect (s : State) (e : Nat) : Touches [.perf, .tin] (markDefect s e) s := by
  simp only [markDefect]
  split
  · exact ((touches_tapAdd _ _ _).trans (touches_setPerf _ _ _)).widen rfl
  · exact (touches_setPerf _ _ _).widen rfl

theorem touches_markDefects (s : State) : Touches [.perf, .tin] (markDefects s) s :=
  Touches.foldl (fun t e _ => touches_markDefect t e) s

theorem touches_reportDefect (declared : Bool) (entity code : Nat) (s : State) :
    Touches (.events 4 :: mailParts) (reportDefect declared entity code s) s := by
  cases declared
  · exact (touches_evReport 0x0415 _ _).widen rfl
  · exact (touches_evReport 0x0414 _ _).widen rfl

/-- What a defect of the section touches. -/
def defectParts : List Part := [.perf, .tin, .events 4] ++ heldParts ++ mailParts

theorem touches_rdi (s : State) : Touches [.up] { s with up := { s.up with rdi := true } } s :=
  (touches_up s _).drop ⟨rfl, rfl⟩

/-- A defect declared reaches the frames, the next burst and the performance of every entity. -/
theorem touches_declared (s : State) :
    Touches defectParts (markDefects (markLineFault { s with up := { s.up with rdi := true } })) s :=
  ((touches_markDefects _).trans ((touches_markLineFault _).trans (touches_rdi s))).widen rfl

theorem touches_setLof (b : Bool) (s : State) : Touches defectParts (setLof b s) s := by
  have reported (c : Cir) : Touches defectParts (reportDefect b 0 1 { s with cir := c }) s :=
    ((touches_reportDefect _ _ _ _).trans (touches_cir s c)).widen rfl
  simp only [setLof]
  split
  · exact (touches_cir s _).widen rfl
  · split
    · exact ((touches_declared _).trans (reported _)).widen rfl
    · exact reported _

theorem touches_setLos (b : Bool) (s : State) : Touches (.line :: .events 1 :: defectParts) (setLos b s) s := by
  have counted : Touches [.line, .events 1]
      (ev (if b then 0x0101 else 0x0102) { s with line := { s.line with los := b } }) s := by
    cases b <;> exact ((touches_ev _ _).trans (touches_line s _)).widen rfl
  unfold setLos
  generalize ev (if b then 0x0101 else 0x0102) { s with line := { s.line with los := b } } = s1 at counted
  have reported : Touches (.line :: .events 1 :: defectParts) (reportDefect b 0 0 s1) s :=
    ((touches_reportDefect b 0 0 s1).trans counted).widen rfl
  generalize reportDefect b 0 0 s1 = s2 at reported
  simp only
  split
  · exact ((touches_declared s2).trans reported).widen rfl
  · exact reported

theorem touches_setCirc (c : Nat) (x : Circuit) (s : State) : Touches [.cir] (setCirc c x s) s := touches_cir s _

theorem touches_setAbort (c : Nat) (b : Bool) (s : State) :
    Touches ([.cir, .perf, .tin, .events 4] ++ mailParts) (setAbort c b s) s := by
  have reported (x : Circuit) : Touches ([.cir, .perf, .tin, .events 4] ++ mailParts)
      (reportDefect b (objCircuit c) 6 (setCirc c x s)) s :=
    ((touches_reportDefect _ _ _ _).trans (touches_setCirc _ _ _)).widen rfl
  simp only [setAbort, setPathDefect]
  split
  · rfl
  · split
    · exact ((touches_markDefect _ _).trans (reported _)).widen rfl
    · exact reported _

theorem touches_perfBlock (e : Nat) (bad farBad : Bool) (s : State) : Touches [.perf, .tin] (perfBlock e bad farBad s) s := by
  simp only [perfBlock]
  split
  · exact ((touches_tapAdd _ _ _).trans (touches_setPerf _ _ _)).widen rfl
  · exact (touches_setPerf _ _ _).widen rfl

theorem touches_blocks (b : Map Bool) (s : State) : Touches [.up] { s with up := { s.up with blocks := b } } s :=
  (touches_up s _).drop ⟨rfl, rfl⟩

theorem touches_gsBlock (frame g : Nat) (s : State) : Touches [.perf, .tin, .up] (gsBlock frame g s) s := by
  simp only [gsBlock]
  split
  · rfl
  · exact ((touches_perfBlock _ _ _ _).trans ((touches_setPerf _ _ _).trans (touches_blocks _ s))).widen rfl

theorem touches_gsErrored (frame g : Nat) (s : State) : Touches [.perf, .tin, .up] (gsErrored frame g s) s := by
  simp only [gsErrored]
  split
  · exact touches_gsBlock _ _ _
  · exact ((touches_tapAdd _ _ _).trans ((touches_setPerf _ _ _).trans ((touches_blocks _ _).trans (touches_gsBlock _ _ _)))).widen rfl

theorem touches_gsSettle (frame g : Nat) (s : State) : Touches [.perf, .tin, .up] (gsSettle frame g s) s := by
  unfold gsSettle
  split
  · exact ((touches_gsErrored _ _ _).trans (touches_setPerf _ _ _)).widen rfl
  · rfl

/-! ### Bursts lost (R50, R97) -/

theorem touches_loseBurst (b : Burst) (s : State) : Touches discardParts (loseBurst b s) s := touches_discardFrames _ _ _

theorem touches_skipBurst (b : Burst) (s : State) : Touches (.up :: .events 2 :: discardParts) (skipBurst b s) s := by
  have errored : Touches (.up :: .events 2 :: discardParts)
      (gsErrored b.grant.frame b.grant.gs (ev 0x0205 (loseBurst b s))) s :=
    ((touches_gsErrored _ _ _).trans ((touches_ev _ _).trans (touches_loseBurst b s))).widen rfl
  have owed (t : State) (n : Nat) (d : Bool) : Touches [.up] { t with up := { t.up with rei := n, rdi := d } } t :=
    (touches_up t _).drop ⟨rfl, rfl⟩
  exact ((owed _ _ _).trans errored).widen rfl

theorem touches_loseBuilt (s : State) : Touches (.air :: .up :: .events 2 :: discardParts) (loseBuilt s) s :=
  ((Touches.foldl (fun t b _ => touches_skipBurst b t) _).trans (touches_up s _)).widen rfl

/-- What a burst cut short touches. -/
def cutParts : List Part := [.air, .up, .line, .perf, .tin, .events 2] ++ discardParts

theorem touches_cutBurst {event : Nat} (terminator : Bool) (s : State) (h : event / 256 = 2) :
    Touches cutParts (cutBurst event terminator s) s := by
  have counted (t : State) : Touches [.events 2] (ev event t) t := h ▸ touches_ev event t
  have off (u : Up) (x : Line) : Touches [.air, .up, .line] { s with up := u, line := x } s :=
    ((touches_up { s with line := x } u).trans (touches_line s x)).widen rfl
  simp only [cutBurst]
  split
  · exact ((touches_gsErrored _ _ _).trans ((touches_loseBurst _ _).trans ((touches_emit [] _ _).trans
      ((counted _).trans (off _ _))))).widen rfl
  · rfl

/-! ### Leaving PF5, and the end of a registration (R102, R131, R236, R253) -/

theorem touches_flushCircuits (s : State) : Touches (.cir :: .events 4 :: discardParts) (flushCircuits s) s :=
  ((touches_discardFrames _ _ _).trans ((touches_count _ _ (by decide)).trans (touches_cir s _))).widen rfl

theorem touches_clearAborts (s : State) : Touches ([.cir, .perf, .tin, .events 4] ++ mailParts) (clearAborts s) s :=
  Touches.foldl (fun t c _ => touches_setAbort c false t) s

theorem touches_expireTimed (s : State) : Touches (.sch :: discardParts) (expireTimed s) s :=
  ((touches_discardFrames _ _ _).trans (touches_queues s _)).widen rfl

/-- What leaving PF5 touches. -/
def leaveParts : List Part := heldParts ++ discardParts ++ tagParts ++ [.adm, .tmu, .events 2, .events 4]

theorem touches_leavePf5 (fault : Bool) (s : State) : Touches leaveParts (leavePf5 fault s) s := by
  have marked : Touches leaveParts (if fault then markLineFault s else s) s := by
    split
    · exact (touches_markLineFault s).widen rfl
    · rfl
  simp only [leavePf5]
  generalize (if fault then markLineFault s else s) = s1 at marked
  have lost : Touches leaveParts (loseBuilt (expireTimed s1)) s :=
    ((touches_loseBuilt _).trans ((touches_expireTimed s1).trans marked)).widen rfl
  generalize loseBuilt (expireTimed s1) = s2 at lost
  have untagged : Touches leaveParts (removeTag (controlTag s2) s2) s := ((touches_removeTag _ _).trans lost).widen rfl
  generalize removeTag (controlTag s2) s2 = s3 at untagged
  have ended : Touches [.up, .tmu, .adm] (lapseContracts { s3 with
      up := { s3.up with control := [] }
      tmu := { s3.tmu with disc := { s3.tmu.disc with params := none } } }) s3 :=
    ((touches_adm _ _).trans ((touches_tmu _ _).trans ((touches_up s3 { s3.up with control := [] }).drop ⟨rfl, rfl⟩))).widen rfl
  exact ((touches_clearAborts _).trans (ended.trans untagged)).widen rfl

/-- What the end of a registration touches. -/
def endParts : List Part := [.ke, .up, .pf] ++ keyParts ++ discardParts

theorem touches_endRegistration (s : State) : Touches endParts (endRegistration s) s := by
  have erased : Touches keyParts (eraseEpochKeys true (eraseEpochKeys false (eraseKey slotSess (eraseKey slotAuth s)))) s :=
    ((touches_eraseEpochKeys _ _).trans ((touches_eraseEpochKeys _ _).trans ((touches_eraseKey _ _).trans
      (touches_eraseKey _ s)))).widen rfl
  simp only [endRegistration]
  generalize eraseEpochKeys true (eraseEpochKeys false (eraseKey slotSess (eraseKey slotAuth s))) = s1 at erased
  have ended (x : Pf) : Touches [.ke, .up, .pf] { s1 with ke := keReset, up := { s1.up with frags := [] }, pf := x } s1 :=
    ((touches_pf _ _).trans (((touches_up { s1 with ke := keReset } { s1.up with frags := [] }).drop ⟨rfl, rfl⟩).trans
      (touches_ke s1 keReset))).widen rfl
  exact ((touches_discardFrames _ _ _).trans ((ended _).trans erased)).widen rfl

theorem touches_flushStore (s : State) : Touches [.fw] (flushStore s) s := by
  simp only [flushStore]
  split
  · rfl
  · exact touches_fw s _

theorem touches_saveStore (f : Store → Store) (s : State) : Touches [.fw] (saveStore f s) s :=
  ((touches_flushStore _).trans (touches_fw s _)).widen rfl

/-! ### A change of the proofing state (R102, R104) -/

/-- A state that ends the registration has ended it. -/
def pfEnded (new : PfSt) (s : State) : State := if pfUnregistered new then endRegistration s else s

/-- The fields that a change writes. -/
def pfWrite (new : PfSt) (s : State) : State :=
  let t := if new = .pf0 ∨ new = .pf7 then { s with pf := { s.pf with profiles := [], preEqd := 0, backoffMax := 7 } } else s
  { t with pf := { t.pf with
    st := new, rejecting := false, tRange := false, tAuth := false, tReject := false, tLoss := false } }

/-- What entering a state brings about beside its fields: circuits emptied, the control tag, the store, LINE_STOP ended. -/
def pfArrive (new : PfSt) (s : State) : State :=
  if new = .pf5 then writeTag (controlTag s) (word (at' (controlTag s) 44 + at' 0x1E 39 + at' 1 38)) s
  else if new = .pf7 then
    evReport 0x032A [] (saveStore (fun x => { x with emergency := true }) (flushCircuits s))
  else if new = .pf0 then finishWait .lineStop 0 [] (flushCircuits { s with pf := { s.pf with stopping := false } })
  else if new = .pf1 then flushCircuits s
  else s

/-- The change of state once PF5 is left: the fields, counted and reported, and the arrival. -/
def pfEnter (new old : PfSt) (s : State) : State :=
  let t := pfWrite new (pfEnded new s)
  pfArrive new (evReport 0x0319 [word (pfNo new + at' (pfNo old) 3 + at' t.pf.tid 8)] t)

/-- A change of state leaves PF5 where it holds, and enters the new state. -/
theorem pfGo_eq {new : PfSt} (fault : Bool) {s : State} (h : s.pf.st ≠ new) :
    pfGo new fault s = pfEnter new s.pf.st (if s.pf.st = .pf5 then leavePf5 fault s else s) := by
  unfold pfGo
  rw [if_neg h]
  rfl

theorem pfGo_same (fault : Bool) (s : State) : pfGo s.pf.st fault s = s := by simp [pfGo]

theorem touches_pfEnded (new : PfSt) (s : State) : Touches endParts (pfEnded new s) s := by
  unfold pfEnded
  split
  · exact touches_endRegistration s
  · rfl

theorem touches_pfWrite (new : PfSt) (s : State) : Touches [.pf] (pfWrite new s) s := by
  simp only [pfWrite]
  split
  · exact ((touches_pf _ _).trans (touches_pf s _)).widen rfl
  · exact touches_pf s _

/-- What entering a state touches, but for the store that PF7 writes. -/
def enterParts : List Part := [.cir, .flw, .events 3, .events 4] ++ endParts

theorem touches_pfArrive {new : PfSt} (h : new ≠ .pf7) (s : State) : Touches enterParts (pfArrive new s) s := by
  unfold pfArrive
  split_ifs
  · exact (touches_writeTag _ _ _).widen rfl
  · exact ((touches_finishWait _ _ _ _).trans ((touches_flushCircuits _).trans (touches_pf s _))).widen rfl
  · exact (touches_flushCircuits _).widen rfl
  · rfl

theorem touches_pfArrive_pf7 (s : State) : Touches (.fw :: enterParts) (pfArrive .pf7 s) s :=
  ((touches_evReport _ _ _).trans ((touches_saveStore _ _).trans (touches_flushCircuits s))).widen rfl

theorem touches_pfEnter {new : PfSt} (h : new ≠ .pf7) (old : PfSt) (s : State) : Touches enterParts (pfEnter new old s) s :=
  ((touches_pfArrive h _).trans ((touches_evReport 0x0319 _ _).trans ((touches_pfWrite _ _).trans (touches_pfEnded new s)))).widen rfl

theorem touches_pfEnter_pf7 (old : PfSt) (s : State) : Touches (.fw :: enterParts) (pfEnter .pf7 old s) s :=
  ((touches_pfArrive_pf7 _).trans ((touches_evReport 0x0319 _ _).trans ((touches_pfWrite _ _).trans (touches_pfEnded .pf7 s)))).widen rfl

/-- What a change of state touches, but for the store that PF7 writes. -/
def pfParts : List Part := enterParts ++ leaveParts

theorem touches_leave (fault : Bool) (s : State) :
    Touches leaveParts (if s.pf.st = .pf5 then leavePf5 fault s else s) s := by
  split
  · exact touches_leavePf5 fault s
  · rfl

theorem touches_pfGo {new : PfSt} (h : new ≠ .pf7) (fault : Bool) (s : State) : Touches pfParts (pfGo new fault s) s := by
  by_cases hst : s.pf.st = new
  · subst hst
    rw [pfGo_same]
  · rw [pfGo_eq fault hst]
    exact ((touches_pfEnter h _ _).trans (touches_leave fault s)).widen rfl

theorem touches_pfGo_pf7 (fault : Bool) (s : State) : Touches (.fw :: pfParts) (pfGo .pf7 fault s) s := by
  by_cases hst : s.pf.st = .pf7
  · rw [← hst, pfGo_same]
  · rw [pfGo_eq fault hst]
    exact ((touches_pfEnter_pf7 _ _).trans (touches_leave fault s)).widen rfl

/-- From a state other than PF5, nothing of what leaving PF5 touches beside what entering does. -/
theorem touches_pfGo_of_ne_pf5 {new : PfSt} (h : new ≠ .pf7) (fault : Bool) {s : State} (h5 : s.pf.st ≠ .pf5) :
    Touches enterParts (pfGo new fault s) s := by
  by_cases hst : s.pf.st = new
  · subst hst
    rw [pfGo_same]
  · rw [pfGo_eq fault hst, if_neg h5]
    exact touches_pfEnter h _ _

/-- The rogue latch sends every state from PF2 to PF6 to PF0 (R104). -/
def followRogue (s : State) : State :=
  if s.line.rogueCut then
    match s.pf.st with
    | .pf2 | .pf3 | .pf4 | .pf5 | .pf6 => pfGo .pf0 true s
    | _ => s
  else s

/-- The state follows LINE_SYNC (R104). -/
def followSync (s : State) : State :=
  if pfSync s then
    (if s.pf.st = .pf6 then pfGo .pf5 false s else s)
  else match s.pf.st with
    | .pf1 | .pf2 | .pf3 | .pf4 => pfGo .pf0 true s
    | .pf5 => let t := pfGo .pf6 true s; { t with pf := { t.pf with tLoss := true } }
    | _ => s

/-- PF0 is left as soon as nothing holds it (R104). -/
def followStart (s : State) : State :=
  if s.pf.st = .pf0 ∧ pfSync s ∧ s.pf.held = false then pfGo .pf1 false s else s

theorem pfFollow_eq {s : State} (h : pfRuns s = true) : pfFollow s = followStart (followSync (followRogue s)) := by
  simp only [pfFollow, h, Bool.not_true, Bool.false_eq_true, if_false]
  rfl

theorem pfFollow_of_not_runs {s : State} (h : pfRuns s = false) : pfFollow s = s := by simp [pfFollow, h]

theorem touches_followRogue (s : State) : Touches pfParts (followRogue s) s := by
  unfold followRogue
  split
  · split
    case h_6 => rfl
    all_goals exact touches_pfGo (by decide) _ _
  · rfl

theorem touches_followSync (s : State) : Touches pfParts (followSync s) s := by
  unfold followSync
  split
  · split
    · exact touches_pfGo (by decide) _ _
    · rfl
  · split
    case h_5 => exact ((touches_pf _ _).trans (touches_pfGo (by decide) true s)).widen rfl
    case h_6 => rfl
    all_goals exact touches_pfGo (by decide) _ _

theorem touches_followStart (s : State) : Touches pfParts (followStart s) s := by
  unfold followStart
  split
  · exact touches_pfGo (by decide) _ _
  · rfl

theorem touches_pfFollow (s : State) : Touches pfParts (pfFollow s) s := by
  cases hruns : pfRuns s with
  | false => rw [pfFollow_of_not_runs hruns]
  | true =>
    rw [pfFollow_eq hruns]
    exact ((touches_followStart _).trans ((touches_followSync _).trans (touches_followRogue s))).widen rfl

/-! ### Losses (R22, R23, R46, R73) -/

theorem touches_setTmuEvent (n : Nat) (s : State) : Touches [.tmu] (setTmuEvent n s) s :=
  ((touches_raise [] _ _).trans (touches_tmu s _)).widen rfl

/-- What a change of the time state touches. -/
def timeParts : List Part := .tmu :: .events 0x0C :: mailParts

theorem touches_setTimeSt (new : TimeSt) (s : State) : Touches timeParts (setTimeSt new s) s := by
  have told {c : Prop} [Decidable c] (e : Nat) (n : Nat) {t : State} (he : e / 256 = 0x0C) (ht : Touches timeParts t s) :
      Touches timeParts (if c then setTmuEvent n (ev e t) else t) s := by
    split
    · exact ((touches_setTmuEvent n _).trans ((he ▸ touches_ev e t : Touches [.events 0x0C] (ev e t) t).trans ht)).widen rfl
    · exact ht
  unfold setTimeSt
  simp only
  split
  · rfl
  · refine ((touches_evReport 0x0C07 _ _).trans (told 0x0C06 _ rfl (told 0x0C05 _ rfl
      (told 0x0C03 _ rfl (told 0x0C04 _ rfl ((?_ : Touches [.tmu] _ s).widen rfl)))))).widen rfl
    refine ((touches_tmu _ _).trans (m := [.tmu]) ?_).widen rfl
    split
    · exact ((touches_tmu _ _).trans (touches_tmu s _)).widen rfl
    · exact (touches_tmu s _).widen rfl
    · rfl

theorem touches_timeRootLost (s : State) : Touches timeParts (timeRootLost s) s := by
  unfold timeRootLost
  split
  · exact touches_setTimeSt _ _
  · rfl

/-- What the loss of the root touches. -/
def rootParts : List Part := cutParts ++ timeParts

theorem touches_rootLost (s : State) : Touches rootParts (rootLost s) s := by
  unfold rootLost
  split
  · exact ((touches_timeRootLost _).trans ((touches_cutBurst true _ rfl).trans (touches_line s _))).widen rfl
  · rfl

/-- What the loss of sync touches. -/
def syncParts : List Part := .sync :: pfParts ++ defectParts

theorem touches_syncLost (s : State) : Touches syncParts (syncLost s) s := by
  have cleared (x : Frm) : Touches syncParts { s with frm := x } s := (touches_frm s x).widen rfl
  unfold syncLost
  simp only
  split
  · exact ((touches_pfFollow _).trans ((touches_setLof true _).trans (cleared _))).widen rfl
  · exact cleared _

/-- What the loss of the signal touches. -/
def rxParts : List Part := .line :: syncParts ++ rootParts

theorem touches_rxLost (s : State) : Touches rxParts (rxLost s) s :=
  ((touches_rootLost _).trans ((touches_syncLost _).trans (touches_line s _))).widen rfl

theorem touches_releaseRogue (s : State) : Touches (.line :: .events 3 :: mailParts) (releaseRogue s) s :=
  ((touches_finishWait _ _ _ _).trans ((touches_ev _ _).trans (touches_line s _))).widen rfl

end Sys2Proof.Machine
end

section
/-! The run of a command of the host (R417-R421), and the line commands of group 0x03. -/

namespace Sys2Proof.Machine

/-! ### Accepted and refused commands -/

/-- An accepted command has its effect, and its answer is given. -/
theorem runIf_accepted {cmd : IfCmd} {ch : Nat} {s : State} (h : Accepted cmd ch s) : runIf cmd ch s =
    answer ch (seqOf s ch) cmd.opcode (cmd.effect ch (msgWords (chan s ch)) s).2 (cmd.effect ch (msgWords (chan s ch)) s).1 := by
  obtain ⟨htakes, hrefusal, hcheck, hflash⟩ := h
  simp [runIf, htakes, hrefusal, hcheck, hflash, seqOf]

/-- A command that a check refuses without an event of its block is acknowledged with the code of that check. -/
theorem runIf_refused {cmd : IfCmd} {ch code : Nat} {s : State} (htakes : takes s ch cmd.opcode = true)
    (h : refusal cmd ch (msgWords (chan s ch)) (fld (chanWord (chan s ch) 0) 31 24) (chanWord (chan s ch) 0) s =
      some (code, none)) : runIf cmd ch s = acknowledge ch (seqOf s ch) 0 code s := by
  simp [runIf, htakes, h, seqOf]

/-- An accepted command answers, with the effect of its row. -/
theorem answers_of_effect {c : Instr} {cmd : IfCmd} {ch : Nat} {s u : State} {a : Ans}
    (hexec : exec c s = done s (runIf cmd ch s)) (h : Accepted cmd ch s)
    (heffect : cmd.effect ch (msgWords (chan s ch)) s = (u, a)) : Answers c cmd.opcode ch a s u := by
  refine becomes_of_exec_eq_done hexec ?_
  rw [runIf_accepted h, heffect]

/-- What an accepted command leaves beside its effect: mailboxes, and pauses of ports. -/
theorem accepted_touches {c : Instr} {cmd : IfCmd} {ch : Nat} {s u : State} {a : Ans}
    (hexec : exec c s = done s (runIf cmd ch s)) (h : Accepted cmd ch s)
    (heffect : cmd.effect ch (msgWords (chan s ch)) s = (u, a)) :
    ∃ t, exec c s = .next t ∧ Touches (.events 9 :: mailParts) t u := by
  obtain ⟨t, ht, htouch⟩ := done_touches s (runIf cmd ch s)
  rw [runIf_accepted h, heffect] at htouch
  exact ⟨t, hexec.trans ht, htouch.trans (touches_answer _ _ _ _ _)⟩

/-- A command that is not refused has passed the checks of its row: length, domains, readiness, ranges, state (R418). -/
theorem refusal_eq_none {cmd : IfCmd} {ch len : Nat} {ws : List Word} {w0 : Word} {s : State}
    (h : refusal cmd ch ws len w0 s = none) : cmd.len ws len = true ∧ allOn s (cmd.domains ws) = true ∧
      cmd.ready s ws = true ∧ cmd.range s ws = true ∧ cmd.check s ws = none := by
  simp only [refusal] at h
  split_ifs at h with _ hlen _ _ hready _ hrange
  all_goals
    simp only [Bool.not_eq_true', Bool.not_eq_false, Bool.and_eq_true] at hlen hready hrange
    cases hcheck : cmd.check s ws with
    | some r => simp [hcheck] at h
    | none => exact ⟨hlen.2, hready.1, hready.2, hrange, rfl⟩

namespace Accepted
variable {cmd : IfCmd} {ch : Nat} {s : State} (h : Accepted cmd ch s)
include h

theorem takes : Machine.takes s ch cmd.opcode = true := h.1

theorem len : cmd.len (msgWords (chan s ch)) (fld (chanWord (chan s ch) 0) 31 24) = true := (refusal_eq_none h.2.1).1

theorem domains : allOn s (cmd.domains (msgWords (chan s ch))) = true := (refusal_eq_none h.2.1).2.1

theorem ready : cmd.ready s (msgWords (chan s ch)) = true := (refusal_eq_none h.2.1).2.2.1

theorem range : cmd.range s (msgWords (chan s ch)) = true := (refusal_eq_none h.2.1).2.2.2.1

theorem check : cmd.check s (msgWords (chan s ch)) = none := (refusal_eq_none h.2.1).2.2.2.2

end Accepted

/-! ### LINE_LOOPBACK and BIT_SLIP refused (R57, R59) -/

theorem lineLoopback_denied {s : State} {ch : Nat} (htakes : takes s ch 0x0305 = true) (hrec : s.fw.recovery = false)
    (hlen : fld (chanWord (chan s ch) 0) 31 24 = 2) (hflags : fld (chanWord (chan s ch) 0) 23 18 = 0)
    (hforce : bit (chanWord (chan s ch) 0) 16 = false) (hpend : s.mbx.pend = []) (hrx : on s 9 = true) (htx : on s 10 = true)
    (hbits : onlyBits (argOf s ch 1) 7 = true) (hstart : bit (argOf s ch 1) 0 = true) (h0 : s.pf.st ≠ .pf0)
    (h7 : s.pf.st ≠ .pf7) : Becomes (.lineLoopback ch) s (acknowledge ch (seqOf s ch) 0 0x8005 s) := by
  refine becomes_of_exec_eq_done (rfl : _ = done s (runIf cmdLineLoopback ch s)) ?_
  rw [runIf_refused (code := 0x8005) htakes]
  simp only [argOf] at hbits hstart
  simp [refusal, cmdLineLoopback, lenIs, allOn, hrec, hlen, hflags, hforce, hpend, hrx, htx, hbits, hstart, h0, h7]

theorem bitSlip_notReady {s : State} {ch : Nat} (htakes : takes s ch 0x0309 = true) (hrec : s.fw.recovery = false)
    (hlen : fld (chanWord (chan s ch) 0) 31 24 = 1) (hflags : fld (chanWord (chan s ch) 0) 23 18 = 0)
    (hforce : bit (chanWord (chan s ch) 0) 16 = false) (hpend : s.mbx.pend = [])
    (h : on s 9 = false ∨ proofingLoop s = false ∨ s.line.autoSlip = true) :
    Becomes (.bitSlip ch) s (acknowledge ch (seqOf s ch) 0 0x8004 s) := by
  refine becomes_of_exec_eq_done (rfl : _ = done s (runIf cmdBitSlip ch s)) ?_
  rw [runIf_refused (code := 0x8004) htakes]
  have hready : (on s 9 && (proofingLoop s && !s.line.autoSlip)) = false := by
    obtain h | h | h := h <;> simp [h]
  simp [refusal, cmdBitSlip, lenIs, allOn, hrec, hlen, hflags, hforce, hpend, hready]

/-- Settles O9: the check of the state refuses the one, the readiness conditions the other. -/
theorem loopRefusals : Obligations.LoopRefusals :=
  ⟨fun _ _ => lineLoopback_denied, fun _ _ => bitSlip_notReady⟩

/-! ### The losses of a receiver -/

/-- The burst on the air is cut: laser enable is released, nothing else of the line changes. -/
theorem line_cutBurst (event : Nat) (terminator : Bool) (s : State) (h : event / 256 = 2) :
    ∃ l, (cutBurst event terminator s).line = { s.line with laserOn := l } := by
  have counted (t : State) : Touches [.events 2] (ev event t) t := h ▸ touches_ev event t
  unfold cutBurst
  split
  · refine ⟨false, ?_⟩
    rw [(touches_gsErrored _ _ _).line rfl, (touches_loseBurst _ _).line rfl, (touches_emit [] _ _).line rfl, (counted _).line rfl]
  · exact ⟨s.line.laserOn, rfl⟩

theorem line_rootLost (s : State) : ∃ l, (rootLost s).line = { s.line with rootLocked := false, laserOn := l } := by
  unfold rootLost
  split
  · obtain ⟨l, hl⟩ := line_cutBurst 0x0204 true { s with line := { s.line with rootLocked := false } } rfl
    exact ⟨l, ((touches_timeRootLost _).line rfl).trans hl⟩
  next h => exact ⟨s.line.laserOn, by simp only [Bool.not_eq_true] at h; rw [← h]⟩

/-- Of the line, LINE_RX, block lock, root lock and laser enable go with the signal. -/
theorem line_rxLost (s : State) : ∃ l, (rxLost s).line =
    { s.line with lineRx := false, blockLock := false, rootLocked := false, laserOn := l } := by
  obtain ⟨l, hl⟩ := line_rootLost (syncLost { s with line := { s.line with lineRx := false, blockLock := false } })
  exact ⟨l, by rw [rxLost, hl, (touches_syncLost _).line rfl]⟩

/-- The hunt restarts with an empty list (R73). -/
theorem sync_syncLost (s : State) :
    (syncLost s).frm.lineSync = false ∧ (syncLost s).frm.cands = [] ∧ (syncLost s).frm.misses = 0 := by
  unfold syncLost
  simp only
  split
  · rw [(touches_pfFollow _).sync rfl, (touches_setLof _ _).sync rfl]
    exact ⟨rfl, rfl, rfl⟩
  · exact ⟨rfl, rfl, rfl⟩

theorem sync_rxLost (s : State) : (rxLost s).frm.lineSync = false ∧ (rxLost s).frm.cands = [] := by
  obtain ⟨hsync, hcands, -⟩ := sync_syncLost { s with line := { s.line with lineRx := false, blockLock := false } }
  rw [rxLost, (touches_rootLost _).frm rfl]
  exact ⟨hsync, hcands⟩

/-! ### Group 0x03 (R429) -/

/-- A setting is wanted from then on, whether or not the flash takes the store at once (R449). -/
theorem want_saveStore (f : Store → Store) (s : State) :
    ∃ x n, (saveStore f s).fw = { s.fw with store := x, want := { f s.fw.want with seq := n } } := by
  simp only [saveStore, flushStore]
  split
  · exact ⟨s.fw.store, (f s.fw.want).seq, rfl⟩
  · exact ⟨_, _, rfl⟩

/-- The hold of LINE_STOP, taken or given up, and stored (R127). -/
def held (b : Bool) (s : State) : State :=
  saveStore (fun x => { x with lineStop := b }) { s with pf := { s.pf with held := b } }

theorem touches_held (b : Bool) (s : State) : Touches [.fw, .pf] (held b s) s :=
  ((touches_saveStore _ _).trans (touches_pf s _)).widen rfl

theorem pf_held (b : Bool) (s : State) : (held b s).pf = { s.pf with held := b } := (touches_saveStore _ _).pf rfl

theorem fw_held (b : Bool) (s : State) :
    ∃ x n, (held b s).fw = { s.fw with store := x, want := { s.fw.want with lineStop := b, seq := n } } :=
  want_saveStore _ { s with pf := { s.pf with held := b } }

theorem lineStop_held (b : Bool) (s : State) : (held b s).fw.want.lineStop = b := by
  obtain ⟨x, n, hfw⟩ := fw_held b s
  rw [hfw]

/-- LINE_STOP takes the hold in every state; the state says what goes with it. -/
theorem effect_lineStop (ch : Nat) (ws : List Word) (s : State) : cmdLineStop.effect ch ws s =
    match s.pf.st with
    | .pf0 => (held true s, .data [])
    | .pf7 => (held true s, .pend .lineStop)
    | .pf5 => ({ queueMsg 0x86 [1] (markLineFault (held true s)) with pf :=
        { (queueMsg 0x86 [1] (markLineFault (held true s))).pf with stopping := true } }, .pend .lineStop)
    | _ => (pfGo .pf0 true (held true s), .data []) := rfl

theorem effect_lineStop_pf0 (ch : Nat) (ws : List Word) {s : State} (h : s.pf.st = .pf0) :
    cmdLineStop.effect ch ws s = (held true s, .data []) := by
  rw [effect_lineStop, h]

theorem effect_lineStop_pf5 (ch : Nat) (ws : List Word) {s : State} (h : s.pf.st = .pf5) : cmdLineStop.effect ch ws s =
    ({ queueMsg 0x86 [1] (markLineFault (held true s)) with pf :=
      { (queueMsg 0x86 [1] (markLineFault (held true s))).pf with stopping := true } }, .pend .lineStop) := by
  rw [effect_lineStop, h]

/-- A message queued with room: the last of the queue, under the next number (R114). -/
theorem queueMsg_of_room (type : Nat) (payload : List Byte) {s : State} (h : s.pf.upQ.length < 8) :
    queueMsg type payload s = { s with pf := { s.pf with
      upQ := s.pf.upQ ++ [{ type := type, seq := s.pf.upSeq % 256, payload := pad 44 payload }]
      upSeq := (s.pf.upSeq + 1) % 256 } } := by
  simp [queueMsg, h]

theorem exec_lineStop (ch : Nat) (s : State) : exec (.lineStop ch) s = done s (runIf cmdLineStop ch s) := rfl

section Stop
variable {s : State} {ch : Nat} (h : Accepted cmdLineStop ch s)
include h

/-- In PF0 the hold is stored, and that is all. -/
theorem lineStop_pf0 (hst : s.pf.st = .pf0) : ∃ t, exec (.lineStop ch) s = .next t ∧ t.pf = { s.pf with held := true } ∧
    t.fw.want.lineStop = true ∧ Agree t { s with pf := t.pf, fw := t.fw, mbx := t.mbx } := by
  obtain ⟨t, ht, htouch⟩ := accepted_touches (exec_lineStop ch s) h (effect_lineStop_pf0 ch _ hst)
  have hall : Touches [.mbx, .events 0x0E, .events 9, .fw, .pf] t s := (htouch.trans (touches_held true s)).widen rfl
  exact ⟨t, ht, by rw [htouch.pf rfl, pf_held], by rw [htouch.fw rfl, lineStop_held], hall.agree⟩

/-- In PF5 the notice goes out first. -/
theorem lineStop_pf5 (hst : s.pf.st = .pf5) (hq : s.pf.upQ.length < 8) : ∃ t, exec (.lineStop ch) s = .next t ∧
    t.pf.st = .pf5 ∧ t.pf.stopping = true ∧ t.pf.held = true ∧
    t.pf.upQ = s.pf.upQ ++ [{ type := 0x86, seq := s.pf.upSeq % 256, payload := pad 44 [1] }] := by
  obtain ⟨t, ht, htouch⟩ := accepted_touches (exec_lineStop ch s) h (effect_lineStop_pf5 ch _ hst)
  have hpf : (markLineFault (held true s)).pf = { s.pf with held := true } := by
    rw [(touches_markLineFault _).pf rfl, pf_held]
  have hroom : (markLineFault (held true s)).pf.upQ.length < 8 := by rwa [hpf]
  refine ⟨t, ht, ?_⟩
  rw [htouch.pf rfl, queueMsg_of_room _ _ hroom, hpf]
  exact ⟨hst, rfl, rfl, rfl⟩

end Stop

/-- LINE_START while firmware does not run the proofing state machine gives up the hold, and that is all. -/
theorem lineStart_of_not_runs {s : State} {ch : Nat} (h : Accepted cmdLineStart ch s) (hruns : pfRuns s = false) :
    ∃ t, exec (.lineStart ch) s = .next t ∧ t.pf = { s.pf with held := false } ∧ t.fw.want.lineStop = false ∧
      Agree t { s with pf := t.pf, fw := t.fw, mbx := t.mbx } := by
  have hruns' : pfRuns (held false s) = false := by
    obtain ⟨x, n, hfw⟩ := fw_held false s
    simp only [pfRuns, fwWorks, (touches_held false s).on_eq _ rfl, hfw, pf_held] at hruns ⊢
    exact hruns
  have heffect : cmdLineStart.effect ch (msgWords (chan s ch)) s = (held false s, .done) :=
    congrArg (·, Ans.done) (pfFollow_of_not_runs hruns')
  obtain ⟨t, ht, htouch⟩ := accepted_touches (rfl : exec (.lineStart ch) s = done s (runIf cmdLineStart ch s)) h heffect
  have hall : Touches [.mbx, .events 0x0E, .events 9, .fw, .pf] t s := (htouch.trans (touches_held false s)).widen rfl
  exact ⟨t, ht, by rw [htouch.pf rfl, pf_held], by rw [htouch.fw rfl, lineStop_held], hall.agree⟩

theorem rogueRelease_waits {s : State} {ch : Nat} (h : Accepted cmdRogueRelease ch s) (hcut : s.line.rogueCut = true)
    (hcal : s.line.recalSinceCut = false) : Answers (.rogueRelease ch) 0x0304 ch (.pend .rogueRelease) s s :=
  answers_of_effect rfl h (by simp [cmdRogueRelease, hcut, hcal])

theorem rogueRelease_idle {s : State} {ch : Nat} (h : Accepted cmdRogueRelease ch s) (hcut : s.line.rogueCut = false) :
    Answers (.rogueRelease ch) 0x0304 ch (.data []) s s :=
  answers_of_effect rfl h (by simp [cmdRogueRelease, hcut])

section Loop
variable {s : State} {ch : Nat} (h : Accepted cmdLineLoopback ch s)
include h

/-- A loop starts, of the coding and content asked for. -/
theorem lineLoopback_starts (hstart : bit (argOf s ch 1) 0 = true) : ∃ t, exec (.lineLoopback ch) s = .next t ∧
    t.line.loop = some (bit (argOf s ch 1) 1, bit (argOf s ch 1) 2) ∧ t.line.lineRx = false ∧ t.line.rootLocked = false ∧
    t.frm.lineSync = false ∧ t.pwr = s.pwr := by
  obtain ⟨t, ht, htouch⟩ := accepted_touches (u := setLoop (some (bit (argOf s ch 1) 1, bit (argOf s ch 1) 2)) s)
    (rfl : exec (.lineLoopback ch) s = _) h (if_pos hstart)
  obtain ⟨l, hl⟩ := line_rxLost s
  refine ⟨t, ht, ?_⟩
  rw [htouch.line rfl, htouch.frm rfl, htouch.pwr rfl]
  simp [setLoop, hl, sync_rxLost, (touches_rxLost s).pwr rfl]

/-- A loop ends: calibration runs again, with automatic slip and no pattern. -/
theorem lineLoopback_ends (hend : bit (argOf s ch 1) 0 = false) (hloop : s.line.loop.isSome = true) :
    ∃ t, exec (.lineLoopback ch) s = .next t ∧ t.line.loop = none ∧ t.line.calibrated = false ∧ t.line.autoSlip = true ∧
      t.line.prbs.gen = 0 ∧ t.line.lineRx = false ∧ t.pwr = s.pwr := by
  have heffect : cmdLineLoopback.effect ch (msgWords (chan s ch)) s = (setLoop none s, .done) := by
    simp only [argOf] at hend
    simp [cmdLineLoopback, hend, hloop]
  obtain ⟨t, ht, htouch⟩ := accepted_touches (rfl : exec (.lineLoopback ch) s = _) h heffect
  obtain ⟨l, hl⟩ := line_rxLost s
  refine ⟨t, ht, ?_⟩
  rw [htouch.line rfl, htouch.pwr rfl]
  simp [setLoop, hl, (touches_rxLost s).pwr rfl]

end Loop

/-- Settles O8, command by command; a command that writes or reads settings answers by its effect alone. -/
theorem lineCommands : Obligations.LineCommands := by
  refine ⟨fun s ch h => ⟨_, ?_, ?_, answers_of_effect rfl h rfl⟩, fun _ _ => lineStop_pf0, fun _ _ => lineStop_pf5,
    fun _ _ => lineStart_of_not_runs, fun _ _ => rogueRelease_waits, fun _ _ => rogueRelease_idle,
    fun _ _ => lineLoopback_starts, fun _ _ => lineLoopback_ends, fun _ _ h => answers_of_effect rfl h rfl,
    fun _ _ h => answers_of_effect rfl h rfl, fun s ch h hkeep => answers_of_effect rfl h ?_,
    fun s ch h hclear => answers_of_effect rfl h ?_, fun _ _ h => answers_of_effect rfl h rfl,
    fun _ _ h => answers_of_effect rfl h rfl⟩
  · rfl
  · rfl
  · simp only [argOf] at hkeep
    simp [cmdLinePrbsRead, hkeep]
  · simp only [argOf] at hclear
    simp [cmdLinePrbsRead, hclear, clearChecker, setPrbs, prbsOf]

end Sys2Proof.Machine
end

section
/-! The events of the line receiver: root lock, calibration, adaptation, LINE_RX, block lock, and the losses. -/

namespace Sys2Proof.Machine

/-- A command that ends in `u` leaves a state that differs from it by pauses of ports alone. -/
theorem next_touches {c : Instr} {s u : State} (h : exec c s = done s u) :
    ∃ t, exec c s = .next t ∧ Touches [.events 9] t u := by
  obtain ⟨t, ht, htouch⟩ := done_touches s u
  exact ⟨t, h.trans ht, htouch⟩

/-- A command that ends where it began leaves the state. -/
theorem becomes_self {c : Instr} {s : State} (h : exec c s = done s s) : Becomes c s s :=
  becomes_of_exec_eq_done h (.refl s)

/-! ### Calibration (R42) -/

/-- The search over the entries `n`, `n + 1`, … of `g`, begun with the first best one `b` before them, ends with the first
best one of all. -/
theorem bestCtle_eq {g : Nat → Nat} {k : Nat} (l : List Nat) (b n : Nat) (hl : ∀ i < l.length, nth l i 0 = g (n + i))
    (hbn : b < n) (hb : ∀ j < n, g j ≤ g b) (hfirst : ∀ j < b, g j < g b) (hkn : k < n + l.length)
    (hk : ∀ j < n + l.length, g j ≤ g k) (hkfirst : ∀ j < k, g j < g k) : bestCtle l (b, g b) n = (k, g k) := by
  induction l generalizing b n with
  | nil =>
    have hle := hb k hkn
    have hge := hk b (by simpa using hbn)
    obtain h | h | h := Nat.lt_trichotomy b k
    · exact absurd (hkfirst b h) (by omega)
    · rw [h, bestCtle]
    · exact absurd (hfirst k h) (by omega)
  | cons f r ih =>
    have hf : f = g n := by simpa [nth] using hl 0 (by simp)
    have hr : ∀ i < r.length, nth r i 0 = g (n + 1 + i) := fun i hi => by
      simpa [nth, Nat.add_assoc, Nat.add_comm 1] using hl (i + 1) (by simpa using hi)
    simp only [List.length_cons] at hkn hk
    have next (b' : Nat) (hbn' : b' < n + 1) (hb' : ∀ j < n + 1, g j ≤ g b') (hfirst' : ∀ j < b', g j < g b') :
        bestCtle r (b', g b') (n + 1) = (k, g k) :=
      ih b' (n + 1) hr hbn' hb' hfirst' (by omega) fun j hj => hk j (by omega)
    rw [bestCtle, hf]
    split
    next hlt =>
      refine next n (by omega) (fun j hj => ?_) fun j hj => (hb j hj).trans_lt hlt
      obtain h | rfl := Nat.lt_succ_iff_lt_or_eq.mp hj
      · exact (hb j h).trans hlt.le
      · exact le_refl _
    next hge =>
      refine next b (by omega) (fun j hj => ?_) hfirst
      obtain h | rfl := Nat.lt_succ_iff_lt_or_eq.mp hj
      · exact hb j h
      · exact Nat.le_of_not_lt hge

/-- Of 16 figures of merit the first best one is found. -/
theorem bestCtle_first {foms : List Nat} {k : Nat} (hlen : foms.length = 16) (hmax : ∀ f ∈ foms, f ≤ 255) (hk : k < 16)
    (hbest : ∀ j < 16, nth foms j 0 ≤ nth foms k 0) (hfirst : ∀ j < k, nth foms j 0 < nth foms k 0) :
    bestCtle (((foms.take 16).map (min 255 ·)).drop 1) (0, nth ((foms.take 16).map (min 255 ·)) 0 0) 1 = (k, nth foms k 0) := by
  have hclamp : (foms.take 16).map (min 255 ·) = foms := by
    rw [List.take_of_length_le hlen.le]
    calc foms.map (min 255 ·) = foms.map id := List.map_congr_left fun f hf => min_eq_right (hmax f hf)
      _ = foms := List.map_id foms
  rw [hclamp]
  refine bestCtle_eq (g := fun j => nth foms j 0) (foms.drop 1) 0 1 (fun i _ => ?_) one_pos (fun j hj => ?_)
    (fun j hj => absurd hj (Nat.not_lt_zero j)) (by simp [hlen]; omega) (fun j hj => hbest j ?_) hfirst
  · simp [nth, Nat.add_comm]
  · rw [Nat.lt_one_iff.mp hj]
  · simpa [hlen] using hj

section Receiver
variable {s : State}

/-- A signal with 16 figures of merit: the first best setting is kept, and acquisition begins. -/
theorem lineCalibrationDone_signal {foms : List Nat} {k : Nat} (hon : on s 9 = true) (hlos : s.line.los = false)
    (hlen : foms.length = 16) (hmax : ∀ f ∈ foms, f ≤ 255) (hk : k < 16) (hbest : ∀ j < 16, nth foms j 0 ≤ nth foms k 0)
    (hfirst : ∀ j < k, nth foms j 0 < nth foms k 0) : Becomes (.lineCalibrationDone foms) s { s with line := { s.line with
      calibrated := true, ctle := k, fom := nth foms k 0, tracking := false, stepExp := 10, reverts := 0 } } := by
  have hexec : exec (.lineCalibrationDone foms) s = execLineCalibrationDone foms s := rfl
  refine becomes_of_exec_eq_done ?_ (Agree.refl _)
  rw [hexec, execLineCalibrationDone, if_neg (by simp [hon]), if_neg (by simp [hlos])]
  simp only [bestCtle_first hlen hmax hk hbest hfirst]

theorem lineCalibrationDone_noSignal (foms : List Nat) (hon : on s 9 = true) (hlos : s.line.los = true)
    (hloop : s.line.loop = none) :
    Becomes (.lineCalibrationDone foms) s { s with line := { s.line with ctle := 8 } } := by
  have hexec : exec (.lineCalibrationDone foms) s = execLineCalibrationDone foms s := rfl
  exact becomes_of_exec_eq_done (by simp [hexec, execLineCalibrationDone, hon, hlos, hloop]) (Agree.refl _)

/-! ### Adaptation and LINE_RX (R44-R46) -/

theorem adaptWindow_keeps {fom : Nat} (taps : List Int) (hon : on s 9 = true) (h : s.line.fom ≤ fom + 2) :
    Becomes (.adaptWindow fom taps) s { s with line := { s.line with
      fom := fom, prevTaps := s.line.taps, taps := taps, stepExp := if s.line.tracking then 14 else 10, reverts := 0 } } := by
  have hexec : exec (.adaptWindow fom taps) s = execAdaptWindow fom taps s := rfl
  exact becomes_of_exec_eq_done (by simp [hexec, execAdaptWindow, hon, Nat.not_lt.mpr h]) (Agree.refl _)

/-- A fall of more than 2 codes: an event, and then the line's part is written. -/
theorem adaptWindow_reverts {fom : Nat} (taps : List Int) {x : Line} (hon : on s 9 = true) (h : fom + 2 < s.line.fom)
    (hx : (if s.line.reverts + 1 = 8 then { s.line with
        fom := fom, taps := s.line.preset, prevTaps := s.line.preset, stepExp := 10, tracking := false, reverts := 0 }
      else { s.line with fom := fom, taps := s.line.prevTaps, stepExp := min 18 (s.line.stepExp + 1)
                         reverts := s.line.reverts + 1 }) = x) :
    BecomesCounting (.adaptWindow fom taps) 0x0104 0 s { s with line := x } := by
  have hexec : exec (.adaptWindow fom taps) s = execAdaptWindow fom taps s := rfl
  refine becomesCounting_of_exec_eq_done (w := { ev 0x0104 s with line := x }) ?_ { agree_ev 0x0104 s with line := rfl }
    (counter_count_same (e := 0x0104) 1) (by decide) (by decide)
  simp [hexec, execAdaptWindow, hon, h, ← hx]

theorem lineRxSet_sets (hon : on s 9 = true) (hcal : s.line.calibrated = true) (hlos : s.line.los = false)
    (hfom : 62 ≤ s.line.fom) (hrx : s.line.lineRx = false) (htrack : s.line.tracking = false) :
    Becomes .lineRxSet s { s with line := { s.line with lineRx := true, tracking := true, stepExp := 14 } } := by
  have hexec : exec .lineRxSet s = execLineRxSet s := rfl
  exact becomes_of_exec_eq_done (by simp [hexec, execLineRxSet, hon, hcal, hlos, hfom, hrx, htrack]) (Agree.refl _)

/-! ### Root lock (R22) and block lock (R57) -/

theorem rootLock_locks (hrx : s.line.lineRx = true) (hloop : s.line.loop = none) (hon : on s 9 = true) :
    Becomes .rootLock s { s with line := { s.line with rootLocked := true } } :=
  becomes_of_exec_eq_done (if_pos (by simp [hrx, hloop, hon])) (Agree.refl _)

theorem rootLock_without_lineRx (hrx : s.line.lineRx = false) : Becomes .rootLock s s :=
  becomes_self (if_neg (by simp [hrx]))

theorem st_setTmuEvent {n : Nat} {s : State} : (setTmuEvent n s).tmu.st = s.tmu.st := by
  rw [setTmuEvent, (touches_raise [] _ _).tmu rfl]

/-- The time state is the one asked for. -/
theorem st_setTimeSt (new : TimeSt) (s : State) : (setTimeSt new s).tmu.st = new := by
  have told {c : Prop} [Decidable c] (e n : Nat) {t : State} (ht : t.tmu.st = new) :
      (if c then setTmuEvent n (ev e t) else t).tmu.st = new := by
    split
    · exact st_setTmuEvent.trans ((congrArg Tmu.st ((agree_ev e t).tmu)).trans ht)
    · exact ht
  simp only [setTimeSt]
  split
  next h => exact h
  next =>
    rw [(touches_evReport 0x0C07 _ _).tmu rfl]
    exact told 0x0C06 _ (told 0x0C05 _ (told 0x0C03 _ (told 0x0C04 _ rfl)))

/-- Module time in ACQUIRING or LOCKED loses its root. -/
theorem st_timeRootLost (hon : on s 7 = true) (hst : s.tmu.st = .acquiring ∨ s.tmu.st = .locked) :
    (timeRootLost s).tmu.st = .holdover := by
  have hruns : (on s 7 && (s.tmu.st == .acquiring || s.tmu.st == .locked)) = true := by
    obtain hst | hst := hst <;> simp [hon, hst]
  rw [timeRootLost, if_pos hruns, st_setTimeSt]

/-- With no burst on the air only root lock and module time follow. -/
theorem rootLost_idle (hlock : s.line.rootLocked = true) (hair : s.up.onAir = none) :
    rootLost s = timeRootLost { s with line := { s.line with rootLocked := false } } := by
  simp [rootLost, hlock, cutBurst, hair]

theorem recoveredFrequency_idle (hlock : s.line.rootLocked = true) (hair : s.up.onAir = none) :
    ∃ t, exec .recoveredFrequencyOutOfRange s = .next t ∧ t.line = { s.line with rootLocked := false } ∧
      (on s 7 = true → (s.tmu.st = .acquiring ∨ s.tmu.st = .locked) → t.tmu.st = .holdover) ∧
      Agree t { s with line := t.line, tmu := t.tmu, mbx := t.mbx } := by
  obtain ⟨t, ht, htouch⟩ := next_touches (rfl : exec .recoveredFrequencyOutOfRange s = done s (rootLost s))
  rw [rootLost_idle hlock hair] at htouch
  have hall : Touches [.line, .tmu, .mbx, .events 9, .events 0x0C, .events 0x0E] t s :=
    (htouch.trans ((touches_timeRootLost _).trans (touches_line s _))).widen rfl
  refine ⟨t, ht, ?_, fun hon hst => ?_, hall.agree⟩
  · rw [htouch.line rfl, (touches_timeRootLost _).line rfl]
  · rw [htouch.tmu rfl]
    exact st_timeRootLost hon hst

theorem blockLock_locks {c : Bool} (hon : on s 9 = true) (hloop : s.line.loop = some (true, c))
    (hlock : s.line.blockLock = false) :
    Becomes .blockLock s { s with line := { s.line with blockLock := true, validHdrs := s.line.validHdrs + 64 } } :=
  becomes_of_exec_eq_done (if_pos (by simp [hon, proofingLoop, hloop, hlock])) (Agree.refl _)

theorem blockLockLoss_unlocks (hon : on s 9 = true) (hlock : s.line.blockLock = true) :
    BecomesCounting .blockLockLoss 0x0107 0 s { s with line := { s.line with blockLock := false } } := by
  refine becomesCounting_of_exec_eq_done (if_pos (by simp [hon, hlock]))
    ((agree_ev _ _).trans (agree_count _ _ _ _)) (fun h7 => ?_) (by decide) (by decide)
  have hon' : on (count 0x0108 0 16 { s with line := { s.line with blockLock := false } }) (evDom 0x0107 0) = true := by
    rwa [(touches_count 16 _ (by decide)).on_eq _ rfl]
  rw [ev, counter_count_same 1 hon', counter_count_of_ne 16 _ (by decide)]
  rfl

end Receiver

/-- Settles O4, event by event. -/
theorem lineReceiverEvents : Obligations.LineReceiverEvents :=
  ⟨fun _ => rootLock_locks, fun _ => rootLock_without_lineRx, fun _ => recoveredFrequency_idle,
    fun _ _ _ => lineCalibrationDone_signal, fun _ foms => lineCalibrationDone_noSignal foms,
    fun _ _ taps => adaptWindow_keeps taps,
    fun _ _ taps hon h hn => adaptWindow_reverts taps hon h (if_neg hn),
    fun _ _ taps hon h h7 => adaptWindow_reverts taps hon h (if_pos (by rw [h7])),
    fun _ => lineRxSet_sets, fun _ _ => blockLock_locks, fun _ => blockLockLoss_unlocks⟩

end Sys2Proof.Machine
end

section
/-! Loss of signal, the laser, the pattern checkers and the equaliser table. -/

namespace Sys2Proof.Machine

/-! ### Loss of signal and of the figure of merit (R36, R46, R73) -/

section Losses
variable {s : State}

theorem line_setLos (b : Bool) (s : State) : (setLos b s).line = { s.line with los := b } := by
  have reported (e : Nat) : (reportDefect b 0 0 (ev e { s with line := { s.line with los := b } })).line =
      { s.line with los := b } := by
    rw [(touches_reportDefect _ _ _ _).line rfl, (agree_ev _ _).line]
  simp only [setLos]
  cases b
  · exact reported 0x0102
  · exact ((touches_markDefects _).line rfl).trans (((touches_markLineFault _).line rfl).trans (reported 0x0101))

/-- The clearing is an event and a report, and no defect is marked. -/
theorem touches_setLos_false (s : State) : Touches (.line :: .events 1 :: .events 4 :: mailParts) (setLos false s) s :=
  ((touches_reportDefect false 0 0 _).trans ((touches_ev 0x0102 _).trans (touches_line s _))).widen rfl

/-- The signal goes: LINE_RX, root lock and sync go with it. -/
theorem losDeclare_loses (hon : on s 9 = true) (hlos : s.line.los = false) (hloop : s.line.loop = none) :
    ∃ t, exec .losDeclare s = .next t ∧ t.line.los = true ∧ t.line.lineRx = false ∧ t.line.rootLocked = false ∧
      t.frm.lineSync = false ∧ t.frm.cands = [] ∧ t.pwr = s.pwr ∧ t.glb.error = s.glb.error ∧ t.sch.subs = s.sch.subs ∧
      t.pending = s.pending := by
  have hexec : exec .losDeclare s = execLosDeclare s := rfl
  have hline : (setLos true s).line = { s.line with los := true } := line_setLos true s
  obtain ⟨t, ht, htouch⟩ := next_touches (c := .losDeclare) (u := rxLost (setLos true s)) (s := s)
    (by rw [hexec, execLosDeclare, if_pos (by simp [hon, hlos])]; simp [hloop])
  obtain ⟨l, hl⟩ := line_rxLost (setLos true s)
  obtain ⟨hsync, hcands⟩ := sync_rxLost (setLos true s)
  have hall : Touches (.events 9 :: .events 1 :: rxParts) t s :=
    (htouch.trans ((touches_rxLost _).trans (touches_setLos true s))).widen rfl
  refine ⟨t, ht, ?_, ?_, ?_, ?_, ?_, hall.pwr rfl, hall.error rfl, hall.subs rfl, hall.pending rfl⟩
  · rw [htouch.line rfl, hl, hline]
  · rw [htouch.line rfl, hl]
  · rw [htouch.line rfl, hl]
  · rw [htouch.frm rfl, hsync]
  · rw [htouch.frm rfl, hcands]

theorem losClear_clears (hon : on s 9 = true) (hlos : s.line.los = true) : ∃ t, exec .losClear s = .next t ∧
    t.line = { s.line with los := false } ∧ Agree t { s with line := t.line, mbx := t.mbx } := by
  obtain ⟨t, ht, htouch⟩ := next_touches (c := .losClear) (u := setLos false s) (s := s) (if_pos (by simp [hon, hlos]))
  have hall : Touches [.line, .mbx, .events 1, .events 4, .events 9, .events 0x0E] t s :=
    (htouch.trans (touches_setLos_false s)).widen rfl
  exact ⟨t, ht, by rw [htouch.line rfl, line_setLos], hall.agree⟩

/-- A receiver that loses its lock, or falls below 56, ends LINE_RX as a loss of signal does. -/
theorem rxFomLoss_loses {lost : Bool} (hon : on s 9 = true) (hrx : s.line.lineRx = true)
    (hwhy : (lost || fomLow s) = true) : ∃ t, exec (.rxFomLoss lost) s = .next t ∧ t.line.lineRx = false ∧
      t.line.rootLocked = false ∧ t.frm.lineSync = false ∧ t.frm.cands = [] ∧ t.line.los = s.line.los ∧ t.pwr = s.pwr ∧
      t.pending = s.pending := by
  obtain ⟨t, ht, htouch⟩ := next_touches (c := .rxFomLoss lost) (u := rxLost (ev 0x0103 s)) (s := s)
    (if_pos (by rw [hon, hrx]; exact hwhy))
  obtain ⟨l, hl⟩ := line_rxLost (ev 0x0103 s)
  obtain ⟨hsync, hcands⟩ := sync_rxLost (ev 0x0103 s)
  have hall : Touches (.events 9 :: .events 1 :: rxParts) t s :=
    (htouch.trans ((touches_rxLost _).trans (touches_ev 0x0103 s))).widen rfl
  refine ⟨t, ht, ?_, ?_, ?_, ?_, ?_, hall.pwr rfl, hall.pending rfl⟩
  · rw [htouch.line rfl, hl]
  · rw [htouch.line rfl, hl]
  · rw [htouch.frm rfl, hsync]
  · rw [htouch.frm rfl, hcands]
  · rw [htouch.line rfl, hl, (agree_ev 0x0103 s).line]

theorem rxFomLoss_keeps (h : 56 ≤ s.line.fom) : Becomes (.rxFomLoss false) s s :=
  becomes_self (if_neg (by simp [fomLow, h]))

end Losses

/-- Settles O5: every loss ends in `rxLost`. -/
theorem lineSignalLosses : Obligations.LineSignalLosses := by
  refine ⟨fun _ => losDeclare_loses, fun _ => losClear_clears,
    fun s hon hrx hlow => rxFomLoss_loses hon hrx (by simpa [fomLow] using hlow), fun s hon hrx => ?_, fun _ => rxFomLoss_keeps⟩
  obtain ⟨t, ht, hlineRx, hroot, hsync, -, hlos, hpwr, hpending⟩ := rxFomLoss_loses (lost := true) hon hrx rfl
  exact ⟨t, ht, hlineRx, hroot, hsync, hlos, hpwr, hpending⟩

end Sys2Proof.Machine
end

section
/-! The laser (R47-R50, R124). -/

namespace Sys2Proof.Machine

section Laser
variable {s : State}

theorem laserCalibrationDone_idle (hon : on s 8 = true) (hcut : s.line.rogueCut = false) :
    Becomes .laserCalibrationDone s { s with line := { s.line with laserCal := true, recalSinceCut := false } } := by
  have hexec : exec .laserCalibrationDone s = execLaserCalibrationDone s := rfl
  refine becomes_of_exec_eq_done (u := { s with line := { s.line with laserCal := true, recalSinceCut := false } }) ?_ (.refl _)
  rw [hexec, execLaserCalibrationDone, if_neg (by simp [hon])]
  simp [hcut]

/-! ### LASER_ENABLE -/

theorem touches_setTsq (q : Nat) (x : StampQ) (s : State) : Touches [.tmu] (setTsq q x s) s := touches_tmu s _

theorem touches_pushStamp (q tag gs : Nat) (st : StampIn) (s : State) :
    Touches [.tmu, .events 0x0C] (pushStamp q tag gs st s) s := by
  unfold pushStamp
  simp only
  split_ifs
  · exact (touches_setTsq _ _ _).widen rfl
  · exact ((touches_setTmuEvent 5 _).trans ((touches_ev 0x0C0C _).trans (touches_setTsq _ _ s))).widen rfl
  · rfl

theorem touches_burstStamp (b : Burst) (s : State) : Touches [.tmu, .events 0x0C] (burstStamp b s) s := by
  unfold burstStamp
  split
  · exact touches_pushStamp _ _ _ _ _
  · rfl

theorem out_pushStamp_suffix (q tag gs : Nat) (st : StampIn) (s : State) : s.out <:+ (pushStamp q tag gs st s).out := by
  unfold pushStamp
  simp only
  split_ifs
  · exact List.suffix_refl _
  · refine (List.IsSuffix.trans ?_ (out_raise_suffix _ _))
    simp [ev, setTsq]
  · exact List.suffix_refl _

theorem out_burstStamp_suffix (b : Burst) (s : State) : s.out <:+ (burstStamp b s).out := by
  unfold burstStamp
  split
  · exact out_pushStamp_suffix _ _ _ _ _
  · exact List.suffix_refl _

/-- The state with the oldest burst on the air. -/
def onAirState (b : Burst) (r : List Burst) (s : State) : State :=
  { s with up := { s.up with built := r, onAir := some b }, line := { s.line with laserOn := true } }

theorem laserEnable_starts {b : Burst} {r : List Burst} (hbuilt : s.up.built = b :: r) (hready : laserReady s b.leadNs = true)
    (hair : s.up.onAir = none) : ∃ t, exec .laserEnable s = .next t ∧ t.up = { s.up with built := r, onAir := some b } ∧
      t.line = { s.line with laserOn := true } ∧ Out.burst b ∈ t.out ∧
      Agree t { s with up := t.up, line := t.line, tmu := t.tmu } := by
  have hexec : exec .laserEnable s = done s (burstStamp b (emit (.burst b) (onAirState b r s))) := by
    have hrow : exec .laserEnable s = execLaserEnable s := rfl
    simp only [hrow, execLaserEnable, hbuilt]
    rw [if_pos (by simp [hready, hair])]
    rfl
  obtain ⟨t, ht, htouch⟩ := next_touches hexec
  have hout : Out.burst b ∈ t.out := by
    refine ((out_burstStamp_suffix b _).trans (out_suffix_of_done (hexec.symm.trans ht))).subset ?_
    simp [emit]
  have hstamp := touches_burstStamp b (emit (.burst b) (onAirState b r s))
  have hemit := touches_emit [] (.burst b) (onAirState b r s)
  have hstart : Touches [.air, .up, .line] (onAirState b r s) s :=
    ((touches_up { s with line := { s.line with laserOn := true } } _).trans (touches_line s _)).widen rfl
  have hall : Touches [.up, .line, .tmu, .air, .events 9, .events 0x0C] t s :=
    (htouch.trans (hstamp.trans (hemit.trans hstart))).widen rfl
  refine ⟨t, ht, ?_, ?_, hout, hall.agree⟩
  · rw [htouch.up rfl, hstamp.up rfl, hemit.up rfl, onAirState]
  · rw [htouch.line rfl, hstamp.line rfl, hemit.line rfl, onAirState]

theorem touches_requeueMsg (b : Burst) (s : State) : Touches [.pf] (requeueMsg b s) s := by
  unfold requeueMsg
  split
  · split_ifs
    · rfl
    · exact touches_pf s _
  · rfl

/-- A burst that the laser cannot send is skipped: it is built no more. -/
theorem laserEnable_skips {b : Burst} {r : List Burst} (hbuilt : s.up.built = b :: r)
    (hready : laserReady s b.leadNs = false) : ∃ t, exec .laserEnable s = .next t ∧ t.up.built = r ∧
      t.up.onAir = s.up.onAir ∧ t.line = s.line ∧ t.pwr = s.pwr ∧ t.cir = s.cir ∧ t.sch = s.sch := by
  have hexec : exec .laserEnable s = done s (requeueMsg b (skipBurst b { s with up := { s.up with built := r } })) := by
    have hrow : exec .laserEnable s = execLaserEnable s := rfl
    simp only [hrow, execLaserEnable, hbuilt]
    rw [if_neg (by simp [hready])]
  obtain ⟨t, ht, htouch⟩ := next_touches hexec
  have hskip : Touches (.events 9 :: .pf :: .up :: .events 2 :: discardParts) t { s with up := { s.up with built := r } } :=
    (htouch.trans ((touches_requeueMsg b _).trans (touches_skipBurst b _))).widen rfl
  exact ⟨t, ht, hskip.built rfl, hskip.onAir rfl, hskip.line rfl, hskip.pwr rfl, hskip.cir rfl, hskip.sch rfl⟩

/-! ### BURST_SENT -/

theorem touches_passItems (b : Burst) (l : List UpItem) (s : State) : Touches outcomeParts (passItems b l s) s :=
  Touches.foldl (fun t i _ => by
    split
    · exact touches_framePasses _ _ _ _
    · rfl) s

theorem burstSent_ends {b : Burst} (hair : s.up.onAir = some b) (hmsg : b.message = none) :
    ∃ t, exec .burstSent s = .next t ∧ t.up.onAir = none ∧ t.up.built = s.up.built ∧
      t.line = { s.line with laserOn := false } ∧ t.pf = s.pf ∧ t.pwr = s.pwr ∧ t.cir = s.cir := by
  let s1 := { s with up := { s.up with onAir := none }, line := { s.line with laserOn := false } }
  have hexec : exec .burstSent s =
      done s (gsSettle b.grant.frame b.grant.gs (passItems b b.items (ev 0x0201 s1))) := by
    have hrow : exec .burstSent s = execBurstSent s := rfl
    simp only [hrow, execBurstSent, hair, hmsg, s1]
  obtain ⟨t, ht, htouch⟩ := next_touches hexec
  have hall : Touches ([.events 9, .perf, .tin, .up, .events 2] ++ outcomeParts) t s1 :=
    (htouch.trans ((touches_gsSettle _ _ _).trans ((touches_passItems b _ _).trans (touches_ev 0x0201 s1)))).widen rfl
  exact ⟨t, ht, hall.onAir rfl, hall.built rfl, hall.line rfl, hall.pf rfl, hall.pwr rfl, hall.cir rfl⟩

/-! ### ROGUE_CUT (R124) -/

/-- The cut latches; three within the window wait for the host. -/
def rogueLatched (s : State) : State :=
  let cuts := s.pwr.aon :: s.line.cuts.filter fun c => (s.pwr.aon - c).toNat < 1464843750
  { s with line := { s.line with
    rogueCut := true, recalSinceCut := false, cuts := cuts, hostRelease := s.line.hostRelease || 3 ≤ cuts.length } }

/-- ... and ends a burst on the air, without its terminator. -/
def rogueCutAir (s : State) : State := match s.up.onAir with
  | some b => gsErrored b.grant.frame b.grant.gs (loseBurst b (emit (.burstCut false) { markLineFault s with
      up := { s.up with onAir := none }, line := { s.line with laserOn := false } }))
  | none => s

theorem exec_rogueCut (hon : on s 8 = true) : exec .rogueCut s = done s (pfFollow (evReport 0x0202
    [word (min (rogueLatched s).line.cuts.length 255)] (rogueCutAir (rogueLatched s)))) := by
  have hrow : exec .rogueCut s = execRogueCut s := rfl
  rw [hrow, execRogueCut, if_neg (by simp [hon])]
  rfl

theorem line_rogueCutAir (s : State) : ∃ l, (rogueCutAir s).line = { s.line with laserOn := l } ∧
    (s.up.onAir ≠ none → l = false) := by
  unfold rogueCutAir
  split
  · refine ⟨false, ?_, fun _ => rfl⟩
    rw [(touches_gsErrored _ _ _).line rfl, (touches_loseBurst _ _).line rfl, (touches_emit [] _ _).line rfl]
  next hair => exact ⟨s.line.laserOn, rfl, fun h => absurd hair h⟩

theorem touches_rogueCutAir (s : State) : Touches (cutParts ++ heldParts) (rogueCutAir s) s := by
  have off (t : State) (u : Up) (x : Line) : Touches [.air, .up, .line] { t with up := u, line := x } t :=
    ((touches_up { t with line := x } u).trans (touches_line t x)).widen rfl
  unfold rogueCutAir
  split
  · exact ((touches_gsErrored _ _ _).trans ((touches_loseBurst _ _).trans ((touches_emit [] _ _).trans
      ((off (markLineFault s) _ _).trans (touches_markLineFault s))))).widen rfl
  · rfl

theorem rogueCut_latches (hon : on s 8 = true) : ∃ t, exec .rogueCut s = .next t ∧ t.line.rogueCut = true ∧
    t.line.cuts.head? = some s.pwr.aon ∧ lineTx t = false ∧ (s.up.onAir ≠ none → t.line.laserOn = false) ∧
    t.line.taps = s.line.taps ∧ t.pwr = s.pwr ∧ t.glb.error = s.glb.error := by
  obtain ⟨t, ht, htouch⟩ := next_touches (exec_rogueCut hon)
  have hafter : Touches (.events 9 :: .events 2 :: mailParts ++ pfParts) t (rogueCutAir (rogueLatched s)) :=
    (htouch.trans ((touches_pfFollow _).trans (touches_evReport 0x0202 _ _))).widen rfl
  have hall : Touches (.line :: .events 9 :: .events 2 :: mailParts ++ pfParts ++ cutParts ++ heldParts) t s :=
    (hafter.trans ((touches_rogueCutAir _).trans (touches_line s _))).widen rfl
  obtain ⟨l, hl, hoff⟩ := line_rogueCutAir (rogueLatched s)
  have hline : t.line = { (rogueLatched s).line with laserOn := l } := (hafter.line rfl).trans hl
  have hcut : t.line.rogueCut = true := by rw [hline]; rfl
  exact ⟨t, ht, hcut, by rw [hline]; rfl, by simp [lineTx, hcut], fun h => by rw [hline]; exact hoff h,
    by rw [hline]; rfl, hall.pwr rfl, hall.error rfl⟩

/-! ### TX_DISABLE and the automatic release (R124) -/

/-- A burst on the air stays on the air, marked. -/
theorem onAir_markLineFault {b : Burst} (h : s.up.onAir = some b) : ∃ b', (markLineFault s).up.onAir = some b' := by
  simp [markLineFault, markCauses, mapPackets, h]

/-- A cut ends the burst on the air, and the laser with it. -/
theorem cutBurst_ends {b : Burst} {event : Nat} (terminator : Bool) (hev : event / 256 = 2) (h : s.up.onAir = some b) :
    (cutBurst event terminator s).up.onAir = none ∧ (cutBurst event terminator s).line = { s.line with laserOn := false } := by
  have counted (t : State) : Touches [.events 2] (ev event t) t := hev ▸ touches_ev event t
  simp only [cutBurst, h]
  constructor
  · rw [(touches_gsErrored _ _ _).onAir rfl, (touches_loseBurst _ _).onAir rfl, (touches_emit [] _ _).onAir rfl,
      (counted _).onAir rfl]
  · rw [(touches_gsErrored _ _ _).line rfl, (touches_loseBurst _ _).line rfl, (touches_emit [] _ _).line rfl,
      (counted _).line rfl]

theorem txDisableAssert_forces (hvio : s.pwr.vio = true) (hoff : s.pwr.txDisable = false) :
    ∃ t, exec .txDisableAssert s = .next t ∧ t.pwr = { s.pwr with txDisable := true } ∧ lineTx t = false ∧ t.pf = s.pf ∧
      ∀ b, s.up.onAir = some b → t.up.onAir = none ∧ t.line = { s.line with laserOn := false } := by
  let s1 := { s with pwr := { s.pwr with txDisable := true } }
  obtain ⟨t, ht, htouch⟩ := next_touches (c := .txDisableAssert) (s := s) (u := cutBurst 0x0203 false (markLineFault s1))
    (if_pos (by simp [hvio, hoff]))
  have hall : Touches (.events 9 :: cutParts ++ heldParts) t s1 :=
    (htouch.trans ((touches_cutBurst false _ rfl).trans (touches_markLineFault s1))).widen rfl
  have hpwr : t.pwr = { s.pwr with txDisable := true } := hall.pwr rfl
  refine ⟨t, ht, hpwr, by simp [lineTx, hpwr], hall.pf rfl, fun b hair => ?_⟩
  obtain ⟨b', hmarked⟩ := onAir_markLineFault (s := s1) hair
  obtain ⟨hend, hline⟩ := cutBurst_ends false (event := 0x0203) rfl hmarked
  exact ⟨(htouch.onAir rfl).trans hend, by rw [htouch.line rfl, hline, (touches_markLineFault s1).line rfl]⟩

theorem txDisableRelease_releases (h : s.pwr.txDisable = true) : Becomes .txDisableRelease s { s with
    pwr := { s.pwr with txDisable := false }, line := { s.line with txReleased := some s.tmu.ns } } := by
  have hrow : exec .txDisableRelease s = done s (txRelease s) := rfl
  exact becomes_of_exec_eq_done (by simp [hrow, txRelease, h]) (.refl _)

theorem line_releaseRogue (s : State) : (releaseRogue s).line =
    { s.line with rogueCut := false, recalSinceCut := false, hostRelease := false } := by
  rw [releaseRogue, (touches_finishWait _ _ _ _).line rfl, (agree_ev _ _).line]

theorem rogueAutoRelease_releases (hcut : s.line.rogueCut = true) (hfw : fwWorks s = true) (hon : on s 8 = true)
    (hwait : rogueWaited s = true) (hrecal : s.line.recalSinceCut = true) (hcal : s.line.laserCal = true)
    (hhost : s.line.hostRelease = false) : ∃ t, exec .rogueAutoRelease s = .next t ∧
      t.line = { s.line with rogueCut := false, recalSinceCut := false, hostRelease := false } ∧
      Agree t { s with line := t.line, mbx := t.mbx } := by
  obtain ⟨t, ht, htouch⟩ := next_touches (c := .rogueAutoRelease) (s := s) (u := releaseRogue s)
    (if_pos (by simp [hcut, hfw, hon, hwait, hrecal, hcal, hhost]))
  have hall : Touches [.line, .mbx, .events 3, .events 9, .events 0x0E] t s :=
    (htouch.trans (touches_releaseRogue s)).widen rfl
  exact ⟨t, ht, by rw [htouch.line rfl, line_releaseRogue], hall.agree⟩

theorem rogueAutoRelease_waits (h : rogueWaited s = false) : Becomes .rogueAutoRelease s s :=
  becomes_self (if_neg (by simp [h]))

end Laser

/-- Settles O6, event by event. -/
theorem laserEvents : Obligations.LaserEvents :=
  ⟨fun _ => laserCalibrationDone_idle, fun _ _ _ => laserEnable_starts, fun _ _ _ => laserEnable_skips,
    fun _ _ => burstSent_ends, fun _ => rogueCut_latches, fun _ => txDisableAssert_forces,
    fun _ => txDisableRelease_releases, fun _ => rogueAutoRelease_releases, fun _ => rogueAutoRelease_waits⟩

end Sys2Proof.Machine
end

section
/-! Pattern checkers (R59, R60) and the equaliser table (R63). -/

namespace Sys2Proof.Machine

/-! ### Pattern generators and checkers -/

section Checkers
variable {s : State} {c : Nat}

theorem prbsOf_setPrbs_same (c : Nat) (x : Prbs) (s : State) : prbsOf (setPrbs c x s) c = x := by
  by_cases h : c = 0
  · simp [prbsOf, setPrbs, h]
  · simp [prbsOf, setPrbs, h, setLane, lane]

theorem prbsOf_setPrbs_of_ne {d : Nat} (h : d ≠ c) (x : Prbs) (s : State) : prbsOf (setPrbs c x s) d = prbsOf s d := by
  by_cases hc : c = 0
  · have hd : d ≠ 0 := fun h0 => h (h0.trans hc.symm)
    simp [prbsOf, setPrbs, hc, hd, lane]
  · by_cases hd : d = 0
    · simp [prbsOf, setPrbs, hc, hd, setLane]
    · have hne : d - 1 ≠ c - 1 := by omega
      simp [prbsOf, setPrbs, hc, hd, setLane, lane, mget_mput_of_ne _ _ _ hne]

theorem touches_setPrbs (c : Nat) (x : Prbs) (s : State) : Touches [.line] (setPrbs c x s) s := by
  unfold setPrbs
  split
  · exact touches_line s _
  · exact touches_line s _

/-- Only the line holds patterns. -/
theorem Touches.prbsOf {l : List Part} {t u : State} (h : Touches l t u) (hl : l.contains .line = false) (d : Nat) :
    prbsOf t d = Machine.prbsOf u d := by
  simp only [Machine.prbsOf, lane, h.line hl]

/-- A command that writes checker c and counts. -/
theorem checker_written {i : Instr} {x : Prbs} {u : State} {b : Nat} (hexec : exec i s = done s u)
    (hu : Touches [.events b] u (setPrbs c x s)) : ∃ t, exec i s = .next t ∧ prbsOf t c = x ∧
      (∀ d ≤ 4, d ≠ c → prbsOf t d = prbsOf s d) ∧ Agree t { s with line := t.line } := by
  obtain ⟨t, ht, htouch⟩ := next_touches hexec
  have hcounted : Touches [.events 9, .events b] t (setPrbs c x s) := htouch.trans hu
  have hall : Touches [.events 9, .events b, .line] t s := hcounted.trans (touches_setPrbs c x s)
  refine ⟨t, ht, ?_, fun d _ hd => ?_, hall.agree⟩
  · rw [hcounted.prbsOf (by simp), prbsOf_setPrbs_same]
  · rw [hcounted.prbsOf (by simp), prbsOf_setPrbs_of_ne hd]

theorem prbsCheckerLock_locks {inv : Bool} (hc : c ≤ 4) (hon : on s (checkerDom c) = true) (hchk : (prbsOf s c).chk ≠ 0)
    (hlock : (prbsOf s c).checker.locked = false) : ∃ t, exec (.prbsCheckerLock c inv) s = .next t ∧
      prbsOf t c = { prbsOf s c with checker := { (prbsOf s c).checker with locked := true, inverted := inv } } ∧
      (∀ d ≤ 4, d ≠ c → prbsOf t d = prbsOf s d) ∧ Agree t { s with line := t.line } :=
  checker_written (b := 1) (if_pos (by simp [hc, hon, hchk, hlock])) (.refl _ _)

theorem prbsLockLoss_unlocks {e y : Nat} (hc : c ≤ 4) (hon : on s (checkerDom c) = true)
    (hlock : (prbsOf s c).checker.locked = true) : ∃ t, exec (.prbsLockLoss c e y) s = .next t ∧
      (prbsOf t c).checker = { locked := false, inverted := false
                               bitErrors := min ((prbsOf s c).checker.bitErrors + e) (2 ^ 48 - 1)
                               symErrors := min ((prbsOf s c).checker.symErrors + y) (2 ^ 48 - 1)
                               losses := min ((prbsOf s c).checker.losses + 1) (2 ^ 48 - 1) } ∧
      (∀ d ≤ 4, d ≠ c → prbsOf t d = prbsOf s d) ∧ Agree t { s with line := t.line } := by
  have hexec : exec (.prbsLockLoss c e y) s = done s _ := if_pos (by simp [hc, hon, hlock])
  have hcounted (x : Prbs) : ∃ b, Touches [.events b]
      (if c = 0 then ev 0x0106 (count 0x0105 0 e (setPrbs c x s)) else count 0x0902 0 e (setPrbs c x s)) (setPrbs c x s) := by
    split
    · exact ⟨1, ((touches_ev 0x0106 _).trans (touches_count (e := 0x0105) e _ (by decide))).widen rfl⟩
    · exact ⟨9, touches_count (e := 0x0902) e _ (by decide)⟩
  obtain ⟨b, hb⟩ := hcounted _
  obtain ⟨t, ht, hsame, hother, hagree⟩ := checker_written hexec hb
  exact ⟨t, ht, congrArg Prbs.checker hsame, hother, hagree⟩

end Checkers

/-! ### The equaliser table -/

section Equaliser
variable {s : State}

theorem eqTableRead_reads (reply : Option (List Byte)) (hon : on s 18 = true) (hread : s.line.eqReading = true)
    (hvio : s.pwr.vio = true) : Becomes (.eqTableRead reply) s { s with line := { s.line with
      eqTries := s.line.eqTries + 1, eqReading := false, eqRaw := reply } } := by
  have hrow : exec (.eqTableRead reply) s = execEqTableRead reply s := rfl
  exact becomes_of_exec_eq_done (by simp [hrow, execEqTableRead, hon, hread, hvio]) (.refl _)

theorem eqReadRetry_retries (hon : on s 18 = true) (hread : s.line.eqReading = false) (hready : s.line.eqReady = false)
    (hraw : s.line.eqRaw = none) (hone : 1 ≤ s.line.eqTries) (hthree : s.line.eqTries < 3) :
    Becomes .eqReadRetry s { s with line := { s.line with eqReading := true } } :=
  becomes_of_exec_eq_done (if_pos (by simp [eqMayRetry, hon, hread, hready, hraw, hone, hthree])) (.refl _)

theorem eqReadRetry_stops (h : 3 ≤ s.line.eqTries) : Becomes .eqReadRetry s s :=
  becomes_self (if_neg (by simp [eqMayRetry, Nat.not_lt.mpr h]))

/-- The read ends: the line as written, an event at most, and the message that waits. -/
theorem eqReadDone_finishes {b : List Byte} {x : Line} {u : State} (hon : on s 18 = true) (hread : s.line.eqReading = false)
    (hready : s.line.eqReady = false) (hraw : s.line.eqRaw = some b)
    (hfinish : eqFinish (some b) s = finishWait .eqReload 0 [] u) (hu : Touches [.events 9] u { s with line := x }) :
    ∃ t, exec .eqReadDone s = .next t ∧ t.line = x ∧ Agree t { s with line := t.line, mbx := t.mbx } := by
  obtain ⟨t, ht, htouch⟩ := next_touches (c := .eqReadDone) (s := s) (u := eqFinish s.line.eqRaw s)
    (if_pos (by simp [hon, hread, hready, hraw]))
  rw [hraw, hfinish] at htouch
  have hwritten : Touches (.events 9 :: mailParts) t { s with line := x } :=
    (htouch.trans ((touches_finishWait _ _ _ _).trans hu)).widen rfl
  have hall : Touches [.line, .mbx, .events 9, .events 0x0E] t s := (hwritten.trans (touches_line s x)).widen rfl
  exact ⟨t, ht, hwritten.line rfl, hall.agree⟩

theorem eqReadDone_table {b : List Byte} (hon : on s 18 = true) (hread : s.line.eqReading = false)
    (hready : s.line.eqReady = false) (hraw : s.line.eqRaw = some b) (hok : eqTableOk b = true) :
    ∃ t, exec .eqReadDone s = .next t ∧ t.line = { s.line with
        eqReady := true, eqFromRom := true, carrierId := word (le b 8 8)
        eqEntries := (List.range 4).map fun k => (laneEntry b k).getD (laneEqReset k) } ∧
      Agree t { s with line := t.line, mbx := t.mbx } :=
  eqReadDone_finishes hon hread hready hraw (by simp only [eqFinish, hok, if_true]) (.refl _ _)

theorem eqReadDone_defaults {b : List Byte} (hon : on s 18 = true) (hread : s.line.eqReading = false)
    (hready : s.line.eqReady = false) (hraw : s.line.eqRaw = some b) (hbad : eqTableOk b = false) :
    ∃ t, exec .eqReadDone s = .next t ∧ t.line = { s.line with
        eqReady := true, eqFromRom := false, carrierId := 0, eqEntries := (List.range 4).map laneEqReset } ∧
      Agree t { s with line := t.line, mbx := t.mbx } :=
  eqReadDone_finishes hon hread hready hraw (by simp only [eqFinish, hbad, Bool.false_eq_true, if_false])
    (touches_ev 0x0901 _)

end Equaliser

/-- Settles O7: a checker is written alone, and the table is read as a whole. -/
theorem checkersAndEqualiser : Obligations.CheckersAndEqualiser :=
  ⟨fun _ _ _ => prbsCheckerLock_locks, fun _ _ _ _ => prbsLockLoss_unlocks, fun _ => eqTableRead_reads,
    fun _ => eqReadRetry_retries, fun _ => eqReadRetry_stops, fun _ _ => eqReadDone_table, fun _ _ => eqReadDone_defaults⟩

end Sys2Proof.Machine
end

section
/-! What a change of the proofing state writes, and what a crust message comes to: taken, or counted and ignored. -/

namespace Sys2Proof.Machine

/-! ### The proofing state after a change (R102, R104) -/

/-- The fields of the proofing state once `new` has been entered from another state. -/
def pfAfter (new : PfSt) (x : Pf) : Pf :=
  let y := if pfUnregistered new then { x with tid := 0, eqd := 0, nH := [], nT := [], responded := false, upQ := [] } else x
  let z := if new = .pf0 ∨ new = .pf7 then { y with profiles := [], preEqd := 0, backoffMax := 7 } else y
  { z with st := new, rejecting := false, tRange := false, tAuth := false, tReject := false, tLoss := false
           stopping := if new = .pf0 then false else x.stopping }

theorem touches_endKeys (s : State) :
    Touches keyParts (eraseEpochKeys true (eraseEpochKeys false (eraseKey slotSess (eraseKey slotAuth s)))) s :=
  ((touches_eraseEpochKeys _ _).trans ((touches_eraseEpochKeys _ _).trans ((touches_eraseKey _ _).trans
    (touches_eraseKey _ s)))).widen rfl

/-- The end of a registration: IDs, EqD, exchange and messages are discarded, the line keys and the fragments with them. -/
theorem endRegistration_ends (s : State) :
    (endRegistration s).pf = { s.pf with tid := 0, eqd := 0, nH := [], nT := [], responded := false, upQ := [] } ∧
      (endRegistration s).ke = keReset ∧ (endRegistration s).up.frags = [] := by
  have hkeys := touches_endKeys s
  simp only [endRegistration]
  rw [(touches_discardFrames _ _ _).pf rfl, (touches_discardFrames _ _ _).ke rfl, (touches_discardFrames _ _ _).up rfl,
    hkeys.pf rfl]
  exact ⟨rfl, rfl, rfl⟩

theorem pf_pfArrive (new : PfSt) (s : State) :
    (pfArrive new s).pf = { s.pf with stopping := if new = .pf0 then false else s.pf.stopping } := by
  cases new
  case pf0 => exact ((touches_finishWait _ _ _ _).pf rfl).trans ((touches_flushCircuits _).pf rfl)
  case pf1 => exact (touches_flushCircuits s).pf rfl
  case pf5 => exact (touches_writeTag _ _ s).pf rfl
  case pf7 =>
    exact ((touches_evReport 0x032A _ _).pf rfl).trans (((touches_saveStore _ _).pf rfl).trans ((touches_flushCircuits s).pf rfl))
  all_goals rfl

theorem pf_pfGo {new : PfSt} (fault : Bool) {s : State} (h : s.pf.st ≠ new) : (pfGo new fault s).pf = pfAfter new s.pf := by
  rw [pfGo_eq fault h, pfEnter, pf_pfArrive, (touches_evReport 0x0319 _ _).pf rfl]
  have hleave := (touches_leave fault s).pf rfl
  generalize (if s.pf.st = .pf5 then leavePf5 fault s else s) = s1 at hleave
  obtain ⟨hend, -, -⟩ := endRegistration_ends s1
  simp only [pfWrite, pfEnded, pfAfter, ← hleave]
  split_ifs <;> simp [hend]

/-- What an arrival touches: neither the epochs nor upstream. -/
theorem touches_arrive (new : PfSt) (s : State) :
    Touches ([.fw, .cir, .pf, .flw, .events 3, .events 4] ++ keyParts ++ discardParts) (pfArrive new s) s := by
  cases new
  case pf0 => exact ((touches_finishWait _ _ _ _).trans ((touches_flushCircuits _).trans (touches_pf s _))).widen rfl
  case pf1 => exact (touches_flushCircuits s).widen rfl
  case pf5 => exact (touches_writeTag _ _ s).widen rfl
  case pf7 => exact ((touches_evReport 0x032A _ _).trans ((touches_saveStore _ _).trans (touches_flushCircuits s))).widen rfl
  all_goals exact Touches.refl _ s

/-- A state without registration keeps no epoch key, and no fragment is open in it. -/
theorem unregistered_pfGo {new : PfSt} (fault : Bool) {s : State} (h : s.pf.st ≠ new) (hnew : pfUnregistered new = true) :
    (pfGo new fault s).ke = keReset ∧ (pfGo new fault s).up.frags = [] := by
  rw [pfGo_eq fault h]
  generalize (if s.pf.st = .pf5 then leavePf5 fault s else s) = s1
  obtain ⟨-, hke, hfrags⟩ := endRegistration_ends s1
  have hended : pfEnded new s1 = endRegistration s1 := if_pos hnew
  rw [pfEnter, (touches_arrive _ _).ke rfl, (touches_arrive _ _).up rfl, (touches_evReport 0x0319 _ _).ke rfl, (touches_evReport 0x0319 _ _).up rfl,
    (touches_pfWrite _ _).ke rfl, (touches_pfWrite _ _).up rfl, hended]
  exact ⟨hke, hfrags⟩

theorem active_flushCircuits (s : State) : (flushCircuits s).cir.active = 0 := by
  rw [flushCircuits, (touches_discardFrames _ _ _).cir rfl, (touches_count _ _ (by decide)).cir rfl]

/-- PF1 starts with page 0 active (R131). -/
theorem active_pfGo_pf1 (fault : Bool) {s : State} (h : s.pf.st ≠ .pf1) : (pfGo .pf1 fault s).cir.active = 0 := by
  have harrive (t : State) : pfArrive .pf1 t = flushCircuits t := rfl
  rw [pfGo_eq fault h, pfEnter, harrive, active_flushCircuits]

/-! ### The state follows the line at once (R104) -/

/-- Whether the line is in sync is read from the framer's synchronisation, the loop and a domain. -/
theorem Touches.pfSync {l : List Part} {t s : State} (h : Touches l t s) (hsync : l.contains .sync = false)
    (hline : l.contains .line = false) (hpwr : l.contains .pwr = false) : pfSync t = Machine.pfSync s := by
  unfold Machine.pfSync
  rw [h.sync hsync, h.line hline, h.on_eq 11 hpwr]

theorem Touches.lineSync {l : List Part} {t s : State} (h : Touches l t s) (hsync : l.contains .sync = false) :
    t.frm.lineSync = s.frm.lineSync := by
  rw [h.sync hsync]

/-- In sync, with no rogue cut, and neither in PF6 nor free to leave PF0, nothing follows. -/
theorem pfFollow_still {s : State} (hsync : pfSync s = true) (hcut : s.line.rogueCut = false) (h6 : s.pf.st ≠ .pf6)
    (h0 : s.pf.st ≠ .pf0) : pfFollow s = s := by
  have hstart : followStart s = s := if_neg fun h => h0 h.1
  cases hruns : pfRuns s with
  | false => exact pfFollow_of_not_runs hruns
  | true => rw [pfFollow_eq hruns]; simp [followRogue, hcut, followSync, hsync, h6, hstart]

/-! ### Messages (R111-R113) -/

/-- What an accepted message acts on: the state that has recorded it. -/
def recorded (m : MsgIn) (s : State) : State := { s with pf := heard s m }

theorem exec_ofTyped (m : MsgIn) (s : State) : ∀ c k, (c, k) ∈ [(Instr.burstProfile m, 1), (.discoveryParams m, 2),
    (.assignId m, 3), (.rangingTime m, 4), (.authChallenge m, 5), (.authConfirm m, 6), (.epochKey m, 7), (.deregister m, 8),
    (.emergencyStop m, 9), (.emergencyRelease m, 10)] → exec c s = done s (takeTyped k m s) := by
  simp only [List.mem_cons, Prod.mk.injEq, List.not_mem_nil, or_false]
  rintro c k (⟨rfl, rfl⟩ | ⟨rfl, rfl⟩ | ⟨rfl, rfl⟩ | ⟨rfl, rfl⟩ | ⟨rfl, rfl⟩ | ⟨rfl, rfl⟩ | ⟨rfl, rfl⟩ | ⟨rfl, rfl⟩ |
    ⟨rfl, rfl⟩ | ⟨rfl, rfl⟩) <;> rfl

section Messages
variable {k : Nat} {s : State} {m : MsgIn}

/-- A message of 48 bytes, of its row's type, is judged as it stands. -/
theorem takeTyped_eq (htype : be m 0 1 = k) (hlen : m.length = 48) : takeTyped k m s =
    if !(crustUsed s && pfRuns s && addressed s m) then s
    else if !((acceptedIn k).contains s.pf.st && addressingOk k ((nth m 1 0).getLsbD 7)) then ev 0x031A s
    else if repeats s m then ev 0x031B s
    else pfFollow (actOn m (recorded m s)) := by
  subst htype
  have hpad : pad 48 m = m := by simp [pad, hlen]
  rw [takeTyped, if_pos rfl, takeMessage, hpad]
  rfl

theorem takeTyped_heard (h : Heard k s m) : takeTyped k m s = pfFollow (actOn m (recorded m s)) := by
  obtain ⟨⟨hlen, hreach⟩, htype, hstate, haddr, hrep⟩ := h
  rw [takeTyped_eq htype hlen, if_neg (by simp [hreach]), if_neg (by rw [haddr]; simp [hstate]), if_neg (by simp [hrep])]

theorem Heard.sync (h : Heard k s m) : pfSync s = true := by
  obtain ⟨⟨-, hreach⟩, -⟩ := h
  simp only [crustUsed, Bool.and_eq_true] at hreach
  exact hreach.1.1.2

/-- A message that acts without leaving its state has its effect, and no change of state follows. -/
theorem pfFollow_actOn {u : State} {l : List Part} (h : Heard k s m) (hcut : s.line.rogueCut = false)
    (htouch : Touches l u s) (hsync : l.contains .sync = false) (hline : l.contains .line = false)
    (hpwr : l.contains .pwr = false) (h6 : u.pf.st ≠ .pf6) (h0 : u.pf.st ≠ .pf0) : pfFollow u = u :=
  pfFollow_still ((htouch.pfSync hsync hline hpwr).trans h.sync) (by rwa [htouch.line hline]) h6 h0

/-- ... so an acting message that keeps the line in view ends in what it does. -/
theorem takeTyped_still {u : State} {l : List Part} (h : Heard k s m) (hcut : s.line.rogueCut = false)
    (hact : actOn m (recorded m s) = u) (htouch : Touches l u s) (hsync : l.contains .sync = false)
    (hline : l.contains .line = false) (hpwr : l.contains .pwr = false) (h6 : u.pf.st ≠ .pf6) (h0 : u.pf.st ≠ .pf0) :
    takeTyped k m s = u := by
  rw [takeTyped_heard h, hact, pfFollow_actOn h hcut htouch hsync hline hpwr h6 h0]

/-- A state that accepts a message is one of R113. -/
theorem Heard.state (h : Heard k s m) : s.pf.st ∈ acceptedIn k := h.2.2.1

theorem Heard.type (h : Heard k s m) : be m 0 1 = k := h.2.1

theorem touches_recorded (m : MsgIn) (s : State) : Touches [.pf] (recorded m s) s := touches_pf s _

end Messages

/-! ### What is counted and ignored -/

section Refusals
variable {c : Instr} {k : Nat} {s : State} {m : MsgIn} (hexec : exec c s = done s (takeTyped k m s))
  (htype : be m 0 1 = k) (hlen : m.length = 48)
include hexec htype hlen

theorem message_not_reaching (h : (crustUsed s && pfRuns s && addressed s m) = false) : Becomes c s s :=
  becomes_self (by rw [hexec, takeTyped_eq htype hlen, if_pos (by simp [h])])

theorem message_not_accepted (h : Reaches s m)
    (hno : s.pf.st ∉ acceptedIn k ∨ addressingOk k ((nth m 1 0).getLsbD 7) = false) : BecomesCounting c 0x031A 0 s s := by
  refine becomesCounting_ev ?_ (by decide)
  rw [hexec, takeTyped_eq htype hlen, if_neg (by simp [h.2]), if_pos]
  obtain hno | hno := hno
  · simp [hno]
  · rw [hno]; simp

theorem message_repeated (h : Reaches s m) (hstate : s.pf.st ∈ acceptedIn k)
    (haddr : addressingOk k ((nth m 1 0).getLsbD 7) = true) (hrep : repeats s m = true) : BecomesCounting c 0x031B 0 s s := by
  refine becomesCounting_ev ?_ (by decide)
  rw [hexec, takeTyped_eq htype hlen, if_neg (by simp [h.2]), if_neg (by rw [haddr]; simp [hstate]), if_pos hrep]

end Refusals

/-- An accepted message whose content is counted and ignored. -/
theorem message_ignored {c : Instr} {k e : Nat} {s : State} {m : MsgIn} (hexec : exec c s = done s (takeTyped k m s))
    (h : Heard k s m) (hcut : s.line.rogueCut = false) (hact : actOn m (recorded m s) = ev e (recorded m s))
    (h6 : s.pf.st ≠ .pf6) (h0 : s.pf.st ≠ .pf0) (he : e ≠ 0x090C) :
    BecomesCounting c e 0 s { s with pf := heard s m } := by
  have hev := touches_ev e (recorded m s)
  have hpf : (ev e (recorded m s)).pf.st = s.pf.st := by rw [(agree_ev _ _).pf]; rfl
  have hw : takeTyped k m s = ev e (recorded m s) :=
    takeTyped_still h hcut hact (hev.trans (touches_recorded m s)) (by simp) (by simp) (by simp) (by rwa [hpf]) (by rwa [hpf])
  exact becomesCounting_of_exec_eq_done (hexec.trans (congrArg (done s) hw)) (agree_ev e _) (counter_count_same (s := recorded m s) 1) he
    (by decide)

section Content
variable {s : State} {m : MsgIn}

theorem burstProfile_taken (h : Heard 1 s m) (hq : be m 4 1 ≤ 3) (hlo : 4 ≤ be m 5 1) (hhi : be m 5 1 ≤ 64) :
    Becomes (.burstProfile m) s (pfFollow { s with pf := { heard s m with
      profiles := minsert s.pf.profiles (be m 4 1) { n := be m 5 1, levels := BitVec.ofNat 64 (be m 6 8) } } }) := by
  have hexec : exec (.burstProfile m) s = done s (takeTyped 1 m s) := rfl
  refine becomes_of_exec_eq_done (hexec.trans (by rw [takeTyped_heard h])) ?_
  have hact : actOn m (recorded m s) = takeProfile m (recorded m s) := by simp only [actOn, h.type]
  have hin : ¬ (decide (3 < be m 4 1) || decide (be m 5 1 < 4) || decide (64 < be m 5 1)) = true := by simp; omega
  rw [hact, takeProfile, if_neg hin]
  rfl

theorem burstProfile_ignored (h : Heard 1 s m) (hcut : s.line.rogueCut = false) (h6 : s.pf.st ≠ .pf6)
    (hout : 3 < be m 4 1 ∨ be m 5 1 < 4 ∨ 64 < be m 5 1) :
    BecomesCounting (.burstProfile m) 0x031A 0 s { s with pf := heard s m } := by
  refine message_ignored rfl h hcut ?_ h6 (fun h0 => absurd h.state (by rw [h0]; decide)) (by decide)
  have hact : actOn m (recorded m s) = takeProfile m (recorded m s) := by simp only [actOn, h.type]
  rw [hact, takeProfile, if_pos (by simpa [or_assoc] using hout)]

theorem discoveryParams_taken (h : Heard 2 s m) (hpre : be m 4 4 ≤ 33750000) (hmax : be m 8 1 ≤ 15) :
    Becomes (.discoveryParams m) s (pfFollow { s with pf := { heard s m with
      preEqd := be m 4 4, backoffMax := be m 8 1 } }) := by
  have hexec : exec (.discoveryParams m) s = done s (takeTyped 2 m s) := rfl
  refine becomes_of_exec_eq_done (hexec.trans (by rw [takeTyped_heard h])) ?_
  have hact : actOn m (recorded m s) = takeDiscovery m (recorded m s) := by simp only [actOn, h.type]
  rw [hact, takeDiscovery, if_neg (by omega), if_neg (by omega)]
  rfl

theorem discoveryParams_ignored (h : Heard 2 s m) (hcut : s.line.rogueCut = false) (hpre : 33750000 < be m 4 4) :
    BecomesCounting (.discoveryParams m) 0x031D 0 s { s with pf := heard s m } := by
  refine message_ignored rfl h hcut ?_ (fun h6 => absurd h.state (by rw [h6]; decide))
    (fun h0 => absurd h.state (by rw [h0]; decide)) (by decide)
  have hact : actOn m (recorded m s) = takeDiscovery m (recorded m s) := by simp only [actOn, h.type]
  rw [hact, takeDiscovery, if_pos hpre]

theorem rangingTime_ignored (h : Heard 4 s m) (hcut : s.line.rogueCut = false) (heqd : 33750000 < be m 4 4) :
    BecomesCounting (.rangingTime m) 0x031D 0 s { s with pf := heard s m } := by
  refine message_ignored rfl h hcut ?_ (fun h6 => absurd h.state (by rw [h6]; decide))
    (fun h0 => absurd h.state (by rw [h0]; decide)) (by decide)
  have hact : actOn m (recorded m s) = takeRanging m (recorded m s) := by simp only [actOn, h.type]
  rw [hact, takeRanging, if_pos heqd]

end Content

/-- Settles O10: the content of the profile and discovery messages, and for every row what is not taken. -/
theorem crustMessages_settled : Obligations.CrustMessages :=
  ⟨fun _ _ => burstProfile_taken, fun _ _ => burstProfile_ignored, fun _ _ => discoveryParams_taken,
    fun _ _ => discoveryParams_ignored, fun _ _ => rangingTime_ignored, fun c k s m hrow htype hlen =>
      have hexec := exec_ofTyped m s c k hrow
      ⟨message_not_reaching hexec htype hlen, message_not_accepted hexec htype hlen, message_repeated hexec htype hlen⟩⟩

end Sys2Proof.Machine
end

section
/-! The messages that change the proofing state, and the timers (R104, R105, R107, R127). -/

namespace Sys2Proof.Machine

/-! ### Messages (R104, R114) -/

section Registration
variable {s : State} {m : MsgIn}

/-- A message that ends in PF1 to PF5 or PF7 is all that happens. -/
theorem message_still {c : Instr} {k : Nat} {u : State} {l : List Part} {st : PfSt}
    (hexec : exec c s = done s (takeTyped k m s)) (h : Heard k s m) (hcut : s.line.rogueCut = false)
    (hact : actOn m (recorded m s) = u) (htouch : Touches l u s) (hst : u.pf.st = st) (h6 : st ≠ .pf6) (h0 : st ≠ .pf0)
    (hsync : l.contains .sync = false) (hline : l.contains .line = false) (hpwr : l.contains .pwr = false) :
    ∃ t, exec c s = .next t ∧ Touches [.events 9] t u :=
  next_touches (hexec.trans (congrArg (done s)
    (takeTyped_still h hcut hact htouch hsync hline hpwr (by rwa [hst]) (by rwa [hst]))))

/-- The messages and reports of a change that ends no registration and empties no circuit. -/
theorem touches_pfGo_quiet {new : PfSt} (fault : Bool) {s : State} (h : s.pf.st ≠ new) (h5 : s.pf.st ≠ .pf5)
    (hnew : new = .pf3 ∨ new = .pf4) : Touches (.pf :: .events 3 :: mailParts) (pfGo new fault s) s := by
  rw [pfGo_eq fault h, if_neg h5, pfEnter]
  obtain rfl | rfl := hnew
  · exact ((touches_evReport 0x0319 _ _).trans (touches_pfWrite _ _)).widen rfl
  · exact ((touches_evReport 0x0319 _ _).trans (touches_pfWrite _ _)).widen rfl

theorem assignId_enters (h : Heard 3 s m) (hcut : s.line.rogueCut = false) :
    ∃ t, exec (.assignId m) s = .next t ∧ t.pf = { heard s m with
        st := .pf3, tid := be m 12 1, tRange := true, rejecting := false, tAuth := false, tReject := false, tLoss := false } ∧
      Agree t { s with pf := t.pf, mbx := t.mbx } := by
  have hst : s.pf.st = .pf2 := by simpa [acceptedIn] using h.state
  let s1 : State := { s with pf := { heard s m with tid := be m 12 1 } }
  have hst1 : s1.pf.st = .pf2 := hst
  have hact : actOn m (recorded m s) =
      { pfGo .pf3 false s1 with pf := { (pfGo .pf3 false s1).pf with tRange := true } } := by
    simp only [actOn, h.type]; rfl
  have hpf : (pfGo .pf3 false s1).pf = pfAfter .pf3 s1.pf := pf_pfGo false (by rw [hst1]; decide)
  have hgo : Touches (.pf :: .events 3 :: mailParts) (actOn m (recorded m s)) s := by
    rw [hact]
    exact ((touches_pf _ _).trans ((touches_pfGo_quiet false (by rw [hst1]; decide) (by rw [hst1]; decide) (.inl rfl)).trans
      (touches_pf s _))).widen rfl
  have hend : (actOn m (recorded m s)).pf = { heard s m with
      st := .pf3, tid := be m 12 1, tRange := true, rejecting := false, tAuth := false, tReject := false, tLoss := false } := by
    rw [hact, hpf]; rfl
  obtain ⟨t, ht, htouch⟩ := message_still (c := .assignId m) (st := .pf3) rfl h hcut rfl hgo (congrArg Pf.st hend) (by decide) (by decide)
    rfl rfl rfl
  have hall : Touches [.pf, .mbx, .events 3, .events 9, .events 0x0E] t s := (htouch.trans hgo).widen rfl
  exact ⟨t, ht, (htouch.pf rfl).trans hend, hall.agree⟩

/-- The state that holds EqD and has queued the ACK. -/
def ranged (m : MsgIn) (s : State) : State := { s with pf := { heard s m with
  eqd := be m 4 4
  upQ := s.pf.upQ ++ [{ type := 0x87, seq := s.pf.upSeq % 256, payload := pad 44 (m.take 1 ++ slice m 3 1) }]
  upSeq := (s.pf.upSeq + 1) % 256 } }

/-- RANGING_TIME within range holds EqD and queues the ACK, whatever follows. -/
theorem actOn_ranging (h : Heard 4 s m) (heqd : be m 4 4 ≤ 33750000) (hq : s.pf.upQ.length < 8) :
    actOn m (recorded m s) = if s.pf.st = .pf3 then
      { pfGo .pf4 false (ranged m s) with pf := { (pfGo .pf4 false (ranged m s)).pf with tAuth := true } }
      else ranged m s := by
  have hack : ack m { recorded m s with pf := { (recorded m s).pf with eqd := be m 4 4 } } = ranged m s :=
    queueMsg_of_room _ _ hq
  have hact : actOn m (recorded m s) = takeRanging m (recorded m s) := by simp only [actOn, h.type]
  rw [hact, takeRanging, if_neg (by omega)]
  simp only [hack]
  rfl

theorem rangingTime_pf3 (h : Heard 4 s m) (hcut : s.line.rogueCut = false) (heqd : be m 4 4 ≤ 33750000)
    (hst : s.pf.st = .pf3) (hq : s.pf.upQ.length < 8) :
    ∃ t, exec (.rangingTime m) s = .next t ∧ t.pf = { heard s m with
        st := .pf4, eqd := be m 4 4, tAuth := true, rejecting := false, tRange := false, tReject := false, tLoss := false
        upQ := s.pf.upQ ++ [{ type := 0x87, seq := s.pf.upSeq % 256, payload := pad 44 (m.take 1 ++ slice m 3 1) }]
        upSeq := (s.pf.upSeq + 1) % 256 } ∧
      Agree t { s with pf := t.pf, mbx := t.mbx } := by
  have hact := actOn_ranging h heqd hq
  rw [if_pos hst] at hact
  have hst1 : (ranged m s).pf.st = .pf3 := hst
  have hne : (ranged m s).pf.st ≠ .pf4 := by rw [hst1]; decide
  have hne5 : (ranged m s).pf.st ≠ .pf5 := by rw [hst1]; decide
  have hpf : (pfGo .pf4 false (ranged m s)).pf = pfAfter .pf4 (ranged m s).pf := pf_pfGo false hne
  have hgo : Touches (.pf :: .events 3 :: mailParts) (actOn m (recorded m s)) s := by
    rw [hact]
    exact ((touches_pf _ _).trans ((touches_pfGo_quiet false hne hne5 (.inr rfl)).trans (touches_pf s _))).widen rfl
  have hend : (actOn m (recorded m s)).pf = { heard s m with
        st := .pf4, eqd := be m 4 4, tAuth := true, rejecting := false, tRange := false, tReject := false, tLoss := false
        upQ := s.pf.upQ ++ [{ type := 0x87, seq := s.pf.upSeq % 256, payload := pad 44 (m.take 1 ++ slice m 3 1) }]
        upSeq := (s.pf.upSeq + 1) % 256 } := by
    rw [hact, hpf]; rfl
  obtain ⟨t, ht, htouch⟩ := message_still (c := .rangingTime m) (st := .pf4) rfl h hcut rfl hgo (congrArg Pf.st hend) (by decide)
    (by decide) rfl rfl rfl
  have hall : Touches [.pf, .mbx, .events 3, .events 9, .events 0x0E] t s := (htouch.trans hgo).widen rfl
  exact ⟨t, ht, (htouch.pf rfl).trans hend, hall.agree⟩

theorem rangingTime_pf5 (h : Heard 4 s m) (hcut : s.line.rogueCut = false) (heqd : be m 4 4 ≤ 33750000)
    (hst : s.pf.st = .pf5) (hq : s.pf.upQ.length < 8) : Becomes (.rangingTime m) s (ranged m s) := by
  have hact := actOn_ranging h heqd hq
  rw [if_neg (by rw [hst]; decide)] at hact
  obtain ⟨t, ht, htouch⟩ := message_still (c := .rangingTime m) rfl h hcut hact (touches_pf s _) hst (by decide) (by decide)
    rfl rfl rfl
  exact ⟨t, ht, htouch.agree⟩

/-- The end of a registration: PF1, and what belonged to it discarded. -/
theorem deregister_ends (h : Heard 8 s m) (hcut : s.line.rogueCut = false) :
    ∃ t, exec (.deregister m) s = .next t ∧ t.pf.st = .pf1 ∧ t.pf.tid = 0 ∧ t.pf.eqd = 0 ∧ t.pf.nH = [] ∧ t.pf.nT = [] ∧
      t.pf.upQ = [] ∧ t.pf.profiles = s.pf.profiles ∧ t.ke = keReset ∧ t.up.frags = [] ∧ t.cir.active = 0 ∧ t.line = s.line ∧
      t.frm.lineSync = s.frm.lineSync ∧ t.fw = s.fw ∧ t.pwr = s.pwr := by
  have hne : (recorded m s).pf.st ≠ .pf1 := fun h1 => absurd h.state (by
    rw [show s.pf.st = .pf1 from h1]; decide)
  have hact : actOn m (recorded m s) = pfGo .pf1 false (recorded m s) := by simp only [actOn, h.type]
  have hgo : Touches (.pf :: pfParts) (pfGo .pf1 false (recorded m s)) s :=
    ((touches_pfGo (by decide) false _).trans (touches_recorded m s)).widen rfl
  have hpf : (pfGo .pf1 false (recorded m s)).pf = pfAfter .pf1 (heard s m) := pf_pfGo false hne
  obtain ⟨hke, hfrags⟩ := unregistered_pfGo false hne rfl
  obtain ⟨t, ht, htouch⟩ := message_still (c := .deregister m) (st := .pf1) rfl h hcut hact hgo (by rw [hpf]; rfl) (by decide)
    (by decide) rfl rfl rfl
  have hall : Touches (.events 9 :: .pf :: pfParts) t s := (htouch.trans hgo).widen rfl
  have hend : t.pf = pfAfter .pf1 (heard s m) := (htouch.pf rfl).trans hpf
  refine ⟨t, ht, ?_, ?_, ?_, ?_, ?_, ?_, ?_, (htouch.ke rfl).trans hke, ?_, ?_, hall.line rfl, hall.lineSync rfl, hall.fw rfl,
    hall.pwr rfl⟩
  iterate 7 · rw [hend]; rfl
  · rw [htouch.up rfl, hfrags]
  · rw [htouch.cir rfl, active_pfGo_pf1 false hne]

/-! ### The emergency stop (R127) -/

/-- Nothing follows in PF7. -/
theorem pfFollow_pf7 {u : State} (h : u.pf.st = .pf7) : pfFollow u = u := by
  cases hruns : pfRuns u with
  | false => exact pfFollow_of_not_runs hruns
  | true =>
    have hrogue : followRogue u = u := by simp [followRogue, h]
    have hsync : followSync u = u := by simp [followSync, h]
    have hstart : followStart u = u := if_neg (by simp [h])
    rw [pfFollow_eq hruns, hrogue, hsync, hstart]

/-- PF7 is stored. -/
theorem emergency_pfGo_pf7 (fault : Bool) {s : State} (h : s.pf.st ≠ .pf7) :
    (pfGo .pf7 fault s).fw.want.emergency = true := by
  have harrive (t : State) : pfArrive .pf7 t =
      evReport 0x032A [] (saveStore (fun x => { x with emergency := true }) (flushCircuits t)) := rfl
  rw [pfGo_eq fault h, pfEnter, harrive, (touches_evReport 0x032A _ _).fw rfl]
  obtain ⟨x, n, hfw⟩ := want_saveStore (fun x => { x with emergency := true }) (flushCircuits _)
  rw [hfw]

theorem emergencyStop_stops (h : Heard 9 s m) :
    ∃ t, exec (.emergencyStop m) s = .next t ∧ t.pf.st = .pf7 ∧ t.pf.tid = 0 ∧ t.pf.eqd = 0 ∧ t.pf.preEqd = 0 ∧
      t.pf.backoffMax = 7 ∧ t.pf.profiles = [] ∧ t.ke = keReset ∧ t.fw.want.emergency = true ∧ lineTx t = false ∧
      t.line = s.line ∧ t.pwr = s.pwr := by
  have hne : (recorded m s).pf.st ≠ .pf7 := fun h7 => absurd h.state (by
    rw [show s.pf.st = .pf7 from h7]; decide)
  have hact : actOn m (recorded m s) = pfGo .pf7 false (recorded m s) := by simp only [actOn, h.type]
  have hpf : (pfGo .pf7 false (recorded m s)).pf = pfAfter .pf7 (heard s m) := pf_pfGo false hne
  have hw : takeTyped 9 m s = pfGo .pf7 false (recorded m s) := by
    rw [takeTyped_heard h, hact, pfFollow_pf7 (by rw [hpf]; rfl)]
  obtain ⟨t, ht, htouch⟩ := next_touches (c := .emergencyStop m) (congrArg (done s) hw)
  have hall : Touches (.events 9 :: .fw :: .pf :: pfParts) t s :=
    (htouch.trans ((touches_pfGo_pf7 false _).trans (touches_recorded m s))).widen rfl
  have hend : t.pf = pfAfter .pf7 (heard s m) := (htouch.pf rfl).trans hpf
  refine ⟨t, ht, ?_, ?_, ?_, ?_, ?_, ?_, ?_, ?_, ?_, hall.line rfl, hall.pwr rfl⟩
  iterate 6 · rw [hend]; rfl
  · rw [htouch.ke rfl, (unregistered_pfGo false hne rfl).1]
  · rw [htouch.fw rfl, emergency_pfGo_pf7 false hne]
  · simp [lineTx, hend, pfAfter]

/-- From PF0 the line in sync starts the registration again, unless it is held. -/
theorem pfFollow_pf0 {u : State} (hruns : pfRuns u = true) (hsync : pfSync u = true) (h : u.pf.st = .pf0) :
    pfFollow u = if u.pf.held then u else pfGo .pf1 false u := by
  have hrogue : followRogue u = u := by simp [followRogue, h]
  have hfollow : followSync u = u := by simp [followSync, hsync, h]
  rw [pfFollow_eq hruns, hrogue, hfollow, followStart]
  cases hheld : u.pf.held <;> simp [h, hsync]

/-- The state that has given up the stop. -/
def released (m : MsgIn) (s : State) : State := saveStore (fun x => { x with emergency := false }) (recorded m s)

theorem touches_released (m : MsgIn) (s : State) : Touches [.fw, .pf] (released m s) s :=
  (touches_saveStore _ _).trans (touches_recorded m s)

theorem fw_released (m : MsgIn) (s : State) :
    ∃ x n, (released m s).fw = { s.fw with store := x, want := { s.fw.want with emergency := false, seq := n } } :=
  want_saveStore _ (recorded m s)

theorem emergencyRelease_releases (h : Heard 10 s m) :
    ∃ t, exec (.emergencyRelease m) s = .next t ∧ t.pf.st = (if s.pf.held then .pf0 else .pf1) ∧
      t.fw.want.emergency = false ∧ t.pf.tid = 0 ∧ t.line = s.line ∧ t.pwr = s.pwr := by
  have hst : s.pf.st = .pf7 := by simpa [acceptedIn] using h.state
  have hrel : (released m s).pf = heard s m := (touches_saveStore _ _).pf rfl
  have hne : (released m s).pf.st ≠ .pf0 := by rw [hrel]; simp [heard, hst]
  obtain ⟨x, n, hfw⟩ := fw_released m s
  have hgo := touches_pfGo (new := .pf0) (by decide) false (released m s)
  have hgoAll : Touches (.fw :: .pf :: pfParts) (pfGo .pf0 false (released m s)) s :=
    (hgo.trans (touches_released m s)).widen rfl
  have hpf : (pfGo .pf0 false (released m s)).pf = pfAfter .pf0 (heard s m) := by rw [pf_pfGo false hne, hrel]
  have hfwGo : (pfGo .pf0 false (released m s)).fw = (released m s).fw := hgo.fw rfl
  have hruns : pfRuns (pfGo .pf0 false (released m s)) = true := by
    obtain ⟨⟨-, hreach⟩, -⟩ := h
    simp only [pfRuns, fwWorks, Bool.and_eq_true] at hreach ⊢
    rw [hgoAll.on_eq 2 rfl, hfwGo, hfw, hpf]
    exact hreach.1.2
  have hw : takeTyped 10 m s = if s.pf.held then pfGo .pf0 false (released m s)
      else pfGo .pf1 false (pfGo .pf0 false (released m s)) := by
    have hact : actOn m (recorded m s) = pfGo .pf0 false (released m s) := by simp only [actOn, h.type]; rfl
    rw [takeTyped_heard h, hact, pfFollow_pf0 hruns ((hgoAll.pfSync rfl rfl rfl).trans h.sync) (by rw [hpf]; rfl), hpf]
    rfl
  obtain ⟨t, ht, htouch⟩ := next_touches (c := .emergencyRelease m) (congrArg (done s) hw)
  refine ⟨t, ht, ?_⟩
  rw [htouch.pf rfl, htouch.fw rfl, htouch.line rfl, htouch.pwr rfl]
  cases s.pf.held with
  | true =>
    rw [if_pos rfl, if_pos rfl, hpf, hfwGo, hfw, hgoAll.line rfl, hgoAll.pwr rfl]
    exact ⟨rfl, rfl, rfl, rfl, rfl⟩
  | false =>
    have hgo1 := touches_pfGo (new := .pf1) (by decide) false (pfGo .pf0 false (released m s))
    have hpf1 : (pfGo .pf1 false (pfGo .pf0 false (released m s))).pf = pfAfter .pf1 (pfAfter .pf0 (heard s m)) := by
      rw [pf_pfGo false (by rw [hpf]; simp [pfAfter]), hpf]
    rw [if_neg (by decide), if_neg (by decide), hpf1, hgo1.fw rfl, hfwGo, hfw, hgo1.line rfl, hgoAll.line rfl,
      hgo1.pwr rfl, hgoAll.pwr rfl]
    exact ⟨rfl, rfl, rfl, rfl, rfl⟩

end Registration

/-- Settles O11, message by message. -/
theorem registrationMessages : Obligations.RegistrationMessages :=
  ⟨fun _ _ => assignId_enters, fun _ _ => rangingTime_pf3, fun _ _ => rangingTime_pf5, fun _ _ => deregister_ends,
    fun _ _ => emergencyStop_stops, fun _ _ => emergencyRelease_releases⟩
end Sys2Proof.Machine
end

section
/-! Discovery begins, and what each timer of the proofing state machine does (R104, R105, R127). -/

namespace Sys2Proof.Machine

section Timers
variable {s : State}

/-- A timer that runs out is counted, and the state changes. -/
theorem expiry_changes {new : PfSt} (fault : Bool) (hne : s.pf.st ≠ new) (h7 : new ≠ .pf7) :
    (pfGo new fault (ev 0x0320 s)).pf = pfAfter new s.pf ∧ Touches pfParts (pfGo new fault (ev 0x0320 s)) s := by
  have hpf : (ev 0x0320 s).pf = s.pf := (agree_ev _ s).pf
  exact ⟨by rw [pf_pfGo fault (by rwa [hpf]), hpf], ((touches_pfGo h7 fault _).trans (touches_ev 0x0320 s)).widen rfl⟩

/-- ... and where the line is in sync and nothing is cut, that is all. -/
theorem expiry_still {c : Instr} {new : PfSt} {fault : Bool} (hexec : exec c s = done s (pfFollow (pfGo new fault (ev 0x0320 s))))
    (hne : s.pf.st ≠ new) (h7 : new ≠ .pf7) (h6 : new ≠ .pf6) (h0 : new ≠ .pf0) (hst : (pfAfter new s.pf).st = new)
    (hsync : pfSync s = true) (hcut : s.line.rogueCut = false) :
    ∃ t, exec c s = .next t ∧ t.pf = pfAfter new s.pf ∧ Touches (.events 9 :: pfParts) t s := by
  obtain ⟨hpf, hgo⟩ := expiry_changes fault hne h7
  rw [pfFollow_still ((hgo.pfSync rfl rfl rfl).trans hsync) (by rw [hgo.line rfl, hcut]) (by rwa [hpf, hst])
    (by rwa [hpf, hst])] at hexec
  obtain ⟨t, ht, htouch⟩ := next_touches hexec
  exact ⟨t, ht, (htouch.pf rfl).trans hpf, (htouch.trans hgo).widen rfl⟩

/-! ### Discovery (R104, R106) -/

theorem pf2Discovery_begins (hruns : pfRuns s = true) (hst : s.pf.st = .pf1) (hprof : s.pf.profiles ≠ [])
    (htx : lineTx s = true) (hroot : s.line.rootLocked = true) (hhold : s.pf.tHoldoff = false) :
    ∃ t, exec .pf2Discovery s = .next t ∧ t.pf.st = .pf2 ∧ t.pf.profiles = s.pf.profiles ∧ t.pf.tid = 0 ∧ t.line = s.line ∧
      t.frm.lineSync = s.frm.lineSync ∧ t.pwr = s.pwr ∧ t.tmu = s.tmu := by
  have hne : s.pf.st ≠ .pf2 := by rw [hst]; decide
  obtain ⟨t, ht, htouch⟩ := next_touches (c := .pf2Discovery) (s := s) (u := pfGo .pf2 false s)
    (if_pos (by simp [hruns, hst, hprof, htx, hroot, hhold]))
  have hall : Touches (.events 9 :: enterParts) t s :=
    (htouch.trans (touches_pfGo_of_ne_pf5 (by decide) false (by rw [hst]; decide))).widen rfl
  have hpf : t.pf = pfAfter .pf2 s.pf := (htouch.pf rfl).trans (pf_pfGo false hne)
  exact ⟨t, ht, by rw [hpf]; rfl, by rw [hpf]; rfl, by rw [hpf]; rfl, hall.line rfl, hall.lineSync rfl, hall.pwr rfl,
    hall.tmu rfl⟩

theorem pf2Discovery_waits (h : s.pf.tHoldoff = true ∨ s.pf.st ≠ .pf1 ∨ s.line.rootLocked = false) :
    Becomes .pf2Discovery s s :=
  becomes_self (if_neg (by rcases h with h | h | h <;> simp [h]))

/-! ### T_RANGE, T_AUTH, T_REJECT, T_LOSS, T_HOLDOFF (R105) -/

theorem tRangeExpiry_fires (hruns : pfRuns s = true) (hst : s.pf.st = .pf3) (htimer : s.pf.tRange = true)
    (hsync : pfSync s = true) (hcut : s.line.rogueCut = false) :
    ∃ t, exec .tRangeExpiry s = .next t ∧ t.pf.st = .pf2 ∧ t.pf.tRange = false ∧ t.pf.tid = 0 ∧ t.pf.eqd = 0 ∧
      t.pf.profiles = s.pf.profiles ∧ t.line = s.line ∧ t.frm.lineSync = s.frm.lineSync ∧ t.pwr = s.pwr := by
  obtain ⟨t, ht, hpf, hall⟩ := expiry_still (c := .tRangeExpiry) (new := .pf2) (if_pos (by simp [hruns, hst, htimer]))
    (by rw [hst]; decide) (by decide) (by decide) (by decide) rfl hsync hcut
  exact ⟨t, ht, by rw [hpf]; rfl, by rw [hpf]; rfl, by rw [hpf]; rfl, by rw [hpf]; rfl, by rw [hpf]; rfl, hall.line rfl,
    hall.lineSync rfl, hall.pwr rfl⟩

theorem tRangeExpiry_idle (h : s.pf.tRange = false ∨ s.pf.st ≠ .pf3) : Becomes .tRangeExpiry s s :=
  becomes_self (if_neg (by rcases h with h | h <;> simp [h]))

theorem tAuthExpiry_fires (hruns : pfRuns s = true) (hst : s.pf.st = .pf4) (hrej : s.pf.rejecting = false)
    (htimer : s.pf.tAuth = true) (hsync : pfSync s = true) (hcut : s.line.rogueCut = false) :
    ∃ t, exec .tAuthExpiry s = .next t ∧ t.pf.st = .pf2 ∧ t.pf.tAuth = false ∧ t.pf.tid = 0 ∧ t.pf.eqd = 0 ∧ t.line = s.line ∧
      t.frm.lineSync = s.frm.lineSync ∧ t.pwr = s.pwr := by
  obtain ⟨t, ht, hpf, hall⟩ := expiry_still (c := .tAuthExpiry) (new := .pf2) (if_pos (by simp [hruns, hst, hrej, htimer]))
    (by rw [hst]; decide) (by decide) (by decide) (by decide) rfl hsync hcut
  exact ⟨t, ht, by rw [hpf]; rfl, by rw [hpf]; rfl, by rw [hpf]; rfl, by rw [hpf]; rfl, hall.line rfl, hall.lineSync rfl,
    hall.pwr rfl⟩

theorem tAuthExpiry_idle (h : s.pf.tAuth = false ∨ s.pf.st ≠ .pf4) : Becomes .tAuthExpiry s s :=
  becomes_self (if_neg (by rcases h with h | h <;> simp [h]))

theorem tRejectExpiry_fires (hruns : pfRuns s = true) (hst : s.pf.st = .pf4) (hrej : s.pf.rejecting = true)
    (htimer : s.pf.tReject = true) (hsync : pfSync s = true) (hcut : s.line.rogueCut = false) :
    ∃ t, exec .tRejectExpiry s = .next t ∧ t.pf.st = .pf1 ∧ t.pf.rejecting = false ∧ t.pf.tHoldoff = true ∧ t.pf.tid = 0 ∧
      t.line = s.line ∧ t.frm.lineSync = s.frm.lineSync ∧ t.pwr = s.pwr := by
  let u : State := { pfGo .pf1 false s with pf := { (pfGo .pf1 false s).pf with tHoldoff := true } }
  have hpf : u.pf = { pfAfter .pf1 s.pf with tHoldoff := true } := by
    simp only [u, pf_pfGo false (show s.pf.st ≠ .pf1 by rw [hst]; decide)]
  have hgo : Touches pfParts u s := ((touches_pf _ _).trans (touches_pfGo (by decide) false s)).widen rfl
  have hexec : exec .tRejectExpiry s = done s (pfFollow u) := if_pos (by simp [hruns, hst, hrej, htimer])
  rw [pfFollow_still ((hgo.pfSync rfl rfl rfl).trans hsync) (by rw [hgo.line rfl, hcut]) (by rw [hpf]; simp [pfAfter])
    (by rw [hpf]; simp [pfAfter])] at hexec
  obtain ⟨t, ht, htouch⟩ := next_touches hexec
  have hall : Touches (.events 9 :: pfParts) t s := (htouch.trans hgo).widen rfl
  have hend : t.pf = { pfAfter .pf1 s.pf with tHoldoff := true } := (htouch.pf rfl).trans hpf
  exact ⟨t, ht, by rw [hend]; rfl, by rw [hend]; rfl, by rw [hend], by rw [hend]; rfl, hall.line rfl, hall.lineSync rfl,
    hall.pwr rfl⟩

theorem tRejectExpiry_idle (h : s.pf.tReject = false ∨ s.pf.rejecting = false) : Becomes .tRejectExpiry s s :=
  becomes_self (if_neg (by rcases h with h | h <;> simp [h]))

/-- Out of sync PF0 is kept. -/
theorem pfFollow_pf0_noSync {u : State} (hsync : pfSync u = false) (h : u.pf.st = .pf0) : pfFollow u = u := by
  have hrogue : followRogue u = u := by simp [followRogue, h]
  have hfollow : followSync u = u := by simp [followSync, hsync, h]
  have hstart : followStart u = u := if_neg (by simp [hsync])
  cases hruns : pfRuns u with
  | false => exact pfFollow_of_not_runs hruns
  | true => rw [pfFollow_eq hruns, hrogue, hfollow, hstart]

theorem tLossExpiry_fires (hruns : pfRuns s = true) (hst : s.pf.st = .pf6) (htimer : s.pf.tLoss = true)
    (hsync : pfSync s = false) :
    ∃ t, exec .tLossExpiry s = .next t ∧ t.pf.st = .pf0 ∧ t.pf.tLoss = false ∧ t.pf.tid = 0 ∧ t.pf.profiles = [] ∧
      t.line = s.line ∧ t.frm.lineSync = s.frm.lineSync ∧ t.pwr = s.pwr := by
  obtain ⟨hpf, hgo⟩ := expiry_changes (s := s) (new := .pf0) true (by rw [hst]; decide) (by decide)
  have hexec : exec .tLossExpiry s = done s (pfFollow (pfGo .pf0 true (ev 0x0320 s))) :=
    if_pos (by simp [hruns, hst, htimer])
  rw [pfFollow_pf0_noSync ((hgo.pfSync rfl rfl rfl).trans hsync) (by rw [hpf]; rfl)] at hexec
  obtain ⟨t, ht, htouch⟩ := next_touches hexec
  have hall : Touches (.events 9 :: pfParts) t s := (htouch.trans hgo).widen rfl
  have hend : t.pf = pfAfter .pf0 s.pf := (htouch.pf rfl).trans hpf
  exact ⟨t, ht, by rw [hend]; rfl, by rw [hend]; rfl, by rw [hend]; rfl, by rw [hend]; rfl, hall.line rfl, hall.lineSync rfl,
    hall.pwr rfl⟩

theorem tLossExpiry_idle (h : s.pf.tLoss = false ∨ s.pf.st ≠ .pf6) : Becomes .tLossExpiry s s :=
  becomes_self (if_neg (by rcases h with h | h <;> simp [h]))

theorem tHoldoffExpiry_ends (s : State) : Becomes .tHoldoffExpiry s { s with pf := { s.pf with tHoldoff := false } } :=
  becomes_of_exec_eq_done rfl (.refl _)

end Timers

/-! ### LINE_STOP in PF5 (R127) -/

theorem pend_trySend (n : Nat) (s : State) : (trySend n s).mbx.pend = s.mbx.pend := by
  unfold trySend
  split
  · split
    · rfl
    · rw [post, (touches_notify [] _ _).mbx rfl, (touches_ev 0x0E01 _).mbx rfl]
      rfl
  · rfl

/-- A result always joins its queue. -/
theorem pend_sendResult (ch seq opcode code : Nat) (data : List Word) (s : State) :
    (sendResult ch seq opcode code data s).mbx.pend = s.mbx.pend := pend_trySend _ _

/-- Only messages that wait otherwise, or that none of those finished names, still wait for something else than their
result. -/
theorem pend_finished {w : Wait} (hw : w ≠ .result) (code : Nat) (data : List Word) (l : List Pend) (s : State) (q : Pend)
    (hq : q ∈ (l.foldl (fun t p => finishPend p code data t) s).mbx.pend) (hwait : q.wait = w) :
    q ∈ s.mbx.pend ∧ q ∉ l := by
  induction l generalizing s with
  | nil => exact ⟨hq, List.not_mem_nil⟩
  | cons p r ih =>
    obtain ⟨hmem, hr⟩ := ih (finishPend p code data s) hq
    rw [finishPend, pend_sendResult, List.mem_map] at hmem
    obtain ⟨x, hx, hxq⟩ := hmem
    split at hxq
    next => exact absurd (hwait.symm.trans (hxq ▸ rfl)) hw
    next hne =>
      subst hxq
      refine ⟨hx, fun h => ?_⟩
      obtain rfl | h := List.mem_cons.mp h
      · exact hne ⟨rfl, rfl⟩
      · exact hr h

/-- Nothing waits for what has been finished. -/
theorem wait_finishWait {w : Wait} (hw : w ≠ .result) (code : Nat) (data : List Word) (s : State) :
    ∀ p ∈ (finishWait w code data s).mbx.pend, p.wait ≠ w := by
  intro p hp hwait
  obtain ⟨hmem, hnot⟩ := pend_finished hw code data _ s p hp hwait
  exact hnot (by simp [hmem, hwait])

theorem lineStopTimeout_stops {s : State} (hstop : s.pf.stopping = true) (hfw : fwWorks s = true) (hst : s.pf.st = .pf5) :
    ∃ t, exec .lineStopTimeout s = .next t ∧ t.pf.st = .pf0 ∧ t.pf.stopping = false ∧ t.pf.tid = 0 ∧ t.pf.held = s.pf.held ∧
      (∀ p ∈ t.mbx.pend, p.wait ≠ .lineStop) ∧ t.line = s.line ∧ t.pwr = s.pwr := by
  let s1 : State := { s with pf := { s.pf with stopping := false } }
  have hne : s1.pf.st ≠ .pf0 := by simp [s1, hst]
  obtain ⟨t, ht, htouch⟩ := next_touches (c := .lineStopTimeout) (s := s) (u := pfGo .pf0 true s1)
    (if_pos (by simp [hstop, hfw]))
  have hall : Touches (.events 9 :: .pf :: pfParts) t s :=
    (htouch.trans ((touches_pfGo (by decide) true s1).trans (touches_pf s _))).widen rfl
  have hpf : t.pf = pfAfter .pf0 s1.pf := (htouch.pf rfl).trans (pf_pfGo true hne)
  have harrive (u : State) : pfArrive .pf0 u =
      finishWait .lineStop 0 [] (flushCircuits { u with pf := { u.pf with stopping := false } }) := rfl
  refine ⟨t, ht, by rw [hpf]; rfl, by rw [hpf]; rfl, by rw [hpf]; rfl, by rw [hpf]; rfl, ?_, hall.line rfl, hall.pwr rfl⟩
  rw [htouch.mbx rfl, pfGo_eq true hne, pfEnter, harrive]
  exact wait_finishWait (by decide) _ _ _

theorem lineStopTimeout_idle {s : State} (h : s.pf.stopping = false) : Becomes .lineStopTimeout s s :=
  becomes_self (if_neg (by simp [h]))

/-- Settles O13, timer by timer. -/
theorem proofingTimers : Obligations.ProofingTimers :=
  ⟨fun _ => pf2Discovery_begins, fun _ => pf2Discovery_waits, fun _ => tRangeExpiry_fires, fun _ => tRangeExpiry_idle,
    fun _ => tAuthExpiry_fires, fun _ => tAuthExpiry_idle, fun _ => tRejectExpiry_fires, fun _ => tRejectExpiry_idle,
    fun _ => tLossExpiry_fires, fun _ => tLossExpiry_idle, tHoldoffExpiry_ends, fun _ => lineStopTimeout_stops,
    fun _ => lineStopTimeout_idle⟩

end Sys2Proof.Machine
end

section
/-! Authentication and the epoch keys (R115-R117). -/

namespace Sys2Proof.Machine

section Authentication
variable {s : State} {m : MsgIn}

/-! ### AUTH_CHALLENGE -/

theorem natLe_length (n x : Nat) : (natLe n x).length = n := by
  induction n generalizing x with
  | zero => rfl
  | succ n ih => simp [natLe, ih]

theorem natBe_length (n x : Nat) : (natBe n x).length = n := by simp [natBe, natLe_length]

/-- The nonce that the module draws. -/
def drawnNt (s : State) : List Byte :=
  natBe 8 (Config.hwRandom s.free).toNat ++ natBe 8 (Config.hwRandom (s.free + 1)).toNat

/-- K_A of a challenge. -/
def challengeKey (nH : List Byte) (s : State) : List Byte := kdf s.fw.kId "CHNL-AUTH" (serialBytes s ++ nH ++ drawnNt s)

/-- The body of AUTH_RESPONSE. -/
def response (nH : List Byte) (s : State) : List Byte :=
  drawnNt s ++ cmac (challengeKey nH s) (0x54 :: (serialBytes s ++ tidByte s ++ nH ++ drawnNt s))

/-- The state that has drawn N_T and loaded K_A. -/
def challenged (nH : List Byte) (s : State) : State :=
  loadKey slotAuth 0 (challengeKey nH s) { s with free := s.free + 2 }

/-- The response is queued, an earlier one goes; x is the proofing state before. -/
def responding (nH : List Byte) (s : State) (x : Pf) : State := queueMsg 0x82 (response nH s) { challenged nH s with
  pf := { x with nH := nH, nT := drawnNt s, upQ := x.upQ.filter fun u => u.type != 0x82 } }

theorem pf_challenged (nH : List Byte) (s : State) : (challenged nH s).pf = s.pf := (touches_loadKey _ _ _ _).pf rfl

theorem takeChallenge_eq (hrej : s.pf.rejecting = false) (hnew : s.pf.nH ≠ slice m 4 32) (hcph : cipherReady s = true) :
    takeChallenge m s = responding (slice m 4 32) s s.pf := by
  have hrun : takeChallenge m s = responding (slice m 4 32) s (challenged (slice m 4 32) s).pf := by
    simp only [takeChallenge, hrej, Bool.false_eq_true, if_false]
    rw [if_neg (by simp [hnew, hcph])]
    rfl
  rw [hrun, pf_challenged]

theorem responding_eq (nH : List Byte) (s : State) (hq : s.pf.upQ.length < 8) : responding nH s s.pf =
    { challenged nH s with pf := { s.pf with
        nH := nH, nT := drawnNt s, upSeq := (s.pf.upSeq + 1) % 256
        upQ := (s.pf.upQ.filter fun u => u.type != 0x82) ++
          [{ type := 0x82, seq := s.pf.upSeq % 256, payload := pad 44 (response nH s) }] } } :=
  queueMsg_of_room _ _ ((List.length_filter_le _ s.pf.upQ).trans_lt hq)

theorem keySlot_loadKey (n usage : Nat) (key : List Byte) (s : State) : (keySlot (loadKey n usage key s) n).st = .loaded ∧
    (keySlot (loadKey n usage key s) n).key = pad 32 key := by
  have hev (t : State) : keySlot (ev 0x0B13 t) n = keySlot t n := by
    simp only [keySlot, (agree_ev 0x0B13 t).cph]
  simp only [loadKey, hev, keySlot_setKeySlot_same, and_self]

/-- A challenge with another N_H: the response goes out under the new N_T, and K_A is loaded. -/
theorem authChallenge_answers (h : Heard 5 s m) (hcut : s.line.rogueCut = false) (hrej : s.pf.rejecting = false)
    (hnew : s.pf.nH ≠ slice m 4 32) (hcph : cipherReady s = true) (hq : s.pf.upQ.length < 8) :
    ∃ t, exec (.authChallenge m) s = .next t ∧ t.pf.st = .pf4 ∧ t.pf.nH = slice m 4 32 ∧ t.pf.nT.length = 16 ∧
      (keySlot t slotAuth).st = .loaded ∧
      (keySlot t slotAuth).key = pad 32 (kdf s.fw.kId "CHNL-AUTH" (serialBytes s ++ t.pf.nH ++ t.pf.nT)) ∧
      t.pf.upQ.getLast? = some { type := 0x82, seq := s.pf.upSeq % 256, payload := pad 44 (t.pf.nT ++
        cmac (kdf s.fw.kId "CHNL-AUTH" (serialBytes s ++ t.pf.nH ++ t.pf.nT))
          (0x54 :: (serialBytes s ++ tidByte s ++ t.pf.nH ++ t.pf.nT))) } ∧
      Agree t { s with pf := t.pf, cph := t.cph, free := t.free } := by
  have hst : s.pf.st = .pf4 := by simpa [acceptedIn] using h.state
  have hact : actOn m (recorded m s) = takeChallenge m (recorded m s) := by simp only [actOn, h.type]
  rw [takeChallenge_eq (s := recorded m s) hrej hnew hcph, responding_eq _ (recorded m s) hq] at hact
  have hgo : Touches [.pf, .cph, .free, .events 0x0B] (actOn m (recorded m s)) s := by
    rw [hact]
    exact ((touches_pf _ _).trans ((touches_loadKey _ _ _ _).trans ((touches_free _ _).trans (touches_recorded m s)))).widen rfl
  obtain ⟨t, ht, htouch⟩ := message_still (c := .authChallenge m) (st := .pf4) rfl h hcut rfl hgo (by rw [hact]; exact hst)
    (by decide) (by decide) rfl rfl rfl
  have hall : Touches [.pf, .cph, .free, .events 9, .events 0x0B] t s := (htouch.trans hgo).widen rfl
  have hkey : keySlot t slotAuth = keySlot (challenged (slice m 4 32) (recorded m s)) slotAuth := by
    rw [keySlot, htouch.cph rfl, hact]
    rfl
  obtain ⟨hloaded, hbytes⟩ := keySlot_loadKey slotAuth 0 (challengeKey (slice m 4 32) (recorded m s))
    { recorded m s with free := s.free + 2 }
  have hpf := htouch.pf rfl
  rw [hact] at hpf
  refine ⟨t, ht, ?_, ?_, ?_, by rw [hkey]; exact hloaded, ?_, ?_, hall.agree⟩
  · rw [hpf]; exact hst
  · rw [hpf]
  · rw [hpf]; simp [drawnNt, natBe_length]
  · rw [hkey, hpf]; exact hbytes
  · rw [hpf]; exact List.getLast?_concat

/-- A message that, where it stands, changes nothing more. -/
theorem becomes_recorded {c : Instr} {k : Nat} {st : PfSt} (hexec : exec c s = done s (takeTyped k m s)) (h : Heard k s m)
    (hcut : s.line.rogueCut = false) (hact : actOn m (recorded m s) = recorded m s) (hst : s.pf.st = st) (h6 : st ≠ .pf6)
    (h0 : st ≠ .pf0) : Becomes c s { s with pf := heard s m } := by
  obtain ⟨t, ht, htouch⟩ := message_still (st := st) hexec h hcut hact (touches_recorded m s) hst h6 h0 rfl rfl rfl
  exact ⟨t, ht, htouch.agree⟩

theorem authChallenge_again (h : Heard 5 s m) (hcut : s.line.rogueCut = false) (hrej : s.pf.rejecting = false)
    (hsame : s.pf.nH = slice m 4 32) : Becomes (.authChallenge m) s { s with pf := heard s m } := by
  have hst : s.pf.st = .pf4 := by simpa [acceptedIn] using h.state
  have hact : actOn m (recorded m s) = takeChallenge m (recorded m s) := by simp only [actOn, h.type]
  have hrej' : (recorded m s).pf.rejecting = false := hrej
  refine becomes_recorded (k := 5) (st := .pf4) rfl h hcut (hact.trans ?_) hst (by decide) (by decide)
  simp only [takeChallenge, hrej', Bool.false_eq_true, if_false]
  exact if_pos (.inl hsame)

/-! ### AUTH_CONFIRM -/

/-- The key K_S of a confirmation. -/
def confirmKey (s : State) : List Byte :=
  kdf s.fw.kId "CHNL-SESS" (serialBytes s ++ tidByte s ++ s.pf.nH ++ s.pf.nT)

/-- The state that has changed the keys of the exchange. -/
def rekeyed (s : State) : State := eraseKey slotAuth (loadKey slotSess 0 (confirmKey s) s)

theorem touches_rekeyed (s : State) : Touches keyParts (rekeyed s) s :=
  ((touches_eraseKey _ _).trans (touches_loadKey _ _ _ s)).widen rfl

section Confirm
variable {k : List Byte} (hkey : loadedKey s slotAuth = some k) (hrej : s.pf.rejecting = false)
  (hresp : s.pf.responded = true)
include hkey hrej hresp

theorem takeConfirm_right (htag : slice m 4 16 = tagH s k) : takeConfirm m s =
    { pfGo .pf5 false (rekeyed s) with pf := { (pfGo .pf5 false (rekeyed s)).pf with nH := [], nT := [] } } := by
  simp only [takeConfirm, hkey]
  rw [if_neg (by simp [hrej, hresp]), if_pos htag]
  rfl

theorem takeConfirm_wrong (htag : slice m 4 16 ≠ tagH s k) (hq : s.pf.upQ.length < 8) : takeConfirm m s =
    { ev 0x031F s with pf := { s.pf with
      rejecting := true, tAuth := false, tReject := true, upSeq := (s.pf.upSeq + 1) % 256
      upQ := s.pf.upQ ++ [{ type := 0x83, seq := s.pf.upSeq % 256, payload := pad 44 [1] }] } } := by
  have hpf : (ev 0x031F s).pf = s.pf := (agree_ev _ s).pf
  simp only [takeConfirm, hkey]
  rw [if_neg (by simp [hrej, hresp]), if_neg htag, queueMsg_of_room _ _ (by rwa [hpf]), hpf]

end Confirm

/-- T_H is right: PF5, and the exchange is over. -/
theorem authConfirm_right {k : List Byte} (h : Heard 6 s m) (hcut : s.line.rogueCut = false)
    (hkey : loadedKey s slotAuth = some k) (hrej : s.pf.rejecting = false) (hresp : s.pf.responded = true)
    (htag : slice m 4 16 = tagH s k) :
    ∃ t, exec (.authConfirm m) s = .next t ∧ t.pf.st = .pf5 ∧ t.pf.nH = [] ∧ t.pf.nT = [] ∧ t.pf.tid = s.pf.tid ∧
      t.pf.eqd = s.pf.eqd ∧ t.pf.tAuth = false ∧ t.ke = s.ke ∧ t.line = s.line ∧ t.fw = s.fw ∧ t.pwr = s.pwr := by
  have hst : s.pf.st = .pf4 := by simpa [acceptedIn] using h.state
  have hact : actOn m (recorded m s) = takeConfirm m (recorded m s) := by simp only [actOn, h.type]
  rw [takeConfirm_right (s := recorded m s) hkey hrej hresp htag] at hact
  have hre := touches_rekeyed (recorded m s)
  have hst1 : (rekeyed (recorded m s)).pf.st = .pf4 := by rw [hre.pf rfl]; exact hst
  have hne : (rekeyed (recorded m s)).pf.st ≠ .pf5 := by rw [hst1]; decide
  have hpf : (pfGo .pf5 false (rekeyed (recorded m s))).pf = pfAfter .pf5 (heard s m) := by
    rw [pf_pfGo false hne, hre.pf rfl]; rfl
  have hkept : Touches (.flw :: .pf :: .events 3 :: keyParts) (pfGo .pf5 false (rekeyed (recorded m s))) s := by
    have harrive (t : State) : pfArrive .pf5 t =
        writeTag (controlTag t) (word (at' (controlTag t) 44 + at' 0x1E 39 + at' 1 38)) t := rfl
    have hended (t : State) : pfEnded .pf5 t = t := rfl
    rw [pfGo_eq false hne, if_neg hne, pfEnter, harrive, hended]
    exact ((touches_writeTag _ _ _).trans ((touches_evReport 0x0319 _ _).trans ((touches_pfWrite _ _).trans
      (hre.trans (touches_recorded m s))))).widen rfl
  have hgo : Touches (.flw :: .pf :: .events 3 :: keyParts) (actOn m (recorded m s)) s := by
    rw [hact]
    exact ((touches_pf _ _).trans hkept).widen rfl
  have hend : (actOn m (recorded m s)).pf = { pfAfter .pf5 (heard s m) with nH := [], nT := [] } := by rw [hact, hpf]
  obtain ⟨t, ht, htouch⟩ := message_still (c := .authConfirm m) (st := .pf5) rfl h hcut rfl hgo (by rw [hend]; rfl)
    (by decide) (by decide) rfl rfl rfl
  have hall : Touches (.events 9 :: .flw :: .pf :: .events 3 :: keyParts) t s := (htouch.trans hgo).widen rfl
  have hpf5 := (htouch.pf rfl).trans hend
  refine ⟨t, ht, ?_, ?_, ?_, ?_, ?_, ?_, hall.ke rfl, hall.line rfl, hall.fw rfl, hall.pwr rfl⟩
  all_goals simp [hpf5, pfAfter, pfUnregistered, heard]

/-- T_H is wrong: counted, and AUTH_REJECT queued. -/
theorem authConfirm_wrong {k : List Byte} (h : Heard 6 s m) (hcut : s.line.rogueCut = false)
    (hkey : loadedKey s slotAuth = some k) (hrej : s.pf.rejecting = false) (hresp : s.pf.responded = true)
    (htag : slice m 4 16 ≠ tagH s k) (hq : s.pf.upQ.length < 8) :
    BecomesCounting (.authConfirm m) 0x031F 0 s { s with pf := { heard s m with
      rejecting := true, tAuth := false, tReject := true, upSeq := (s.pf.upSeq + 1) % 256
      upQ := s.pf.upQ ++ [{ type := 0x83, seq := s.pf.upSeq % 256, payload := pad 44 [1] }] } } := by
  have hst : s.pf.st = .pf4 := by simpa [acceptedIn] using h.state
  have hact : actOn m (recorded m s) = takeConfirm m (recorded m s) := by simp only [actOn, h.type]
  rw [takeConfirm_wrong (s := recorded m s) hkey hrej hresp htag hq] at hact
  have hgo : Touches [.pf, .events 3] (actOn m (recorded m s)) s := by
    rw [hact]
    exact ((touches_pf _ _).trans ((touches_ev 0x031F _).trans (touches_recorded m s))).widen rfl
  have hw : takeTyped 6 m s = actOn m (recorded m s) := takeTyped_still h hcut rfl hgo rfl rfl rfl
    (by rw [hact]; simp [recorded, heard, hst]) (by rw [hact]; simp [recorded, heard, hst])
  rw [hact] at hw
  exact becomesCounting_of_exec_eq_done (congrArg (done s) hw) { agree_ev 0x031F (recorded m s) with pf := rfl }
    (counter_count_same (e := 0x031F) (s := recorded m s) 1) (by decide) (by decide)

theorem authConfirm_alone (h : Heard 6 s m) (hcut : s.line.rogueCut = false) (hkey : loadedKey s slotAuth = none) :
    BecomesCounting (.authConfirm m) 0x031A 0 s { s with pf := heard s m } := by
  have hkey' : loadedKey (recorded m s) slotAuth = none := hkey
  refine message_ignored rfl h hcut ?_ (fun h6 => absurd h.state (by rw [h6]; decide))
    (fun h0 => absurd h.state (by rw [h0]; decide)) (by decide)
  have hact : actOn m (recorded m s) = takeConfirm m (recorded m s) := by simp only [actOn, h.type]
  rw [hact, takeConfirm, hkey']

/-! ### EPOCH_KEY -/

/-- The first epoch is noted and acknowledged. -/
def firstNoted (m : MsgIn) (s : State) : State := { s with
  ke := { s.ke with lastE := some (be m 4 4), first := some { epoch := be m 4 4, bit := (nth m 8 0).getLsbD 0 } }
  pf := { s.pf with
    upQ := s.pf.upQ ++ [{ type := 0x87, seq := s.pf.upSeq % 256, payload := pad 44 (m.take 1 ++ slice m 3 1) }]
    upSeq := (s.pf.upSeq + 1) % 256 } }

theorem touches_firstNoted (m : MsgIn) (s : State) : Touches [.ke, .pf] (firstNoted m s) s :=
  ((touches_ke { s with pf := (firstNoted m s).pf } _).trans (touches_pf s _)).widen rfl

/-- The state in which the first epoch's derivations run. -/
def firstEpoch (m : MsgIn) (kS : List Byte) (s : State) : State :=
  loadKey (slotEpoch ((nth m 8 0).getLsbD 0)) 0 (kdf kS "CHNL-EPOCH" (natBe 4 (be m 4 4) ++ slice m 9 32)) (firstNoted m s)

theorem touches_firstEpoch (m : MsgIn) (kS : List Byte) (s : State) :
    Touches [.cph, .events 0x0B] (firstEpoch m kS s) (firstNoted m s) := touches_loadKey _ _ _ _

theorem takeEpochKey_first {kS : List Byte} (hkey : loadedKey s slotSess = some kS) (hlast : s.ke.lastE = none)
    (hcur : s.ke.current = none) (hfirst : s.ke.first = none) (hq : s.pf.upQ.length < 8) :
    takeEpochKey m s = firstEpoch m kS s := by
  let s1 : State := { s with
    ke := { s.ke with lastE := some (be m 4 4) }
    pf := { s.pf with
      upQ := s.pf.upQ ++ [{ type := 0x87, seq := s.pf.upSeq % 256, payload := pad 44 (m.take 1 ++ slice m 3 1) }]
      upSeq := (s.pf.upSeq + 1) % 256 } }
  have hack : ack m { s with ke := { s.ke with lastE := some (be m 4 4) } } = s1 := queueMsg_of_room _ _ hq
  have hforce : bitInForce s1 = none := by simp [bitInForce, s1, hcur, hfirst]
  simp only [takeEpochKey, hkey, hlast, Bool.false_eq_true, if_false, hack, hforce]
  rfl

theorem epochKey_first {kS : List Byte} (h : Heard 7 s m) (hcut : s.line.rogueCut = false)
    (hkey : loadedKey s slotSess = some kS) (hlast : s.ke.lastE = none) (hcur : s.ke.current = none)
    (hfirst : s.ke.first = none) (hq : s.pf.upQ.length < 8) :
    ∃ t, exec (.epochKey m) s = .next t ∧
      t.ke = { s.ke with lastE := some (be m 4 4), first := some { epoch := be m 4 4, bit := (nth m 8 0).getLsbD 0 } } ∧
      (keySlot t (slotEpoch ((nth m 8 0).getLsbD 0))).key =
        pad 32 (kdf kS "CHNL-EPOCH" (natBe 4 (be m 4 4) ++ slice m 9 32)) ∧
      (t.pf.upQ.getLast?).map (·.type) = some 0x87 ∧ Agree t { s with ke := t.ke, pf := t.pf, cph := t.cph } := by
  have hst : s.pf.st = .pf5 := by simpa [acceptedIn] using h.state
  have hact : actOn m (recorded m s) = takeEpochKey m (recorded m s) := by simp only [actOn, h.type]
  rw [takeEpochKey_first (s := recorded m s) hkey hlast hcur hfirst hq] at hact
  have hload := touches_firstEpoch m kS (recorded m s)
  have hgo : Touches [.pf, .ke, .cph, .events 0x0B] (firstEpoch m kS (recorded m s)) s :=
    (hload.trans ((touches_firstNoted m _).trans (touches_recorded m s))).widen rfl
  have hpf : (firstEpoch m kS (recorded m s)).pf = (firstNoted m (recorded m s)).pf := hload.pf rfl
  obtain ⟨t, ht, htouch⟩ := message_still (c := .epochKey m) (st := .pf5) rfl h hcut hact hgo
    ((congrArg Pf.st hpf).trans hst) (by decide) (by decide) rfl rfl rfl
  have hall : Touches [.ke, .pf, .cph, .events 9, .events 0x0B] t s := (htouch.trans hgo).widen rfl
  refine ⟨t, ht, (htouch.ke rfl).trans (hload.ke rfl), ?_, ?_, hall.agree⟩
  · rw [keySlot, htouch.cph rfl]
    exact (keySlot_loadKey _ _ _ (firstNoted m (recorded m s))).2
  · rw [htouch.pf rfl, hpf, firstNoted]
    simp

theorem epochKey_notGreater {kS : List Byte} {l : Nat} (h : Heard 7 s m) (hcut : s.line.rogueCut = false)
    (hkey : loadedKey s slotSess = some kS) (hlast : s.ke.lastE = some l) (hle : be m 4 4 ≤ l) :
    BecomesCounting (.epochKey m) 0x0326 0 s { s with pf := heard s m } := by
  have hkey' : loadedKey (recorded m s) slotSess = some kS := hkey
  have hlast' : (recorded m s).ke.lastE = some l := hlast
  refine message_ignored rfl h hcut ?_ (fun h6 => absurd h.state (by rw [h6]; decide))
    (fun h0 => absurd h.state (by rw [h0]; decide)) (by decide)
  have hact : actOn m (recorded m s) = takeEpochKey m (recorded m s) := by simp only [actOn, h.type]
  rw [hact]
  simp only [takeEpochKey, hkey', hlast', hle, decide_true, if_true]

end Authentication

/-- Settles O12, message by message. -/
theorem authenticationMessages : Obligations.AuthenticationMessages :=
  ⟨fun _ _ => authChallenge_answers, fun _ _ => authChallenge_again, fun _ _ _ => authConfirm_right,
    fun _ _ _ => authConfirm_wrong, fun _ _ => authConfirm_alone, fun _ _ _ => epochKey_first,
    fun _ _ _ _ => epochKey_notGreater⟩
end Sys2Proof.Machine
end

section
/-! The key-epoch switch (R119-R122). -/

namespace Sys2Proof.Machine

/-- The event is the last thing that the command does, after writing what is neither counted nor powered. -/
theorem becomesCounting_ev_after {c : Instr} {e : Nat} {s u : State} {l : List Part} (hexec : exec c s = done s (ev e u))
    (hu : Touches l u s) (he : e ≠ 0x090C) (hl : l.contains (.events (e / 256)) = false) (hpwr : l.contains .pwr = false) :
    BecomesCounting c e 0 s u :=
  becomesCounting_of_exec_eq_done hexec (agree_ev e u) (counts_of_touches (.refl [] _) hu (by simp) hl hpwr (by decide)) he
    (by decide)

section KeyEpochs
variable {s : State}

/-! ### ANNOUNCE, COMMIT, CANCEL -/

theorem keAnnounce_announces {f : Nat} {b : Bool} (hcrust : crustUsed s = true) (hf : f < 2 ^ 32)
    (hcur : ∀ e, s.ke.current = some e → e.bit ≠ b) (hnew : ∀ x, s.ke.announce ≠ some (f, x)) :
    Becomes (.keAnnounce f b) s { s with ke := { s.ke with announce := some (f, b), armed := 0, commit := none } } := by
  have hexec : exec (.keAnnounce f b) s = done s (takeKeAnnounce (f % 2 ^ 32) b s) := if_pos hcrust
  refine becomes_of_exec_eq_done (hexec.trans (congrArg (done s) ?_)) (.refl _)
  have hother : (match s.ke.announce with | some (g, _) => g == f | none => false) = false := by
    cases ha : s.ke.announce with
    | none => rfl
    | some p =>
      obtain ⟨g, x⟩ := p
      have hg : g ≠ f := fun hg => hnew x (hg ▸ ha)
      simp [hg]
  rw [Nat.mod_eq_of_lt hf]
  cases hc : s.ke.current with
  | none => simp only [takeKeAnnounce, hc]
  | some e =>
    simp only [takeKeAnnounce, hc, hcur e hc, if_false]
    exact if_neg (ne_true_of_eq_false hother)

theorem keAnnounce_inForce {f : Nat} {e : EpochKeys} (hcrust : crustUsed s = true) (hcur : s.ke.current = some e) :
    BecomesCounting (.keAnnounce f e.bit) 0x03E1 0 s s := by
  have hexec : exec (.keAnnounce f e.bit) s = done s (takeKeAnnounce (f % 2 ^ 32) e.bit s) := if_pos hcrust
  refine becomesCounting_ev (hexec.trans (congrArg (done s) ?_)) (by decide)
  simp only [takeKeAnnounce, hcur, if_true]

theorem keCommit_commits {n f : Nat} (hcrust : crustUsed s = true) (hframe : (n + 2) % 2 ^ 32 = f % 2 ^ 32) :
    Becomes (.keCommit n f) s { s with ke := { s.ke with commit := some (f % 2 ^ 32) } } := by
  have hexec : exec (.keCommit n f) s = done s (takeKeCommit n f s) := if_pos hcrust
  exact becomes_of_exec_eq_done (hexec.trans (congrArg (done s) (if_pos hframe))) (.refl _)

theorem keCommit_otherFrame {n f : Nat} (hcrust : crustUsed s = true) (hframe : (n + 2) % 2 ^ 32 ≠ f % 2 ^ 32) :
    BecomesCounting (.keCommit n f) 0x030C 0 s s := by
  have hexec : exec (.keCommit n f) s = done s (takeKeCommit n f s) := if_pos hcrust
  exact becomesCounting_ev (hexec.trans (congrArg (done s) (if_neg hframe))) (by decide)

/-- The keys of the standby epoch are erased, unless they are those in force. -/
def unstood (s : State) : State :=
  match s.ke.standby, s.ke.current with
  | some e, some c => if e.bit = c.bit then s else eraseEpochKeys e.bit s
  | some e, none => eraseEpochKeys e.bit s
  | none, _ => s

theorem touches_unstood (s : State) : Touches keyParts (unstood s) s := by
  unfold unstood
  split
  · split
    · rfl
    · exact touches_eraseEpochKeys _ s
  · exact touches_eraseEpochKeys _ s
  · rfl

theorem unstood_eq {e : EpochKeys} (h : s.ke.standby = some e) (hcur : ∀ c, s.ke.current = some c → c.bit ≠ e.bit) :
    unstood s = eraseEpochKeys e.bit s := by
  cases hc : s.ke.current with
  | none => simp only [unstood, h, hc]
  | some c => simp only [unstood, h, hc, (hcur c hc).symm, if_false]

theorem keCancel_cancels (hcrust : crustUsed s = true) : ∃ t, exec .keCancel s = .next t ∧
    t.ke = { s.ke with standby := none, armed := 0, announce := none, commit := none, switchAt := none } ∧
    (∀ e, s.ke.standby = some e → (∀ c, s.ke.current = some c → c.bit ≠ e.bit) → t.cph = (eraseEpochKeys e.bit s).cph) ∧
    t.pf = s.pf ∧ t.up = s.up ∧ t.line = s.line ∧ t.flw = s.flw ∧ t.pwr = s.pwr := by
  obtain ⟨t, ht, htouch⟩ := next_touches (c := .keCancel) (s := s) (u := takeKeCancel s) (if_pos hcrust)
  have hrest : Touches [.ke] (takeKeCancel s) (unstood s) := touches_ke (unstood s) _
  have hall : Touches (.events 9 :: .ke :: keyParts) t s := (htouch.trans (hrest.trans (touches_unstood s))).widen rfl
  have hke : (takeKeCancel s).ke = { (unstood s).ke with
      standby := none, armed := 0, announce := none, commit := none, switchAt := none } := rfl
  refine ⟨t, ht, ?_, fun e he hcur => ?_, hall.pf rfl, hall.up rfl, hall.line rfl, hall.flw rfl, hall.pwr rfl⟩
  · rw [htouch.ke rfl, hke, (touches_unstood s).ke rfl]
  · rw [htouch.cph rfl, hrest.cph rfl, unstood_eq he hcur]

/-! ### Arming and evaluation -/

/-- With every standby key derived, none is missing. -/
theorem keArmed_arms {f : Nat} {e : EpochKeys} (hann : s.ke.announce = some (f, e.bit)) (hstand : s.ke.standby = some e)
    (hforce : bitInForce s ≠ some e.bit) (hcph : cipherReady s = true)
    (hkey : (loadedKey s (slotEpoch e.bit)).isSome = true) (hall : epochKeysLoaded s e.bit = true) :
    Becomes .keArmed s { s with ke := { s.ke with armed := coreMaskOn s } } := by
  have hrow : exec .keArmed s = execKeArmed s := rfl
  refine becomes_of_exec_eq_done (u := { s with ke := { s.ke with armed := coreMaskOn s } }) ?_ (.refl _)
  simp only [hrow, execKeArmed, hann, hstand]
  rw [if_pos ⟨trivial, hforce, hcph, hkey⟩, List.filter_eq_nil_iff.mpr ?noneMissing]
  · rw [List.foldl_nil, if_pos hall, ← hann, ← hstand]
  · intro t ht
    have hloaded := List.all_eq_true.mp hall t ht
    split at hloaded
    next n hn => simpa [hn] using hloaded
    next hn => exact absurd hloaded (by decide)

/-- Only the evaluation one frame before the announced one does anything. -/
theorem exec_keEvaluation {f : Nat} (hcrust : crustUsed s = true) (hann : s.ke.announce.map (·.1) = some ((f + 1) % 2 ^ 32)) :
    exec (.keEvaluation f) s =
      if (coresArmed s && s.ke.standby.isSome) && s.ke.commit == some ((f + 1) % 2 ^ 32) then
        done s (ev 0x0321 { s with ke := { s.ke with commit := none, switchAt := some ((f + 1) % 2 ^ 32) } })
      else
        let u := if coresArmed s && s.ke.standby.isSome then { s with ke := { s.ke with commit := none } }
          else ev 0x0322 { s with ke := { s.ke with commit := none } }
        done s (if s.ke.commit == some ((f + 1) % 2 ^ 32) then u else ev 0x0323 u) := by
  have hrow : exec (.keEvaluation f) s = execKeEvaluation f s := rfl
  obtain ⟨⟨g, x⟩, hp, hg⟩ := Option.map_eq_some_iff.mp hann
  have hnamed : (!(crustUsed s && (match s.ke.announce with | some (g, _) => g == (f + 1) % 2 ^ 32 | none => false))) =
      false := by
    subst hg
    simp [hcrust, hp]
  rw [hrow, execKeEvaluation]
  exact if_neg (ne_true_of_eq_false hnamed)

section Evaluation
variable {f : Nat} (hcrust : crustUsed s = true) (hann : s.ke.announce.map (·.1) = some ((f + 1) % 2 ^ 32))
include hcrust hann

theorem keEvaluation_switches (harmed : coresArmed s = true) (hstand : s.ke.standby.isSome = true)
    (hcommit : s.ke.commit = some ((f + 1) % 2 ^ 32)) : BecomesCounting (.keEvaluation f) 0x0321 0 s { s with ke := { s.ke with
      commit := none, switchAt := some ((f + 1) % 2 ^ 32) } } := by
  have hexec := exec_keEvaluation hcrust hann
  rw [if_pos (by simp [harmed, hstand, hcommit])] at hexec
  exact becomesCounting_ev_after hexec (touches_ke s _) (by decide) rfl rfl

theorem keEvaluation_unarmed (harmed : coresArmed s = false) (hcommit : s.ke.commit = some ((f + 1) % 2 ^ 32)) :
    BecomesCounting (.keEvaluation f) 0x0322 0 s { s with ke := { s.ke with commit := none } } := by
  have hexec := exec_keEvaluation hcrust hann
  rw [if_neg (by simp [harmed])] at hexec
  simp only [harmed, hcommit, Bool.false_and, Bool.false_eq_true, if_false, beq_self_eq_true, if_true] at hexec
  exact becomesCounting_ev_after hexec (touches_ke s _) (by decide) rfl rfl

theorem keEvaluation_uncommitted (harmed : coresArmed s = true) (hstand : s.ke.standby.isSome = true)
    (hcommit : s.ke.commit = none) : BecomesCounting (.keEvaluation f) 0x0323 0 s s := by
  have hexec := exec_keEvaluation hcrust hann
  have hsame : { s with ke := { s.ke with commit := s.ke.commit } } = s := rfl
  rw [hcommit] at hsame
  have hno : (s.ke.commit == some ((f + 1) % 2 ^ 32)) = false := by simp [hcommit]
  rw [if_neg (by rw [hno]; simp)] at hexec
  simp only [harmed, hstand, hno, Bool.and_self, if_true, Bool.false_eq_true, if_false] at hexec
  have hcounted := becomesCounting_ev_after hexec (touches_ke s _) (by decide) rfl rfl
  rwa [hsame] at hcounted

end Evaluation

/-! ### Activation, retirement, derivation -/

theorem epochActivation_activates {f : Nat} {e : EpochKeys} (hswitch : s.ke.switchAt = some f) (hstand : s.ke.standby = some e)
    (hann : s.ke.announce = some (f, e.bit)) : Becomes (.epochActivation f) s { s with ke := { s.ke with
      old := s.ke.current, current := some e, standby := none, since := f, expired := false, armed := 0, switchAt := none
      announce := none, retireAt := if s.ke.current.isSome then some ((f + 16) % 2 ^ 32) else none } } := by
  have hrow : exec (.epochActivation f) s = execEpochActivation f s := rfl
  refine becomes_of_exec_eq_done ?_ (.refl _)
  simp only [hrow, execEpochActivation, hswitch, hstand, hann, if_true]

theorem keRetire_retires {f : Nat} {e : EpochKeys} (hretire : s.ke.retireAt = some f) (hold : s.ke.old = some e) :
    ∃ t, exec (.keRetire f) s = .next t ∧ t.ke = { s.ke with old := none, retireAt := none } ∧
      t.up.frags = s.up.frags.filter (fun x => !(x.2.encrypted && x.2.epoch == e.bit)) ∧
      (∃ v, v.cph = s.cph ∧ v.flw = s.flw ∧ v.pf = s.pf ∧ t.cph = (eraseEpochKeys e.bit v).cph) ∧
      t.pf = s.pf ∧ t.line = s.line ∧ t.flw = s.flw ∧ t.pwr = s.pwr := by
  obtain ⟨t, ht, htouch⟩ := next_touches (c := .keRetire f) (s := s) (u := retireOld s) (if_pos hretire)
  let gone := s.up.frags.filter fun x => x.2.encrypted && x.2.epoch == e.bit
  let v := discardFrames (gone.map fun x => x.2.packet) false (count 0x0324 0 gone.length { s with
    up := { s.up with frags := s.up.frags.filter fun x => !(x.2.encrypted && x.2.epoch == e.bit) } })
  have hw : retireOld s = { eraseEpochKeys e.bit v with ke := { (eraseEpochKeys e.bit v).ke with
      old := none, retireAt := none } } := by
    simp only [retireOld, hold]
    rfl
  rw [hw] at htouch
  have hv := (touches_discardFrames (gone.map fun x => x.2.packet) false _).trans
    (touches_count (e := 0x0324) (i := 0) gone.length { s with
      up := { s.up with frags := s.up.frags.filter fun x => !(x.2.encrypted && x.2.epoch == e.bit) } } (by decide))
  have hvs : Touches (.up :: .air :: .events 3 :: discardParts) v s := (hv.trans (touches_up s _)).widen rfl
  have herase := touches_eraseEpochKeys e.bit v
  have hall : Touches (.events 9 :: .ke :: .up :: .air :: .events 3 :: keyParts ++ discardParts) t s :=
    (htouch.trans ((touches_ke _ _).trans (herase.trans hvs))).widen rfl
  refine ⟨t, ht, ?_, ?_, ⟨v, hvs.cph rfl, hvs.flw rfl, hvs.pf rfl, htouch.cph rfl⟩, hall.pf rfl, hall.line rfl, hall.flw rfl,
    hall.pwr rfl⟩
  · rw [htouch.ke rfl, herase.ke rfl, hvs.ke rfl]
  · rw [htouch.up rfl]
    exact congrArg Up.frags ((herase.up rfl).trans (hv.up rfl))

theorem keRetire_idle {f : Nat} (h : s.ke.retireAt ≠ some f) : Becomes (.keRetire f) s s := becomes_self (if_neg h)

theorem epochKeyDerived_starts {e : EpochKeys} (h : s.ke.first = some e) : ∃ t, exec .epochKeyDerived s = .next t ∧
    t.ke = { s.ke with current := some e, first := none, since := s.frm.frame.toNat, expired := false } ∧
    Agree t { s with ke := t.ke, cph := t.cph } := by
  let s1 : State := { s with ke := { s.ke with
    current := some e, first := none, since := s.frm.frame.toNat, expired := false } }
  have hrow : exec .epochKeyDerived s = execEpochKeyDerived s := rfl
  obtain ⟨t, ht, htouch⟩ := next_touches (c := .epochKeyDerived) (s := s) (u := loadEpochKeys e.bit s1)
    (by simp only [hrow, execEpochKeyDerived, h, s1])
  have hload := touches_loadEpochKeys e.bit s1
  have hall : Touches [.ke, .cph, .events 9, .events 0x0B] t s :=
    (htouch.trans (hload.trans (touches_ke s _))).widen rfl
  exact ⟨t, ht, (htouch.ke rfl).trans (hload.ke rfl), hall.agree⟩

end KeyEpochs

/-- Settles O14, command by command and event by event. -/
theorem keyEpochSwitch : Obligations.KeyEpochSwitch :=
  ⟨fun _ _ _ => keAnnounce_announces, fun _ _ _ => keAnnounce_inForce, fun _ _ _ => keCommit_commits,
    fun _ _ _ => keCommit_otherFrame, fun _ => keCancel_cancels, fun _ _ _ => keArmed_arms, fun _ _ => keEvaluation_switches,
    fun _ _ => keEvaluation_unarmed, fun _ _ => keEvaluation_uncommitted, fun _ _ _ => epochActivation_activates,
    fun _ _ _ => keRetire_retires, fun _ _ => keRetire_idle, fun _ _ => epochKeyDerived_starts⟩

end Sys2Proof.Machine
end

section
/-! The sync hunt (R71-R73). -/

namespace Sys2Proof.Machine

section Hunt
variable {s : State} {p : Nat}

/-! ### Candidates (R71) -/

theorem any_predicts_eq_false (h : ∀ c ∈ s.frm.cands, c.1 + frameSymbols ≠ p) :
    (s.frm.cands.any fun c => c.1 + frameSymbols == p) = false := by
  simpa using h

theorem syncPatternMatch_new (hhunt : hunting s = true) (hnew : ∀ c ∈ s.frm.cands, c.1 + frameSymbols ≠ p)
    (hroom : s.frm.cands.length < 8) : BecomesCounting (.syncPatternMatch p) 0x0301 0 s
      { s with frm := { s.frm with cands := s.frm.cands ++ [(p, 1)] } } := by
  have hrow : exec (.syncPatternMatch p) s = execSyncPatternMatch p s := rfl
  refine becomesCounting_ev_after ?_ (touches_frm s _) (by decide) rfl rfl
  rw [hrow, execSyncPatternMatch, if_neg (by simp only [hhunt, any_predicts_eq_false hnew]; decide), if_neg (by omega)]

theorem syncPatternMatch_full (hhunt : hunting s = true) (hnew : ∀ c ∈ s.frm.cands, c.1 + frameSymbols ≠ p)
    (hfull : 8 ≤ s.frm.cands.length) : BecomesCounting (.syncPatternMatch p) 0x0303 0 s s := by
  have hrow : exec (.syncPatternMatch p) s = execSyncPatternMatch p s := rfl
  refine becomesCounting_ev ?_ (by decide)
  rw [hrow, execSyncPatternMatch, if_neg (by simp only [hhunt, any_predicts_eq_false hnew]; decide), if_pos hfull]

theorem syncPatternMatch_idle (hhunt : hunting s = false) : Becomes (.syncPatternMatch p) s s :=
  becomes_self (if_pos (by simp [hhunt]))

/-- While hunting, a check is of the candidate that predicts the position. -/
theorem exec_syncPredictedCheck_hunting (found : Bool) (x : Option CrustIn) (hhunt : hunting s = true) :
    exec (.syncPredictedCheck p found x) s = done s (checkCand p found x s) := if_pos hhunt

theorem syncPredictedCheck_found {c : Nat × Nat} {x : Option CrustIn} (hhunt : hunting s = true)
    (hfind : s.frm.cands.find? (fun c => c.1 + frameSymbols == p) = some c)
    (hgood : c.2 < 2 ∨ ∃ y, x = some y ∧ crustCrcOk y = true) :
    Becomes (.syncPredictedCheck p true x) s { s with frm := { s.frm with
      cands := s.frm.cands.filter (· != c) ++ [(p, c.2 + 1)] } } := by
  refine becomes_of_exec_eq_done ((exec_syncPredictedCheck_hunting true x hhunt).trans (congrArg (done s) ?_)) (.refl _)
  simp only [checkCand, hfind]
  refine if_pos ?_
  obtain hlow | ⟨y, rfl, hcrc⟩ := hgood
  · simp [hlow]
  · simp [hcrc]

theorem syncPredictedCheck_dropped {c : Nat × Nat} {x : Option CrustIn} (hhunt : hunting s = true)
    (hfind : s.frm.cands.find? (fun c => c.1 + frameSymbols == p) = some c) :
    BecomesCounting (.syncPredictedCheck p false x) 0x0302 0 s { s with frm := { s.frm with
      cands := s.frm.cands.filter (· != c) } } := by
  refine becomesCounting_ev_after ((exec_syncPredictedCheck_hunting false x hhunt).trans (congrArg (done s) ?_))
    (touches_frm s _) (by decide) rfl rfl
  simp only [checkCand, hfind]
  exact if_neg (by simp)

/-! ### In sync (R73) -/

/-- In sync, the check is of the next frame's position. -/
theorem exec_syncPredictedCheck_framing (found : Bool) (x : Option CrustIn) (hframe : framing s = true)
    (hp : p = s.frm.syncPos + frameSymbols) : exec (.syncPredictedCheck p found x) s =
      if found then done s { s with frm := { s.frm with syncPos := p, misses := 0 } }
      else if 4 ≤ s.frm.misses + 1 then
        done s (syncLost (ev 0x0306 (ev 0x0305 { s with frm := { s.frm with syncPos := p, misses := s.frm.misses + 1 } })))
      else done s (ev 0x0305 { s with frm := { s.frm with syncPos := p, misses := s.frm.misses + 1 } }) := by
  have hrow : exec (.syncPredictedCheck p found x) s = execSyncPredictedCheck p found x s := rfl
  have hhunt : hunting s = false := by
    simp only [framing, Bool.and_eq_true] at hframe
    simp [hunting, hframe.2]
  have hmisses : (ev 0x0305 { s with frm := { s.frm with syncPos := p, misses := s.frm.misses + 1 } }).frm.misses =
      s.frm.misses + 1 := by rw [(agree_ev _ _).frm]
  rw [hrow, execSyncPredictedCheck, if_neg (by simp [hhunt]), if_pos (by simp [hframe, hp])]
  cases found
  · simp only [Bool.false_eq_true, if_false, hmisses]
  · rfl

theorem syncPredictedCheck_kept (x : Option CrustIn) (hframe : framing s = true) (hp : p = s.frm.syncPos + frameSymbols) :
    Becomes (.syncPredictedCheck p true x) s { s with frm := { s.frm with syncPos := p, misses := 0 } } :=
  becomes_of_exec_eq_done (exec_syncPredictedCheck_framing true x hframe hp) (.refl _)

theorem syncPredictedCheck_missed (x : Option CrustIn) (hframe : framing s = true) (hp : p = s.frm.syncPos + frameSymbols)
    (hmiss : s.frm.misses < 3) : BecomesCounting (.syncPredictedCheck p false x) 0x0305 0 s { s with frm := { s.frm with
      syncPos := p, misses := s.frm.misses + 1 } } := by
  have hexec := exec_syncPredictedCheck_framing false x hframe hp
  rw [if_neg (by decide), if_neg (by omega)] at hexec
  exact becomesCounting_ev_after hexec (touches_frm s _) (by decide) rfl rfl

theorem syncPredictedCheck_lost (x : Option CrustIn) (hframe : framing s = true) (hp : p = s.frm.syncPos + frameSymbols)
    (hmiss : 3 ≤ s.frm.misses) : ∃ t, exec (.syncPredictedCheck p false x) s = .next t ∧ t.frm.lineSync = false ∧
      t.frm.cands = [] ∧ t.frm.misses = 0 ∧ t.line = s.line ∧ t.pwr = s.pwr := by
  have hexec := exec_syncPredictedCheck_framing false x hframe hp
  rw [if_neg (by decide), if_pos (by omega)] at hexec
  obtain ⟨t, ht, htouch⟩ := next_touches hexec
  have hall : Touches (.events 9 :: .events 3 :: .frm :: syncParts) t s :=
    (htouch.trans ((touches_syncLost _).trans ((touches_ev 0x0306 _).trans ((touches_ev 0x0305 _).trans
      (touches_frm s _))))).widen rfl
  obtain ⟨hsync, hcands, hmisses⟩ := sync_syncLost
    (ev 0x0306 (ev 0x0305 { s with frm := { s.frm with syncPos := p, misses := s.frm.misses + 1 } }))
  exact ⟨t, ht, by rw [htouch.frm rfl, hsync], by rw [htouch.frm rfl, hcands], by rw [htouch.frm rfl, hmisses],
    hall.line rfl, hall.pwr rfl⟩

/-! ### SYNC_ACQUIRED (R72) -/

/-- The framer in sync at a position, with the frame number of the crust. -/
def acquired (p : Nat) (c : CrustIn) (s : State) : State := { s with frm := { s.frm with
  lineSync := true, cands := [], syncPos := p, misses := 0, frame := BitVec.ofNat 32 (be c 0 4), haveFrame := false
  units := 0, bip := 0, delineated := false, firstHdr := false } }

/-- What follows sync: on the line, the proofing state. -/
def afterSync (s : State) : State := if onLine s then pfFollow { s with cir := { s.cir with lofGood := 0 } } else s

theorem touches_afterSync (s : State) : Touches (.cir :: pfParts) (afterSync s) s := by
  unfold afterSync
  split
  · exact ((touches_pfFollow _).trans (touches_cir s _)).widen rfl
  · rfl

theorem syncAcquired_acquires {c : CrustIn} (hhunt : hunting s = true) (hcrc : crustCrcOk c = true)
    (hcand : (p, 3) ∈ s.frm.cands) : ∃ t, exec (.syncAcquired p c) s = .next t ∧ t.frm.lineSync = true ∧ t.frm.cands = [] ∧
      t.frm.syncPos = p ∧ t.frm.misses = 0 ∧ t.frm.frame = BitVec.ofNat 32 (be c 0 4) ∧ t.frm.delineated = false ∧
      t.line = s.line ∧ t.pwr = s.pwr := by
  obtain ⟨t, ht, htouch⟩ := next_touches (c := .syncAcquired p c) (s := s) (u := afterSync (ev 0x0304 (acquired p c s)))
    (if_pos (by simp [hhunt, hcrc, hcand]))
  have hsync : Touches (.events 9 :: .events 3 :: .cir :: pfParts) t (acquired p c s) :=
    (htouch.trans ((touches_afterSync _).trans (touches_ev 0x0304 _))).widen rfl
  have hfrm := hsync.sync rfl
  refine ⟨t, ht, ?_, ?_, ?_, ?_, ?_, ?_, hsync.line rfl, hsync.pwr rfl⟩
  all_goals rw [hfrm]; rfl

theorem syncAcquired_idle {c : CrustIn} (h : crustCrcOk c = false ∨ (p, 3) ∉ s.frm.cands) : Becomes (.syncAcquired p c) s s :=
  becomes_self (if_neg (by rcases h with h | h <;> simp [h]))

end Hunt

/-- Settles O15, event by event. -/
theorem syncHunt : Obligations.SyncHunt :=
  ⟨fun _ _ => syncPatternMatch_new, fun _ _ => syncPatternMatch_full, fun _ _ => syncPatternMatch_idle,
    fun _ _ _ _ => syncPredictedCheck_found, fun _ _ _ _ => syncPredictedCheck_dropped,
    fun _ _ x => syncPredictedCheck_kept x, fun _ _ x => syncPredictedCheck_missed x,
    fun _ _ x => syncPredictedCheck_lost x, fun _ _ _ => syncAcquired_acquires, fun _ _ _ => syncAcquired_idle⟩

end Sys2Proof.Machine
end

section
/-! Codewords, channel-tag items and reassembly (R69, R79, R86-R93). -/

namespace Sys2Proof.Machine

section Units
variable {s : State} {u : Nat} {b : BitVec 32}

/-! ### Codewords (R69, R79) -/

/-- A unit received: its bits enter the section BIP-32. -/
def unitTaken (u : Nat) (b : BitVec 32) (s : State) : State := { s with frm := { s.frm with
  bip := s.frm.bip ^^^ b, units := if u = s.frm.units + 1 then u else s.frm.units } }

theorem exec_codewordDecoded (o : CwOutcome) (hframe : framing s = true) (hlo : 1 ≤ u) (hhi : u ≤ 1249) :
    exec (.codewordDecoded u o b) s = match o with
      | .clean => done s (unitTaken u b s)
      | .corrected => done s (ev 0x0308 (unitTaken u b s))
      | .uncorrectable => done s (if unitHasPackets (ev 0x0309 (unitTaken u b s)) u && (ev 0x0309 (unitTaken u b s)).frm.delineated
          then loseDelineation (ev 0x0309 (unitTaken u b s)) else ev 0x0309 (unitTaken u b s)) := by
  have hrow : exec (.codewordDecoded u o b) s = execCodewordDecoded u o b s := rfl
  rw [hrow, execCodewordDecoded, if_pos (by simp [hframe, hlo, hhi])]
  cases o <;> rfl

theorem codewordDecoded_clean (hframe : framing s = true) (hlo : 1 ≤ u) (hhi : u ≤ 1249) :
    Becomes (.codewordDecoded u .clean b) s (unitTaken u b s) :=
  becomes_of_exec_eq_done (exec_codewordDecoded .clean hframe hlo hhi) (.refl _)

theorem codewordDecoded_corrected (hframe : framing s = true) (hlo : 1 ≤ u) (hhi : u ≤ 1249) :
    BecomesCounting (.codewordDecoded u .corrected b) 0x0308 0 s (unitTaken u b s) :=
  becomesCounting_ev_after (exec_codewordDecoded .corrected hframe hlo hhi) (touches_frm s _) (by decide) rfl rfl

theorem evKey_of_ne {e f i : Nat} (h : e ≠ f) (hi : i < 16) : evKey e i ≠ evKey f 0 := by
  unfold evKey
  omega

/-- Two events, one after the other, between operations that count nothing of their blocks. -/
theorem counts_both {e f : Nat} {l m n : List Part} {t x v : State} (ht : Touches l t (ev f x)) (hx : Touches m x (ev e v))
    (hv : Touches n v s) (hne : e ≠ f) (hl : l.contains (.events (e / 256)) = false ∧ l.contains (.events (f / 256)) = false)
    (hm : m.contains (.events (e / 256)) = false ∧ m.contains (.events (f / 256)) = false ∧ m.contains .pwr = false)
    (hn : n.contains (.events (e / 256)) = false ∧ n.contains (.events (f / 256)) = false ∧ n.contains .pwr = false) :
    Counts e 0 1 s t ∧ Counts f 0 1 s t := by
  have hon (d : Nat) : on x d = on s d := by rw [hx.on_eq d hm.2.2, (touches_ev e v).on_eq d (by simp), hv.on_eq d hn.2.2]
  constructor
  · intro h
    calc counter t e 0 = counter (ev f x) e 0 := ht.counter hl.1 (by decide)
      _ = counter x e 0 := counter_count_of_ne 1 x (evKey_of_ne hne (by decide))
      _ = counter (ev e v) e 0 := hx.counter hm.1 (by decide)
      _ = counter v e 0 + 1 := counter_count_same 1 (by rw [hv.on_eq _ hn.2.2, h])
      _ = counter s e 0 + 1 := by rw [hv.counter hn.1 (by decide)]
  · intro h
    calc counter t f 0 = counter (ev f x) f 0 := ht.counter hl.2 (by decide)
      _ = counter x f 0 + 1 := counter_count_same 1 (by rw [hon, h])
      _ = counter (ev e v) f 0 + 1 := by rw [hx.counter hm.2.1 (by decide)]
      _ = counter v f 0 + 1 := by rw [ev, counter_count_of_ne 1 v (evKey_of_ne hne.symm (by decide))]
      _ = counter s f 0 + 1 := by rw [hv.counter hn.2.1 (by decide)]

/-- The framer without delineation. -/
def undelineated (s : State) : State := { s with frm := { s.frm with
  delineated := false, firstHdr := false, openTag := none
  reasm := match s.frm.openTag with
    | some t => merase s.frm.reasm t
    | none => s.frm.reasm } }

/-- Delineation lost, after an event of the block that says why: both are counted, and only the framer changes. -/
theorem delineation_lost {c : Instr} {e : Nat} {v : State} (hexec : exec c s = done s (loseDelineation (ev e v)))
    (hv : Touches [.frm, .sync] v s) (hblock : e / 256 = 3) (he : e ≠ 0x0313) :
    ∃ t, exec c s = .next t ∧ t.frm.delineated = false ∧ t.frm.openTag = none ∧ Counts e 0 1 s t ∧ Counts 0x0313 0 1 s t ∧
      Agree t { s with frm := t.frm } := by
  have hlost : loseDelineation (ev e v) = ev 0x0313 (undelineated (ev e v)) := rfl
  obtain ⟨t, ht, htouch⟩ := next_touches (hexec.trans (congrArg (done s) hlost))
  have hx : Touches [.frm, .sync] (undelineated (ev e v)) (ev e v) := (touches_frm _ _).widen rfl
  have hev : Touches [.events 3] (ev e v) v := hblock ▸ touches_ev e v
  obtain ⟨hwhy, hgone⟩ := counts_both (e := e) (f := 0x0313) htouch hx hv he ⟨by rw [hblock]; rfl, rfl⟩
    ⟨by rw [hblock]; rfl, rfl, rfl⟩ ⟨by rw [hblock]; rfl, rfl, rfl⟩
  have hfrm : t.frm = (undelineated (ev e v)).frm := (htouch.frm rfl).trans (agree_ev _ _).frm
  have hall : Touches [.frm, .sync, .events 3, .events 9] t s :=
    (htouch.trans ((touches_ev 0x0313 _).trans (hx.trans (hev.trans hv)))).widen rfl
  exact ⟨t, ht, by rw [hfrm]; rfl, by rw [hfrm]; rfl, hwhy, hgone, hall.agree⟩

theorem codewordDecoded_delineation (hframe : framing s = true) (hlo : 1 ≤ u) (hhi : u ≤ 1249) (hpackets : s.frm.region < 50 * u)
    (hdel : s.frm.delineated = true) : ∃ t, exec (.codewordDecoded u .uncorrectable b) s = .next t ∧
      t.frm.delineated = false ∧ t.frm.openTag = none ∧ Counts 0x0309 0 1 s t ∧ Counts 0x0313 0 1 s t ∧
      Agree t { s with frm := t.frm } := by
  have hfrm : (ev 0x0309 (unitTaken u b s)).frm = (unitTaken u b s).frm := (agree_ev _ _).frm
  have hexec := exec_codewordDecoded (b := b) .uncorrectable hframe hlo hhi
  simp only [unitHasPackets, hfrm] at hexec
  refine delineation_lost (hexec.trans (congrArg (done s) (if_pos ?_))) ((touches_frm s _).widen rfl) rfl (by decide)
  simp [unitTaken, hpackets, hdel]

theorem codewordDecoded_circuits (hframe : framing s = true) (hlo : 1 ≤ u) (hhi : u ≤ 1249) (hcir : 50 * u ≤ s.frm.region) :
    BecomesCounting (.codewordDecoded u .uncorrectable b) 0x0309 0 s (unitTaken u b s) := by
  have hfrm : (ev 0x0309 (unitTaken u b s)).frm = (unitTaken u b s).frm := (agree_ev _ _).frm
  have hexec := exec_codewordDecoded (b := b) .uncorrectable hframe hlo hhi
  simp only [unitHasPackets, hfrm] at hexec
  refine becomesCounting_ev_after (hexec.trans (congrArg (done s) (if_neg ?_))) (touches_frm s _) (by decide) rfl rfl
  simp [unitTaken, Nat.not_lt.mpr hcir]

end Units

/-! ### Channel-tag items (R86-R91) -/

section Items
variable {s : State} {i : ItemIn}

theorem channelTagItem_badHcs (hframe : framing s = true) (hdel : s.frm.delineated = true) (hoff : i.offset = s.frm.offset)
    (hhcs : hcsOk i.header = false) : ∃ t, exec (.channelTagItem i) s = .next t ∧ t.frm.delineated = false ∧
      Counts 0x0312 0 1 s t ∧ Counts 0x0313 0 1 s t ∧ Agree t { s with frm := t.frm } := by
  have hrow : exec (.channelTagItem i) s = execChannelTagItem i s := rfl
  have hexec : exec (.channelTagItem i) s = done s (loseDelineation (ev 0x0312 s)) := by
    rw [hrow, execChannelTagItem, if_neg (by simp [hframe]), if_pos hdel, if_neg (by simp [hoff]), if_neg (by simp [hhcs])]
  obtain ⟨t, ht, hlost, -, hbad, hgone, hagree⟩ := delineation_lost hexec (.refl _ s) rfl (by decide)
  exact ⟨t, ht, hlost, hbad, hgone, hagree⟩

theorem channelTagItem_firstHeader (hframe : framing s = true) (hdel : s.frm.delineated = false)
    (hhcs : hcsOk i.header = true) (hfirst : s.frm.firstHdr = false) : Becomes (.channelTagItem i) s { s with
      frm := { s.frm with firstHdr := true, offset := i.offset + itemUnits i.header } } := by
  have hrow : exec (.channelTagItem i) s = execChannelTagItem i s := rfl
  refine becomes_of_exec_eq_done ?_ (.refl _)
  rw [hrow, execChannelTagItem, if_neg (by simp [hframe]), if_neg (by simp [hdel]), if_neg (by simp [hhcs]),
    if_neg (by simp [hfirst])]

/-- An item delimited: the framer stands at the next one. -/
def delimited (i : ItemIn) (s : State) : State := { s with frm := { s.frm with
  offset := i.offset + itemUnits i.header, openTag := if bit i.header 28 then none else some (fld i.header 63 44) } }

theorem takeItem_eq (i : ItemIn) (s : State) : takeItem i s =
    if fld i.header 63 44 = 0xFFFFF then delimited i s
    else if 4 ≤ fld i.header 26 24 then ev 0x0314 (delimited i s)
    else if !on (delimited i s) 40 then ev 0x03E0 (delimited i s)
    else match tagEntry (delimited i s) (fld i.header 63 44) with
      | some e => if tagDown e then reassemble i (delimited i s) else ev 0x0316 (delimited i s)
      | none => ev 0x0316 (delimited i s) := rfl

/-- Where a frame of the line goes: to the parser, to the cipher, or to the count of what a domain discards. -/
def deliverParts : List Part := .frm :: .events 3 :: discardParts

theorem touches_offDomainDiscard (k inst n : Nat) (s : State) (hk : k < 8) (hi : inst < 16) :
    Touches [.events 3] (offDomainDiscard 3 k inst n s) s := by
  have hblock : (3 * 256 + 0xF8 + k) / 256 = 3 := by omega
  have hcount := touches_count (e := 3 * 256 + 0xF8 + k) n s hi
  rwa [hblock] at hcount

theorem touches_offerParse (k inst : Nat) (p : Packet) (s : State) (hk : k < 8) (hi : inst < 16) :
    Touches (.events 3 :: discardParts) (offerParse 3 k inst p s) s := by
  unfold offerParse
  split
  · split
    · exact (touches_prs s _).widen rfl
    · exact (touches_prs s _).widen rfl
    · exact (touches_prs s _).widen rfl
  · exact ((touches_discardFrame _ _ _).trans (touches_offDomainDiscard k inst 1 s hk hi)).widen rfl

theorem touches_deliverLine (tag : Nat) (r : Reasm) (content gcm : List Byte) (s : State) :
    Touches deliverParts (deliverLine tag r content gcm s) s := by
  simp only [deliverLine]
  split_ifs
  · rfl
  · exact (touches_reasm s _ _).widen rfl
  · exact (touches_offDomainDiscard 0 2 1 s (by decide) (by decide)).widen rfl
  · unfold passLine
    split_ifs
    · rfl
    · split
      · split_ifs
        · rfl
        · exact (touches_offerParse 0 3 _ s (by decide) (by decide)).widen rfl
      · exact (touches_offerParse 0 3 _ s (by decide) (by decide)).widen rfl

theorem touches_setReasm (tag : Nat) (r : Reasm) (s : State) : Touches [.frm] (setReasm tag r s) s := touches_reasm s _ _

theorem touches_dropReasm (tag : Nat) (s : State) : Touches [.frm] (dropReasm tag s) s := touches_reasm s _ _

theorem touches_unlessDead (r : Reasm) (s : State) : Touches [.events 3] (if r.dead then s else ev 0x0315 s) s := by
  split
  · rfl
  · exact touches_ev 0x0315 s

theorem touches_killReasm (tag : Nat) (last : Bool) (r : Reasm) (s : State) :
    Touches [.frm, .events 3] (killReasm tag last r s) s := by
  simp only [killReasm]
  split
  · exact ((touches_dropReasm _ _).trans (touches_unlessDead r s)).widen rfl
  · exact ((touches_setReasm _ _ _).trans (touches_unlessDead r s)).widen rfl

theorem touches_reassemble (i : ItemIn) (s : State) : Touches deliverParts (reassemble i s) s := by
  have broken : Touches deliverParts (ev 0x0315 s) s := (touches_ev 0x0315 s).widen rfl
  simp only [reassemble]
  split
  · exact broken
  · split
    · exact touches_deliverLine _ _ _ _ s
    · split
      · split
        · exact ((touches_setReasm _ _ _).trans (touches_unlessDead _ s)).widen rfl
        · split
          · exact broken
          · exact (touches_setReasm _ _ s).widen rfl
      · split
        · exact broken
        · split
          · exact (touches_killReasm _ _ _ s).widen rfl
          · split
            · exact ((touches_deliverLine _ _ _ _ _).trans (touches_dropReasm _ s)).widen rfl
            · exact (touches_setReasm _ _ s).widen rfl

/-- An item taken leaves delineation as the framer has it. -/
theorem touches_takeItem (i : ItemIn) (s : State) : Touches deliverParts (takeItem i s) (delimited i s) := by
  rw [takeItem_eq]
  split_ifs
  · rfl
  · exact (touches_ev 0x0314 _).widen rfl
  · exact (touches_ev 0x03E0 _).widen rfl
  · split
    · split_ifs
      · exact touches_reassemble _ _
      · exact (touches_ev 0x0316 _).widen rfl
    · exact (touches_ev 0x0316 _).widen rfl

theorem channelTagItem_secondHeader (hframe : framing s = true) (hdel : s.frm.delineated = false)
    (hhcs : hcsOk i.header = true) (hfirst : s.frm.firstHdr = true) (hoff : i.offset = s.frm.offset) :
    ∃ t, exec (.channelTagItem i) s = .next t ∧ t.frm.delineated = true := by
  let s1 : State := { s with frm := { s.frm with delineated := true, firstHdr := false } }
  have hrow : exec (.channelTagItem i) s = execChannelTagItem i s := rfl
  have hexec : exec (.channelTagItem i) s = done s (takeItem i s1) := by
    rw [hrow, execChannelTagItem, if_neg (by simp [hframe]), if_neg (by simp [hdel]), if_neg (by simp [hhcs]),
      if_pos (by simp [hfirst, hoff])]
  obtain ⟨t, ht, htouch⟩ := next_touches hexec
  have hsync : Touches (.events 9 :: deliverParts) t (delimited i s1) := (htouch.trans (touches_takeItem i s1)).widen rfl
  exact ⟨t, ht, by rw [hsync.sync rfl]; rfl⟩

/-- In delineation, an item whose header checks is taken. -/
theorem exec_channelTagItem (hframe : framing s = true) (hdel : s.frm.delineated = true) (hoff : i.offset = s.frm.offset)
    (hhcs : hcsOk i.header = true) : exec (.channelTagItem i) s = done s (takeItem i s) := by
  have hrow : exec (.channelTagItem i) s = execChannelTagItem i s := rfl
  rw [hrow, execChannelTagItem, if_neg (by simp [hframe]), if_pos hdel, if_neg (by simp [hoff]), if_pos hhcs]

theorem channelTagItem_idle (hframe : framing s = true) (hdel : s.frm.delineated = true) (hoff : i.offset = s.frm.offset)
    (hhcs : hcsOk i.header = true) (hidle : fld i.header 63 44 = 0xFFFFF) :
    Becomes (.channelTagItem i) s { s with frm := { s.frm with
      offset := i.offset + itemUnits i.header, openTag := if bit i.header 28 then none else some 0xFFFFF } } := by
  refine becomes_of_exec_eq_done (u := delimited i s) ?_ ?_
  · rw [exec_channelTagItem hframe hdel hoff hhcs, takeItem_eq, if_pos hidle]
  · rw [delimited, hidle]

theorem channelTagItem_noEntry (hframe : framing s = true) (hdel : s.frm.delineated = true) (hoff : i.offset = s.frm.offset)
    (hhcs : hcsOk i.header = true) (htag : fld i.header 63 44 ≠ 0xFFFFF) (hcls : fld i.header 26 24 < 4) (hon : on s 40 = true)
    (hentry : tagEntry s (fld i.header 63 44) = none) :
    BecomesCounting (.channelTagItem i) 0x0316 0 s (delimited i s) := by
  have hentry' : tagEntry (delimited i s) (fld i.header 63 44) = none := hentry
  have hon' : on (delimited i s) 40 = true := hon
  refine becomesCounting_ev_after ?_ (touches_frm s _) (by decide) rfl rfl
  rw [exec_channelTagItem hframe hdel hoff hhcs, takeItem_eq, if_neg htag, if_neg (by omega), if_neg (by simp [hon']), hentry']

theorem reassemble_first {s : State} (hcls : fld i.header 26 24 ≤ 1) (hfirst : bit i.header 29 = true)
    (hlast : bit i.header 28 = false) (hnew : mfind s.frm.reasm (fld i.header 63 44) = none) (hroom : s.frm.reasm.length < 256) :
    reassemble i s = setReasm (fld i.header 63 44)
      (newReasm s i (clsOf (fld i.header 26 24)) (pad (fld i.header 43 30) i.content)) s := by
  have hkind : ¬ ((clsOf (fld i.header 26 24) = .timed ∨ clsOf (fld i.header 26 24) = .control) ∧
      (!(bit i.header 29 && bit i.header 28)) = true) := by
    rintro ⟨h, -⟩
    unfold clsOf at h
    split_ifs at h <;> simp at h <;> omega
  simp only [reassemble]
  rw [if_neg hkind, if_neg (by simp [hlast]), if_pos hfirst, hnew]
  exact if_neg (by omega)

theorem channelTagItem_fragment {e : Word} (hframe : framing s = true) (hdel : s.frm.delineated = true)
    (hoff : i.offset = s.frm.offset) (hhcs : hcsOk i.header = true) (htag : fld i.header 63 44 ≠ 0xFFFFF)
    (hcls : fld i.header 26 24 ≤ 1) (hon : on s 40 = true) (hentry : tagEntry s (fld i.header 63 44) = some e)
    (hdown : tagDown e = true) (hfirst : bit i.header 29 = true) (hlast : bit i.header 28 = false)
    (hnew : mfind s.frm.reasm (fld i.header 63 44) = none) (hroom : s.frm.reasm.length < 256) :
    ∃ t r, exec (.channelTagItem i) s = .next t ∧
      t.frm = { s.frm with
        offset := i.offset + itemUnits i.header, openTag := some (fld i.header 63 44)
        reasm := minsert s.frm.reasm (fld i.header 63 44) r } ∧
      r.bytes = pad (fld i.header 43 30) i.content ∧ r.epoch = bit i.header 27 ∧ r.idle = 0 ∧ r.dead = false ∧
      Agree t { s with frm := t.frm } := by
  have hentry' : tagEntry (delimited i s) (fld i.header 63 44) = some e := hentry
  have hon' : on (delimited i s) 40 = true := hon
  let r := newReasm (delimited i s) i (clsOf (fld i.header 26 24)) (pad (fld i.header 43 30) i.content)
  have hexec : exec (.channelTagItem i) s = done s (setReasm (fld i.header 63 44) r (delimited i s)) := by
    rw [exec_channelTagItem hframe hdel hoff hhcs, takeItem_eq, if_neg htag, if_neg (by omega), if_neg (by simp [hon']), hentry']
    simp only [hdown, if_true]
    rw [reassemble_first (s := delimited i s) hcls hfirst hlast hnew hroom]
  obtain ⟨t, ht, htouch⟩ := next_touches hexec
  have hall : Touches [.frm, .sync, .events 9] t s :=
    (htouch.trans ((touches_setReasm _ _ _).trans (touches_frm s _))).widen rfl
  refine ⟨t, r, ht, ?_, rfl, rfl, rfl, rfl, hall.agree⟩
  rw [htouch.frm rfl, setReasm, delimited]
  simp [hlast]

/-! ### Reassembly (R93) -/

theorem reassemblyTimeout_drops {tag : Nat} {r : Reasm} (hfind : mfind s.frm.reasm tag = some r) (hidle : 4 ≤ r.idle)
    (hlive : r.dead = false) : BecomesCounting (.reassemblyTimeout tag) 0x0315 0 s
      { s with frm := { s.frm with reasm := merase s.frm.reasm tag } } := by
  have hrow : exec (.reassemblyTimeout tag) s = execReassemblyTimeout tag s := rfl
  have hexec : exec (.reassemblyTimeout tag) s = done s (dropReasm tag (ev 0x0315 s)) := by
    simp only [hrow, execReassemblyTimeout, hfind, if_pos hidle, hlive, Bool.false_eq_true, if_false]
  have hfrm : (ev 0x0315 s).frm = s.frm := (agree_ev _ s).frm
  refine becomesCounting_of_exec_eq_done hexec { agree_ev 0x0315 s with frm := by rw [dropReasm, hfrm] }
    (counts_of_touches (touches_dropReasm tag _) (.refl [] s) rfl rfl rfl (by decide)) (by decide) (by decide)

theorem reassemblyTimeout_waits {tag : Nat} {r : Reasm} (hfind : mfind s.frm.reasm tag = some r) (hidle : r.idle < 4) :
    Becomes (.reassemblyTimeout tag) s s := by
  have hrow : exec (.reassemblyTimeout tag) s = execReassemblyTimeout tag s := rfl
  refine becomes_self ?_
  simp only [hrow, execReassemblyTimeout, hfind, if_neg (Nat.not_le.mpr hidle)]

end Items

/-- Settles O16: codewords, items by what their header says, and the timeout. -/
theorem downstreamUnits : Obligations.DownstreamUnits :=
  ⟨fun _ _ _ => codewordDecoded_clean, fun _ _ _ => codewordDecoded_corrected, fun _ _ _ => codewordDecoded_delineation,
    fun _ _ _ => codewordDecoded_circuits, fun _ _ => channelTagItem_badHcs, fun _ _ => channelTagItem_firstHeader,
    fun _ _ => channelTagItem_secondHeader, fun _ _ => channelTagItem_idle, fun _ _ => channelTagItem_noEntry,
    fun _ _ _ => channelTagItem_fragment, fun _ _ _ => reassemblyTimeout_drops, fun _ _ _ => reassemblyTimeout_waits⟩

end Sys2Proof.Machine
end

section
/-! A line frame begins with its crust (R76-R80): what the commands, grants and messages of a crust touch. -/

namespace Sys2Proof.Machine

/-! ### The crust's messages (R111-R117) -/

theorem touches_queueMsg (type : Nat) (payload : List Byte) (s : State) : Touches [.pf, .events 3] (queueMsg type payload s) s := by
  have put (x : Pf) (t : State) (ht : Touches [.events 3] t s) : Touches [.pf, .events 3] { t with pf := x } s :=
    ((touches_pf t x).trans ht).widen rfl
  simp only [queueMsg]
  split
  · exact put _ s (.refl _ s)
  · split
    · exact put _ _ (touches_ev 0x0329 s)
    · exact (touches_ev 0x0329 s).widen rfl

theorem touches_pfGo_any (new : PfSt) (fault : Bool) (s : State) : Touches (.fw :: pfParts) (pfGo new fault s) s := by
  by_cases h : new = .pf7
  · subst h
    exact touches_pfGo_pf7 fault s
  · exact (touches_pfGo h fault s).widen rfl

/-- What a crust message touches: never the framer's synchronisation, the line or the supply. -/
def messageParts : List Part := [.fw, .free, .ke, .cph, .events 0x0B] ++ pfParts

theorem touches_takeProfile (m : MsgIn) (s : State) : Touches messageParts (takeProfile m s) s := by
  unfold takeProfile
  split
  · exact (touches_ev 0x031A s).widen rfl
  · exact (touches_pf s _).widen rfl

theorem touches_takeDiscovery (m : MsgIn) (s : State) : Touches messageParts (takeDiscovery m s) s := by
  unfold takeDiscovery
  split_ifs
  · exact (touches_ev 0x031D s).widen rfl
  · exact (touches_ev 0x031A s).widen rfl
  · exact (touches_pf s _).widen rfl

theorem touches_takeAssign (m : MsgIn) (s : State) : Touches messageParts (takeAssign m s) s :=
  ((touches_pf _ _).trans ((touches_pfGo_any .pf3 false _).trans (touches_pf s _))).widen rfl

theorem touches_takeRanging (m : MsgIn) (s : State) : Touches messageParts (takeRanging m s) s := by
  have acked : Touches [.pf, .events 3] (ack m { s with pf := { s.pf with eqd := be m 4 4 } }) s :=
    ((touches_queueMsg _ _ _).trans (touches_pf s _)).widen rfl
  simp only [takeRanging]
  split_ifs
  · exact (touches_ev 0x031D s).widen rfl
  · exact ((touches_pf _ _).trans ((touches_pfGo_any .pf4 false _).trans acked)).widen rfl
  · exact acked.widen rfl

theorem touches_takeChallenge (m : MsgIn) (s : State) : Touches messageParts (takeChallenge m s) s := by
  by_cases hrej : s.pf.rejecting = true
  · rw [takeChallenge, if_pos hrej]
    exact (touches_ev 0x031A s).widen rfl
  · by_cases hsame : s.pf.nH = slice m 4 32 ∨ cipherReady s = false
    · simp only [takeChallenge, hrej, if_pos hsame]
      rfl
    · obtain ⟨hnew, hcph⟩ := not_or.mp hsame
      rw [takeChallenge_eq (by simpa using hrej) hnew (by simpa using hcph), responding]
      exact ((touches_queueMsg _ _ _).trans ((touches_pf _ _).trans ((touches_loadKey _ _ _ _).trans
        (touches_free s _)))).widen rfl

theorem touches_takeConfirm (m : MsgIn) (s : State) : Touches messageParts (takeConfirm m s) s := by
  simp only [takeConfirm]
  split
  · split_ifs
    · exact (touches_ev 0x031A s).widen rfl
    · exact ((touches_pf _ _).trans ((touches_pfGo_any .pf5 false _).trans (touches_rekeyed s))).widen rfl
    · exact ((touches_pf _ _).trans ((touches_queueMsg _ _ _).trans (touches_ev 0x031F s))).widen rfl
  · exact (touches_ev 0x031A s).widen rfl

theorem touches_retireOld (s : State) : Touches messageParts (retireOld s) s := by
  have dropped (f : List (Nat × OpenFrag)) : Touches [.up] { s with up := { s.up with frags := f } } s :=
    (touches_up s _).drop ⟨rfl, rfl⟩
  simp only [retireOld]
  split
  · rfl
  · exact ((touches_ke _ _).trans ((touches_eraseEpochKeys _ _).trans ((touches_discardFrames _ _ _).trans
      ((touches_count (e := 0x0324) _ _ (by decide)).trans (dropped _))))).widen rfl

theorem touches_retireBit (b : Bool) (s : State) : Touches messageParts (retireBit b s) s := by
  unfold retireBit
  split
  · split
    · exact touches_retireOld s
    · rfl
  · rfl

theorem touches_takeEpochKey (m : MsgIn) (s : State) : Touches messageParts (takeEpochKey m s) s := by
  have acked : Touches messageParts (ack m { s with ke := { s.ke with lastE := some (be m 4 4) } }) s :=
    ((touches_queueMsg _ _ _).trans (touches_ke s _)).widen rfl
  have ignored : Touches messageParts (ev 0x0326 s) s := (touches_ev 0x0326 s).widen rfl
  simp only [takeEpochKey]
  generalize ack m { s with ke := { s.ke with lastE := some (be m 4 4) } } = s1 at acked
  split
  · exact ignored
  · split
    all_goals
      split
      · exact ignored
      · split
        · exact ((touches_loadKey _ _ _ _).trans ((touches_ke _ _).trans acked)).widen rfl
        · split
          · exact ((touches_ke _ _).trans acked).widen rfl
          · exact ((touches_loadEpochKeys _ _).trans ((touches_loadKey _ _ _ _).trans ((touches_ke _ _).trans
              ((touches_retireBit _ _).trans acked)))).widen rfl

theorem touches_actOn (m : MsgIn) (s : State) : Touches messageParts (actOn m s) s := by
  unfold actOn
  split
  · exact touches_takeProfile m s
  · exact touches_takeDiscovery m s
  · exact touches_takeAssign m s
  · exact touches_takeRanging m s
  · exact touches_takeChallenge m s
  · exact touches_takeConfirm m s
  · exact touches_takeEpochKey m s
  · exact (touches_pfGo_any .pf1 false s).widen rfl
  · exact (touches_pfGo_any .pf7 false s).widen rfl
  · exact ((touches_pfGo_any .pf0 false _).trans (touches_saveStore _ s)).widen rfl
  · rfl

theorem touches_takeMessage (m : MsgIn) (s : State) : Touches messageParts (takeMessage m s) s := by
  unfold takeMessage
  extract_lets m type bc tid
  split
  · rfl
  · split
    · exact (touches_ev 0x031A s).widen rfl
    · split
      · exact (touches_ev 0x031B s).widen rfl
      · exact ((touches_pfFollow _).trans ((touches_actOn _ _).trans (touches_pf s _))).widen rfl

theorem touches_crustMessages (c : CrustIn) (s : State) : Touches messageParts (crustMessages c s) s :=
  Touches.foldl (fun t k _ => by
    split
    · exact touches_takeMessage _ _
    · rfl) s

/-! ### Header commands, time of day, and defects of circuits (R77, R78, R147) -/

theorem touches_setSlice (n : Nat) (x : Slice) (s : State) : Touches [.cir] (setSlice n x s) s := touches_cir s _

theorem touches_disarmSlice (s : State) (k : Nat) : Touches [.cir, .events 4] (disarmSlice s k) s := by
  simp only [disarmSlice]
  split
  · exact ((touches_ev 0x0402 _).trans ((touches_cir _ _).trans (touches_setSlice _ _ s))).widen rfl
  · rfl

theorem touches_disarmAll (s : State) : Touches [.cir, .events 4] (disarmAll s) s :=
  ((touches_cir _ _).trans (Touches.foldl (fun t k _ => touches_disarmSlice t k) s)).widen rfl

theorem touches_psAnnounce (f p : Nat) (s : State) : Touches [.cir, .events 4] (psAnnounce f p s) s := by
  simp only [psAnnounce]
  split_ifs
  · exact (touches_ev 0x0406 s).widen rfl
  · rfl
  · exact ((touches_cir _ _).trans (touches_disarmAll s)).widen rfl

theorem touches_psCommit (n f : Nat) (s : State) : Touches [.cir, .events 3] (psCommit n f s) s := by
  unfold psCommit
  split
  · exact (touches_cir s _).widen rfl
  · exact (touches_ev 0x030C s).widen rfl

theorem touches_psCancel (s : State) : Touches [.cir, .events 4] (psCancel s) s :=
  ((touches_cir _ _).trans (touches_disarmAll s)).widen rfl

theorem touches_takeKeAnnounce (f : Nat) (b : Bool) (s : State) : Touches [.ke, .events 3] (takeKeAnnounce f b s) s := by
  unfold takeKeAnnounce
  split
  · split_ifs
    · exact (touches_ev 0x03E1 s).widen rfl
    · rfl
    · exact (touches_ke s _).widen rfl
  · exact (touches_ke s _).widen rfl

theorem touches_takeKeCommit (n f : Nat) (s : State) : Touches [.ke, .events 3] (takeKeCommit n f s) s := by
  unfold takeKeCommit
  split
  · exact (touches_ke s _).widen rfl
  · exact (touches_ev 0x030C s).widen rfl

theorem touches_takeKeCancel (s : State) : Touches (.ke :: keyParts) (takeKeCancel s) s :=
  ((touches_ke (unstood s) _).trans (touches_unstood s)).widen rfl

/-- What the header commands touch. -/
def headerParts : List Part := [.cir, .ke, .events 3, .events 4] ++ keyParts

theorem touches_headerCommands (n : Nat) (c : CrustIn) (s : State) : Touches headerParts (headerCommands n c s) s := by
  have page : Touches headerParts (if be c 28 1 / 64 = 1 then psAnnounce (be c 20 4) (be c 28 1 / 32 % 2) s
      else if be c 28 1 / 64 = 2 then psCommit n (be c 20 4) s else if be c 28 1 / 64 = 3 then psCancel s else s) s := by
    split_ifs
    · exact (touches_psAnnounce _ _ s).widen rfl
    · exact (touches_psCommit _ _ s).widen rfl
    · exact (touches_psCancel s).widen rfl
    · rfl
  simp only [headerCommands]
  generalize (if be c 28 1 / 64 = 1 then psAnnounce (be c 20 4) (be c 28 1 / 32 % 2) s
    else if be c 28 1 / 64 = 2 then psCommit n (be c 20 4) s else if be c 28 1 / 64 = 3 then psCancel s else s) = s1 at page
  split_ifs
  · exact ((touches_takeKeAnnounce _ _ s1).trans page).widen rfl
  · exact ((touches_takeKeCommit _ _ s1).trans page).widen rfl
  · exact ((touches_takeKeCancel s1).trans page).widen rfl
  · exact page

theorem touches_takeSample (tod : Option (Nat × Nat × Bool)) (st : StampIn) (s : State) :
    Touches [.tmu, .events 0x0C] (takeSample tod st s) s := by
  have missed : Touches [.tmu, .events 0x0C] (ev 0x0C09 s) s := (touches_ev 0x0C09 s).widen rfl
  unfold takeSample
  split
  · rfl
  · split
    · split
      · exact ((touches_ev 0x0C08 _).trans (touches_tmu s _)).widen rfl
      · exact missed
    · exact missed

/-- What the judgement of a circuit's defects touches. -/
def circuitDefectParts : List Part := [.cir, .perf, .tin, .events 4] ++ mailParts

theorem touches_setPathDefect (c code : Nat) (was b : Bool) (f : Circuit → Circuit) (s : State) :
    Touches circuitDefectParts (setPathDefect c code was b f s) s := by
  have reported (x : Circuit) : Touches circuitDefectParts (reportDefect b (objCircuit c) code (setCirc c x s)) s :=
    ((touches_reportDefect _ _ _ _).trans (touches_setCirc _ _ _)).widen rfl
  simp only [setPathDefect]
  split
  · rfl
  · split
    · exact ((touches_markDefect _ _).trans (reported _)).widen rfl
    · exact reported _

theorem touches_judgeCircuit (s : State) (c : Nat) : Touches circuitDefectParts (judgeCircuit s c) s := by
  simp only [judgeCircuit]
  split
  · rfl
  · exact ((touches_setPathDefect _ _ _ _ _ _).trans ((touches_setPathDefect _ _ _ _ _ _).trans
      ((touches_setPathDefect _ _ _ _ _ _).trans (touches_setCirc _ _ s)))).widen rfl

theorem touches_judgeCircuits (s : State) : Touches circuitDefectParts (judgeCircuits s) s :=
  Touches.foldl (fun t c _ => touches_judgeCircuit t c) s

/-- LOF clears after eight decoded crusts in succession (R147). -/
def lofFollows (s : State) : State := if s.cir.lof && 8 ≤ s.cir.lofGood then setLof false s else s

theorem touches_lofFollows (s : State) : Touches defectParts (lofFollows s) s := by
  unfold lofFollows
  split
  · exact touches_setLof false s
  · rfl

theorem crustEnd_onLine (decoded : Bool) {s : State} (h : onLine s = true) : crustEnd decoded s = judgeCircuits
    (lofFollows { s with cir := { s.cir with lofGood := if decoded then s.cir.lofGood + 1 else 0 } }) := by
  rw [crustEnd, if_neg (by simp [h])]
  rfl

theorem touches_crustEnd (decoded : Bool) (s : State) :
    Touches (.cir :: circuitDefectParts ++ defectParts) (crustEnd decoded s) s := by
  by_cases h : onLine s = true
  · rw [crustEnd_onLine decoded h]
    exact ((touches_judgeCircuits _).trans ((touches_lofFollows _).trans (touches_cir s _))).widen rfl
  · rw [crustEnd, if_pos (by simpa using h)]

/-! ### Grants (R81-R84, R99) -/

/-- What a grant map touches. -/
def grantParts : List Part := [.up, .perf, .tin, .pf, .free, .events 3]

theorem touches_refuseEntry (frame : Nat) (s : State) (e : Entry) : Touches grantParts (refuseEntry frame s e) s := by
  simp only [refuseEntry]
  split
  · exact (touches_ev 0x030F s).widen rfl
  · exact ((touches_gsErrored _ _ _).trans (touches_ev 0x030F s)).widen rfl

theorem touches_answerDiscovery (span window : Nat) (s : State) : Touches grantParts (answerDiscovery span window s).2 s := by
  unfold answerDiscovery
  split_ifs
  · exact (touches_pf s _).widen rfl
  · exact (touches_ev 0x030F s).widen rfl
  · exact ((touches_pf _ _).trans ((touches_free _ _).trans (touches_free s _))).widen rfl

theorem touches_grants (s : State) (g : List Grant) (d : Map Nat) (l : List Nat) :
    Touches [.up] { s with up := { s.up with grants := g, granted := d, shortGrant := l } } s :=
  (touches_up s _).drop ⟨rfl, rfl⟩

theorem touches_storeGrant (frame r : Nat) (e : Entry) (s : State) : Touches grantParts (storeGrant frame r e s) s := by
  unfold storeGrant
  extract_lets p base g buildAt
  split
  · split
    · exact (touches_ev 0x0310 s).widen rfl
    · exact ((touches_gsErrored _ _ _).trans (touches_ev 0x0310 s)).widen rfl
  · split
    · split
      · rfl
      · exact (touches_gsErrored _ _ s).widen rfl
    · split
      · exact (touches_grants s _ _ _).widen rfl
      · exact ((touches_gsBlock _ _ _).trans (touches_grants s _ _ _)).widen rfl

theorem touches_useEntry (frame : Nat) (s : State) (e : Entry) : Touches grantParts (useEntry frame s e) s := by
  simp only [useEntry]
  split
  · have answered := touches_answerDiscovery (proofingSpan (256 * ((e.profile s).getD { n := 4, levels := 0 }).n))
      (11250 * e.length) s
    split
    next heq =>
      rw [heq] at answered
      exact ((touches_storeGrant _ _ _ _).trans answered).widen rfl
    next heq =>
      rw [heq] at answered
      exact answered
  · exact touches_storeGrant _ _ _ s

theorem touches_takeGrants (s0 : State) (n : Nat) (c : CrustIn) (s : State) : Touches grantParts (takeGrants s0 n c s) s := by
  have refused (l : List Entry) (t : State) : Touches grantParts (l.foldl (refuseEntry ((n + 2) % 2 ^ 32)) t) t :=
    Touches.foldl (fun u e _ => touches_refuseEntry _ u e) t
  have used (l : List Entry) (t : State) : Touches grantParts (l.foldl (useEntry ((n + 2) % 2 ^ 32)) t) t :=
    Touches.foldl (fun u e _ => touches_useEntry _ u e) t
  exact ((used _ _).trans ((refused _ _).trans ((refused _ _).trans (touches_count (e := 0x030E) _ s (by decide))))).widen rfl

end Sys2Proof.Machine
end

section
/-! CRUST_TAKEN (R76, R80): the line frame that begins, whether its crust is decoded or not. -/

namespace Sys2Proof.Machine

section Crust
variable {s : State} {st : StampIn}

theorem touches_dsTake (e n : Nat) (s : State) : Touches [.cir] (dsTake e n s) s := by
  simp only [dsTake, setDs]
  split
  · exact touches_cir s _
  · exact touches_setCirc _ _ s

theorem touches_rei (s : State) (n : Nat) : Touches [.up] { s with up := { s.up with rei := n } } s :=
  (touches_up s _).drop ⟨rfl, rfl⟩

theorem touches_compareBip (sent : BitVec 32) (s : State) :
    Touches [.up, .cir, .perf, .tin, .events 3] (compareBip sent s) s := by
  have counted (n : Nat) (u : State) : Touches [.up, .events 3] { count 0x030D 0 n u with up := { (count 0x030D 0 n u).up with
      rei := min 0xFFFF ((count 0x030D 0 n u).up.rei + n) } } u :=
    ((touches_rei _ _).trans (touches_count (e := 0x030D) n u (by decide))).widen rfl
  unfold compareBip
  split
  · extract_lets e s1
    split
    · exact ((touches_perfBlock _ _ _ _).trans ((touches_dsTake _ _ _).trans (counted e s))).widen rfl
    · exact (touches_count (e := 0x030D) e s (by decide)).widen rfl
  · rfl

/-- In a loop the comparison is counted, and no more. -/
theorem touches_compareBip_loop (sent : BitVec 32) (h : onLine s = false) : Touches [.events 3] (compareBip sent s) s := by
  unfold compareBip
  split
  · extract_lets e s1
    rw [if_neg (by rw [h]; decide)]
    exact touches_count (e := 0x030D) e s (by decide)
  · rfl

theorem touches_beginFrame (n : Nat) (decoded : Bool) (region : Nat) (st : StampIn) (s : State) :
    Touches [.frm, .sync, .ke, .pf, .up] (beginFrame n decoded region st s) s := by
  have begun : Touches [.frm, .sync, .ke, .pf, .up, .air] (beginFrame n decoded region st s) s :=
    touches_overlay [.frm, .sync, .ke, .pf, .up, .air] (beginFrame n decoded region st s) s (by decide) (by decide) (by decide)
      (by decide)
  intro p hp
  by_cases hair : p = .air
  · subst hair
    exact ⟨rfl, rfl⟩
  · exact begun p (by simp [hair] at hp ⊢; exact hp)

/-- What is counted of a crust before its frame begins: a jump of the frame number, bad fields, the section's BIP-32. -/
def crustCounted (c : CrustIn) (s : State) : State :=
  compareBip (BitVec.ofNat 32 (be c 14 4)) (count 0x030B 0
    (b2n (128 < be c 18 1 || (128 ≤ be c 30 1 && be c 30 1 ≤ 254)) + b2n (128 ≤ be c 29 1 && 999999999 < be c 10 4))
    (if s.frm.haveFrame && be c 0 4 != (s.frm.frame.toNat + 1) % 2 ^ 32 then ev 0x0307 s else s))

/-- The frame that the crust begins. -/
def crustBegun (c : CrustIn) (st : StampIn) (s : State) : State :=
  beginFrame (be c 0 4) true (be c 32 3 % 2 ^ 17) st (crustCounted c s)

/-- A region that is not the active page's is counted. -/
def regionCounted (s : State) : State := if s.frm.region = pageRegion s then s else ev 0x0311 s

/-- What a decoded crust does on the line. -/
def crustActed (c : CrustIn) (st : StampIn) (s : State) : State :=
  crustEnd true (crustMessages c
    (if 128 < be c 18 1 || (128 ≤ be c 30 1 && be c 30 1 ≤ 254) then headerCommands (be c 0 4) c (takeSample (todOf c) st s)
      else takeGrants s (be c 0 4) c (headerCommands (be c 0 4) c (takeSample (todOf c) st s))))

theorem decodedCrust_eq (c : CrustIn) (st : StampIn) (s : State) : decodedCrust c st s =
    if onLine (regionCounted (crustBegun c st s)) then crustActed c st (regionCounted (crustBegun c st s))
    else regionCounted (crustBegun c st s) := rfl

theorem touches_jumpCounted (b : Bool) (s : State) : Touches [.events 3] (if b then ev 0x0307 s else s) s := by
  split
  · exact touches_ev 0x0307 s
  · rfl

theorem touches_crustCounted (c : CrustIn) (s : State) : Touches [.up, .cir, .perf, .tin, .events 3] (crustCounted c s) s :=
  ((touches_compareBip _ _).trans ((touches_count (e := 0x030B) _ _ (by decide)).trans (touches_jumpCounted _ s))).widen rfl

theorem touches_regionCounted (s : State) : Touches [.events 3] (regionCounted s) s := by
  unfold regionCounted
  split
  · rfl
  · exact touches_ev 0x0311 s

/-- What a crust touches once its frame has begun: never the framer's synchronisation, the line or the supply. -/
def actedParts : List Part := [.mbx, .fw, .frm, .pf, .ke, .up, .cir, .perf, .cnt, .tmu, .prs, .flw, .sch, .adm, .prt, .cph,
  .dma, .tin, .free, .air, .events 2, .events 3, .events 4, .events 5, .events 8, .events 0x0A, .events 0x0B, .events 0x0C,
  .events 0x0E]

theorem touches_crustActed (c : CrustIn) (st : StampIn) (s : State) : Touches actedParts (crustActed c st s) s := by
  have sampled : Touches actedParts (takeSample (todOf c) st s) s := (touches_takeSample _ _ s).widen rfl
  have header (t : State) : Touches actedParts (headerCommands (be c 0 4) c t) t := (touches_headerCommands _ _ t).widen rfl
  have granted (t : State) : Touches actedParts (takeGrants s (be c 0 4) c t) t := (touches_takeGrants _ _ _ t).widen rfl
  have told (t : State) : Touches actedParts (crustMessages c t) t := (touches_crustMessages c t).widen rfl
  have ended (t : State) : Touches actedParts (crustEnd true t) t := (touches_crustEnd true t).widen rfl
  unfold crustActed
  refine ((ended _).trans ((told _).trans (m := actedParts) ?_)).widen rfl
  split
  · exact ((header _).trans sampled).widen rfl
  · exact ((granted _).trans ((header _).trans sampled)).widen rfl

/-- What a decoded crust has begun is not undone by what it brings. -/
theorem touches_decodedCrust (c : CrustIn) (st : StampIn) (s : State) :
    Touches (.events 3 :: actedParts) (decodedCrust c st s) (crustBegun c st s) := by
  rw [decodedCrust_eq]
  split
  · exact ((touches_crustActed _ _ _).trans (touches_regionCounted _)).widen rfl
  · exact (touches_regionCounted _).widen rfl

/-! ### Decoded -/

/-- The crust processor takes a crust whose CRC-32 is right. -/
theorem exec_crustTaken_decoded {c : CrustIn} (hframe : framing s = true) (hon : on s 13 = true) (hcrc : crustCrcOk c = true) :
    exec (.crustTaken (some c) st) s = done s (decodedCrust c st s) := by
  have hrow : exec (.crustTaken (some c) st) s = execCrustTaken (some c) st s := rfl
  rw [hrow, execCrustTaken, if_neg (by simp [hframe]), if_neg (by simp [hon])]
  exact if_pos hcrc

theorem crustTaken_decoded {c : CrustIn} (hframe : framing s = true) (hon : on s 13 = true) (hcrc : crustCrcOk c = true) :
    ∃ t, exec (.crustTaken (some c) st) s = .next t ∧ t.frm.frame = BitVec.ofNat 32 (be c 0 4) ∧ t.frm.haveFrame = true ∧
      t.frm.crustOk = true ∧ t.frm.region = be c 32 3 % 2 ^ 17 ∧ t.frm.delineated = true ∧ t.frm.offset = 0 ∧ t.frm.units = 0 ∧
      t.frm.bip = 0 ∧ t.frm.rxNs = st.ns ∧ t.pwr = s.pwr ∧ t.line = s.line := by
  obtain ⟨t, ht, htouch⟩ := next_touches (exec_crustTaken_decoded hframe hon hcrc)
  have hbegun : Touches (.events 9 :: .events 3 :: actedParts) t (crustBegun c st s) :=
    (htouch.trans (touches_decodedCrust c st s)).widen rfl
  have hall : Touches (.frm :: .sync :: .events 9 :: .events 3 :: actedParts) t s :=
    (hbegun.trans ((touches_beginFrame _ _ _ _ _).trans (touches_crustCounted c s))).widen rfl
  have hfrm := hbegun.sync rfl
  refine ⟨t, ht, ?_, ?_, ?_, ?_, ?_, ?_, ?_, ?_, ?_, hall.pwr rfl, hall.line rfl⟩
  all_goals
    rw [hfrm]
    rfl

/-- In a loop the frame begins, and nothing is acted on. -/
theorem crustTaken_loop {c : CrustIn} (hframe : framing s = true) (hon : on s 13 = true) (hcrc : crustCrcOk c = true)
    (hloop : s.line.loop.isSome = true) : ∃ t, exec (.crustTaken (some c) st) s = .next t ∧ t.pf.st = s.pf.st ∧
      t.cir = s.cir ∧ t.tmu = s.tmu ∧ t.up.grants = s.up.grants := by
  obtain ⟨t, ht, htouch⟩ := next_touches (exec_crustTaken_decoded (st := st) hframe hon hcrc)
  have hcounts : Touches [.events 3] (count 0x030B 0
      (b2n (128 < be c 18 1 || (128 ≤ be c 30 1 && be c 30 1 ≤ 254)) + b2n (128 ≤ be c 29 1 && 999999999 < be c 10 4))
      (if s.frm.haveFrame && be c 0 4 != (s.frm.frame.toNat + 1) % 2 ^ 32 then ev 0x0307 s else s)) s :=
    ((touches_count (e := 0x030B) _ _ (by decide)).trans (touches_jumpCounted _ s)).widen rfl
  have hoff {u : State} {l : List Part} (h : Touches l u s) (hl : l.contains .line = false) : onLine u = false := by
    rw [onLine, h.line hl]
    simpa using hloop
  have hcounted : Touches [.events 3] (crustCounted c s) s :=
    ((touches_compareBip_loop _ (hoff hcounts rfl)).trans hcounts).widen rfl
  have hregion : Touches [.events 3, .frm, .sync, .ke, .pf, .up] (regionCounted (crustBegun c st s)) s :=
    ((touches_regionCounted _).trans ((touches_beginFrame _ _ _ _ _).trans hcounted)).widen rfl
  rw [decodedCrust_eq, if_neg (by simp [hoff hregion rfl])] at htouch
  have hbegun : Touches [.events 9, .events 3] t (crustBegun c st s) := (htouch.trans (touches_regionCounted _)).widen rfl
  have hall : Touches [.events 9, .events 3, .frm, .sync, .ke, .pf, .up] t s := (htouch.trans hregion).widen rfl
  refine ⟨t, ht, ?_, hall.cir rfl, hall.tmu rfl, ?_⟩
  · rw [hbegun.pf rfl]
    exact (congrArg Pf.st (hcounted.pf rfl) : (crustCounted c s).pf.st = s.pf.st)
  · rw [hbegun.up rfl]
    exact (congrArg Up.grants (hcounted.up rfl) : (crustCounted c s).up.grants = s.up.grants)

/-! ### Not decoded -/

/-- The frame that begins without its crust. -/
def undecodedBegun (st : StampIn) (s : State) : State :=
  beginFrame (s.frm.frame.toNat + 1) false (pageRegion s) st (ev 0x030A s)

theorem grants_markLineFault (s : State) : (markLineFault s).up.grants = s.up.grants := rfl

/-- An undecoded crust declares no end of LOF. -/
theorem touches_crustEnd_undecoded (s : State) : Touches circuitDefectParts (crustEnd false s) s := by
  by_cases h : onLine s = true
  · have hlof : lofFollows { s with cir := { s.cir with lofGood := 0 } } = { s with cir := { s.cir with lofGood := 0 } } :=
      if_neg (by simp)
    rw [crustEnd_onLine false h]
    simp only [Bool.false_eq_true, if_false, hlof]
    exact ((touches_judgeCircuits _).trans (touches_cir s _)).widen rfl
  · rw [crustEnd, if_pos (by simpa using h)]

/-- On the line, the packets in flight are marked and the sample of module time is missed. -/
def faultMarked (line : Bool) (st : StampIn) (s : State) : State := if line then takeSample none st (markLineFault s) else s

theorem undecodedCrust_eq (st : StampIn) (s : State) :
    undecodedCrust st s = crustEnd false (faultMarked (onLine s) st (undecodedBegun st s)) := rfl

theorem touches_faultMarked (line : Bool) (st : StampIn) (s : State) :
    Touches (.tmu :: .events 0x0C :: heldParts) (faultMarked line st s) s := by
  unfold faultMarked
  split
  · exact ((touches_takeSample _ _ _).trans (touches_markLineFault s)).widen rfl
  · rfl

theorem grants_faultMarked (line : Bool) (st : StampIn) (s : State) : (faultMarked line st s).up.grants = s.up.grants := by
  unfold faultMarked
  split
  · rw [(touches_takeSample _ _ _).up rfl, grants_markLineFault]
  · rfl

theorem exec_crustTaken_undecoded {c : Option CrustIn} (hframe : framing s = true) (hon : on s 13 = true)
    (hcrc : ∀ x, c = some x → crustCrcOk x = false) : exec (.crustTaken c st) s = done s (undecodedCrust st s) := by
  have hrow : exec (.crustTaken c st) s = execCrustTaken c st s := rfl
  cases c with
  | none => rw [hrow, execCrustTaken, if_neg (by simp [hframe]), if_neg (by simp [hon])]
  | some x =>
    rw [hrow, execCrustTaken, if_neg (by simp [hframe]), if_neg (by simp [hon])]
    exact if_neg (by simp [hcrc x rfl])

theorem crustTaken_undecoded {c : Option CrustIn} (hframe : framing s = true) (hon : on s 13 = true)
    (hcrc : ∀ x, c = some x → crustCrcOk x = false) : ∃ t, exec (.crustTaken c st) s = .next t ∧
      t.frm.frame = BitVec.ofNat 32 (s.frm.frame.toNat + 1) ∧ t.frm.crustOk = false ∧ t.frm.region = pageRegion s ∧
      t.frm.delineated = true ∧ t.pf.st = s.pf.st ∧ t.up.grants = s.up.grants ∧ t.pwr = s.pwr ∧ t.line = s.line := by
  obtain ⟨t, ht, htouch⟩ := next_touches ((exec_crustTaken_undecoded (st := st) hframe hon hcrc).trans
    (congrArg (done s) (undecodedCrust_eq st s)))
  have hafter : Touches (.events 9 :: circuitDefectParts) t (faultMarked (onLine s) st (undecodedBegun st s)) :=
    (htouch.trans (touches_crustEnd_undecoded _)).widen rfl
  have hmarked := touches_faultMarked (onLine s) st (undecodedBegun st s)
  have hbegun : Touches ([.events 9, .tmu, .events 0x0C] ++ circuitDefectParts ++ heldParts) t (undecodedBegun st s) :=
    (hafter.trans hmarked).widen rfl
  have hev := touches_ev 0x030A s
  have hall : Touches ([.events 9, .tmu, .events 0x0C, .frm, .sync, .ke, .pf, .up, .events 3] ++ circuitDefectParts ++ heldParts)
      t s := (hbegun.trans ((touches_beginFrame _ _ _ _ _).trans hev)).widen rfl
  have hfrm := hbegun.sync rfl
  refine ⟨t, ht, by rw [hfrm]; rfl, by rw [hfrm]; rfl, by rw [hfrm]; rfl, by rw [hfrm]; rfl, ?_, ?_, hall.pwr rfl, hall.line rfl⟩
  · rw [hbegun.pf rfl]
    exact (congrArg Pf.st (hev.pf rfl) : (ev 0x030A s).pf.st = s.pf.st)
  · rw [hafter.up rfl, grants_faultMarked]
    exact (congrArg Up.grants (hev.up rfl) : (ev 0x030A s).up.grants = s.up.grants)

theorem crustTaken_noSync {c : Option CrustIn} (h : framing s = false) : Becomes (.crustTaken c st) s s :=
  becomes_self (if_pos (by simp [h]))

end Crust

/-- Settles O17: a crust is decoded or not, on the line or in a loop. -/
theorem lineFrameBegins : Obligations.LineFrameBegins :=
  ⟨fun _ _ _ => crustTaken_decoded, fun _ _ _ => crustTaken_undecoded, fun _ _ _ => crustTaken_loop,
    fun _ _ _ => crustTaken_noSync⟩

end Sys2Proof.Machine
end

section
/-! The page switch (R143-R147). -/

namespace Sys2Proof.Machine

/-! ### Circuits and slices -/

@[simp] theorem circ_setCirc_same (c : Nat) (x : Circuit) (s : State) : circ (setCirc c x s) c = x := mget_mput_same _ _ _ _

theorem circ_setCirc_of_ne {c d : Nat} (h : d ≠ c) (x : Circuit) (s : State) : circ (setCirc c x s) d = circ s d :=
  mget_mput_of_ne _ _ _ h

@[simp] theorem slice'_setSlice_same (k : Nat) (x : Slice) (s : State) : slice' (setSlice k x s) k = x := mget_mput_same _ _ _ _

theorem slice'_setSlice_of_ne {k j : Nat} (h : j ≠ k) (x : Slice) (s : State) : slice' (setSlice k x s) j = slice' s j :=
  mget_mput_of_ne _ _ _ h

/-- What holds the circuits is the same, so each circuit is. -/
theorem Touches.circ {l : List Part} {t s : State} (h : Touches l t s) (hl : l.contains .cir = false) (c : Nat) :
    circ t c = Machine.circ s c := by
  simp only [Machine.circ, h.cir hl]

theorem Touches.slice' {l : List Part} {t s : State} (h : Touches l t s) (hl : l.contains .cir = false) (k : Nat) :
    slice' t k = Machine.slice' s k := by
  simp only [Machine.slice', h.cir hl]

/-- Pages and switches are the same; circuits and the section's DS window may differ. -/
def Paged (t s : State) : Prop := t.cir = { s.cir with circuits := t.cir.circuits, ds := t.cir.ds }

namespace Paged
variable {s t u : State}

@[refl] protected theorem refl (s : State) : Paged s s := rfl

protected theorem trans (h : Paged t u) (k : Paged u s) : Paged t s := by
  unfold Paged at *
  rw [h, k]

theorem foldl {α : Type} {f : State → α → State} (hf : ∀ t a, Paged (f t a) t) (l : List α) (s : State) : Paged (l.foldl f s) s :=
  List.foldlRecOn (motive := (Paged · s)) l f (.refl s) fun t ht a _ => (hf t a).trans ht

theorem of_touches {l : List Part} (h : Touches l t s) (hl : l.contains .cir = false) : Paged t s := by
  rw [Paged, h.cir hl]

end Paged

theorem paged_setCirc (c : Nat) (x : Circuit) (s : State) : Paged (setCirc c x s) s := rfl

theorem paged_setDs (e : Nat) (x : Ds) (s : State) : Paged (setDs e x s) s := by
  unfold setDs
  split
  · rfl
  · exact paged_setCirc _ _ s

theorem paged_setPathDefect (c code : Nat) (was b : Bool) (f : Circuit → Circuit) (s : State) :
    Paged (setPathDefect c code was b f s) s := by
  have reported (x : Circuit) : Paged (reportDefect b (objCircuit c) code (setCirc c x s)) s :=
    (Paged.of_touches (touches_reportDefect _ _ _ _) rfl).trans (paged_setCirc c x s)
  simp only [setPathDefect]
  split
  · rfl
  · split
    · exact (Paged.of_touches (touches_markDefect _ _) rfl).trans (reported _)
    · exact reported _

theorem paged_setAbort (c : Nat) (b : Bool) (s : State) : Paged (setAbort c b s) s := paged_setPathDefect _ _ _ _ _ s

theorem paged_clearAborts (s : State) : Paged (clearAborts s) s := Paged.foldl (fun t c => paged_setAbort c false t) _ s

/-- The abort defect of one circuit is set, that of no other. -/
theorem abort_setAbort (c : Nat) (b : Bool) (s : State) :
    (circ (setAbort c b s) c).abort = b ∧ ∀ d, d ≠ c → circ (setAbort c b s) d = circ s d := by
  simp only [setAbort, setPathDefect]
  split
  next h => exact ⟨h, fun _ _ => rfl⟩
  next =>
    have reported (d : Nat) (x : Circuit) : circ (reportDefect b (objCircuit c) 6 (setCirc c x s)) d = circ (setCirc c x s) d :=
      (touches_reportDefect b (objCircuit c) 6 (setCirc c x s)).circ rfl d
    have marked (d : Nat) (t : State) : circ (markDefect t (objCircuit c)) d = circ t d := (touches_markDefect t _).circ rfl d
    split
    · exact ⟨by rw [marked, reported, circ_setCirc_same],
        fun d hd => by rw [marked, reported, circ_setCirc_of_ne hd]⟩
    · exact ⟨by rw [reported, circ_setCirc_same], fun d hd => by rw [reported, circ_setCirc_of_ne hd]⟩

theorem abort_foldl_setAbort (b : Bool) (l : List Nat) (s : State) (c : Nat) (h : c ∈ l ∨ (circ s c).abort = b) :
    (circ (l.foldl (fun t c => setAbort c b t) s) c).abort = b := by
  induction l generalizing s with
  | nil => exact h.resolve_left List.not_mem_nil
  | cons d r ih =>
    refine ih (setAbort d b s) ?_
    obtain ⟨hset, hother⟩ := abort_setAbort d b s
    by_cases hcd : c = d
    · exact .inr (hcd ▸ hset)
    · rw [hother c hcd]
      exact h.imp_left fun hmem => (List.mem_cons.mp hmem).resolve_left hcd

/-! ### Disarming (R146) -/

/-- The slice and the module without their arming. -/
def unarmed (k : Nat) (s : State) : State :=
  { setSlice k { slice' s k with armed := false } s with
    cir := { (setSlice k { slice' s k with armed := false } s).cir with moduleArmed := false } }

theorem disarmSlice_eq (s : State) (k : Nat) :
    disarmSlice s k = if (slice' s k).armed then ev 0x0402 (unarmed k s) else s := rfl

theorem slice'_unarmed (k j : Nat) (s : State) : slice' (unarmed k s) j =
    if j = k then { slice' s k with armed := false } else slice' s j := by
  have hset : slice' (unarmed k s) j = slice' (setSlice k { slice' s k with armed := false } s) j := rfl
  rw [hset]
  split
  next hj => rw [hj, slice'_setSlice_same]
  next hj => rw [slice'_setSlice_of_ne hj]

/-- Disarming keeps everything of the circuits' state but the arming. -/
structure Disarmed (t s : State) : Prop where
  cir : t.cir = { s.cir with slices := t.cir.slices, moduleArmed := t.cir.moduleArmed }
  slices : ∀ k, (slice' t k).page0 = (slice' s k).page0 ∧ (slice' t k).page1 = (slice' s k).page1 ∧
    (slice' t k).sealed = (slice' s k).sealed

theorem Disarmed.trans {t u s : State} (h : Disarmed t u) (k : Disarmed u s) : Disarmed t s where
  cir := by rw [h.cir, k.cir]
  slices j := by
    obtain ⟨h0, h1, hseal⟩ := h.slices j
    obtain ⟨k0, k1, kseal⟩ := k.slices j
    exact ⟨h0.trans k0, h1.trans k1, hseal.trans kseal⟩

theorem disarmed_unarmed (k : Nat) (s : State) : Disarmed (unarmed k s) s where
  cir := rfl
  slices j := by
    rw [slice'_unarmed]
    split
    next hj => subst hj; exact ⟨rfl, rfl, rfl⟩
    next => exact ⟨rfl, rfl, rfl⟩

theorem Disarmed.of_touches {l : List Part} {t s : State} (h : Touches l t s) (hl : l.contains .cir = false) : Disarmed t s where
  cir := by rw [h.cir hl]
  slices k := by rw [h.slice' hl]; exact ⟨rfl, rfl, rfl⟩

theorem disarmed_disarmSlice (s : State) (k : Nat) : Disarmed (disarmSlice s k) s := by
  rw [disarmSlice_eq]
  split
  · exact (Disarmed.of_touches (touches_ev 0x0402 _) rfl).trans (disarmed_unarmed k s)
  · exact .of_touches (.refl [] s) rfl

theorem disarmed_foldl (l : List Nat) (s : State) : Disarmed (l.foldl disarmSlice s) s :=
  List.foldlRecOn (motive := (Disarmed · s)) l disarmSlice (.of_touches (.refl [] s) rfl)
    fun t ht k _ => (disarmed_disarmSlice t k).trans ht

theorem Disarmed.unarm {t s : State} (h : Disarmed t s) :
    Disarmed { t with cir := { t.cir with moduleArmed := false } } s where
  cir := by
    have hcir := h.cir
    generalize t.cir = x at hcir ⊢
    rw [hcir]
  slices := h.slices

theorem disarmed_disarmAll (s : State) : Disarmed (disarmAll s) s := (disarmed_foldl _ s).unarm

section PageSwitch
variable {s : State}

theorem psAnnounce_announces {f p : Nat} (hcrust : crustUsed s = true) (hp : p ≠ s.cir.active)
    (hnew : s.cir.announce ≠ some (f, p)) : ∃ t, exec (.psAnnounce f p) s = .next t ∧ t.cir.announce = some (f, p) ∧
      t.cir.commit = none ∧ t.cir.moduleArmed = false ∧ t.cir.active = s.cir.active ∧ Agree t { s with cir := t.cir } := by
  have hw : psAnnounce f p s = { disarmAll s with cir := { (disarmAll s).cir with announce := some (f, p), commit := none } } := by
    rw [psAnnounce, if_neg hp, if_neg hnew]
  obtain ⟨t, ht, htouch⟩ := next_touches (c := .psAnnounce f p) (s := s) (u := psAnnounce f p s) (if_pos hcrust)
  have hall : Touches [.cir, .events 4, .events 9] t s := (htouch.trans (touches_psAnnounce f p s)).widen rfl
  have hcir : t.cir = { (disarmAll s).cir with announce := some (f, p), commit := none } := by rw [htouch.cir rfl, hw]
  refine ⟨t, ht, by rw [hcir], by rw [hcir], by rw [hcir]; rfl, ?_, hall.agree⟩
  rw [hcir, (disarmed_disarmAll s).cir]

theorem psAnnounce_active {f : Nat} (hcrust : crustUsed s = true) :
    BecomesCounting (.psAnnounce f s.cir.active) 0x0406 0 s s := by
  have hexec : exec (.psAnnounce f s.cir.active) s = done s (psAnnounce f s.cir.active s) := if_pos hcrust
  exact becomesCounting_ev (hexec.trans (congrArg (done s) (if_pos rfl))) (by decide)

theorem psCommit_commits {n f : Nat} (hcrust : crustUsed s = true) (hframe : (n + 2) % 2 ^ 32 = f % 2 ^ 32) :
    Becomes (.psCommit n f) s { s with cir := { s.cir with
      commit := some (f % 2 ^ 32), refuseUntil := some ((f + 1) % 2 ^ 32) } } := by
  have hexec : exec (.psCommit n f) s = done s (psCommit n f s) := if_pos hcrust
  exact becomes_of_exec_eq_done (hexec.trans (congrArg (done s) (if_pos hframe))) (.refl _)

theorem psCommit_otherFrame {n f : Nat} (hcrust : crustUsed s = true) (hframe : (n + 2) % 2 ^ 32 ≠ f % 2 ^ 32) :
    BecomesCounting (.psCommit n f) 0x030C 0 s s := by
  have hexec : exec (.psCommit n f) s = done s (psCommit n f s) := if_pos hcrust
  exact becomesCounting_ev (hexec.trans (congrArg (done s) (if_neg hframe))) (by decide)

theorem psCancel_cancels (hcrust : crustUsed s = true) : ∃ t, exec .psCancel s = .next t ∧ t.cir.announce = none ∧
    t.cir.commit = none ∧ t.cir.moduleArmed = false ∧ t.cir.active = s.cir.active ∧ t.cir.switchAt = s.cir.switchAt ∧
    (∀ k, (slice' t k).page0 = (slice' s k).page0 ∧ (slice' t k).page1 = (slice' s k).page1 ∧
      (slice' t k).sealed = (slice' s k).sealed) ∧ Agree t { s with cir := t.cir } := by
  obtain ⟨t, ht, htouch⟩ := next_touches (c := .psCancel) (s := s) (u := psCancel s) (if_pos hcrust)
  have hall : Touches [.cir, .events 4, .events 9] t s := (htouch.trans (touches_psCancel s)).widen rfl
  have hcir : t.cir = { (disarmAll s).cir with announce := none, commit := none } := htouch.cir rfl
  have hslice (k : Nat) : slice' t k = slice' (disarmAll s) k := by simp only [slice', hcir]
  refine ⟨t, ht, by rw [hcir], by rw [hcir], by rw [hcir]; rfl, ?_, ?_, fun k => ?_, hall.agree⟩
  · rw [hcir, (disarmed_disarmAll s).cir]
  · rw [hcir, (disarmed_disarmAll s).cir]
  · rw [hslice]
    exact (disarmed_disarmAll s).slices k

/-! ### Arming (R143, R145) -/

/-- One slice of the set is armed. -/
def armSlice (s t : State) (k : Nat) : State :=
  if on s (19 + k) && (slice' t k).sealed && (slice' t k).valid then setSlice k { slice' t k with armed := true } t else t

/-- Slices that are ON, sealed and valid are armed one by one, and no other. -/
theorem slice'_foldl_armSlice (l : List Nat) (t : State)
    (h : ∀ k ∈ l, on s (19 + k) = true ∧ (slice' t k).sealed = true ∧ (slice' t k).valid = true) (j : Nat) :
    slice' (l.foldl (armSlice s) t) j = if j ∈ l then { slice' t j with armed := true } else slice' t j := by
  induction l generalizing t with
  | nil => rfl
  | cons k r ih =>
    obtain ⟨hon, hseal, hvalid⟩ := h k List.mem_cons_self
    have harm : armSlice s t k = setSlice k { slice' t k with armed := true } t := if_pos (by simp [hon, hseal, hvalid])
    have hstep (i : Nat) : slice' (armSlice s t k) i = if i = k then { slice' t i with armed := true } else slice' t i := by
      rw [harm]
      split
      next hi => rw [hi, slice'_setSlice_same]
      next hi => rw [slice'_setSlice_of_ne hi]
    have hrest : ∀ i ∈ r, on s (19 + i) = true ∧ (slice' (armSlice s t k) i).sealed = true ∧
        (slice' (armSlice s t k) i).valid = true := fun i hi => by
      obtain ⟨hion, hiseal, hivalid⟩ := h i (List.mem_cons_of_mem k hi)
      rw [hstep]
      split <;> exact ⟨hion, hiseal, hivalid⟩
    rw [List.foldl_cons, ih _ hrest, hstep]
    by_cases hj : j = k <;> by_cases hr : j ∈ r <;> simp [hj, hr]

/-- The state with every slice of the set armed. -/
def slicesArmed (s : State) : State := (takingPart s).foldl (armSlice s) s

theorem touches_armSlice (s t : State) (k : Nat) : Touches [.cir] (armSlice s t k) t := by
  unfold armSlice
  split
  · exact touches_setSlice _ _ t
  · rfl

theorem touches_slicesArmed (s : State) : Touches [.cir] (slicesArmed s) s :=
  Touches.foldl (fun t k _ => touches_armSlice s t k) s

/-- Arming writes slices alone. -/
theorem cir_slicesArmed (s : State) : (slicesArmed s).cir = { s.cir with slices := (slicesArmed s).cir.slices } :=
  List.foldlRecOn (motive := fun t : State => t.cir = { s.cir with slices := t.cir.slices }) (takingPart s) (armSlice s) rfl
    fun t ht k _ => by
      unfold armSlice
      split
      · exact congrArg (fun x : Cir => { x with slices := (setSlice k { slice' t k with armed := true } t).cir.slices }) ht
      · exact ht

theorem exec_psArmed {f : Nat} (hann : s.cir.announce = some (f, standbyPage s)) (hcommit : s.cir.commit = none) :
    exec .psArmed s = if allArmed (slicesArmed s) f && !(slicesArmed s).cir.moduleArmed then
        done s (ev 0x0401 { slicesArmed s with cir := { (slicesArmed s).cir with moduleArmed := true } })
      else done s (slicesArmed s) := by
  have hrow : exec .psArmed s = execPsArmed s := rfl
  simp only [hrow, execPsArmed, hann, hcommit, Option.isSome_none, bne_self_eq_false, Bool.or_self, Bool.false_eq_true, if_false]
  rfl

theorem psArmed_arms {f : Nat} (hann : s.cir.announce = some (f, standbyPage s)) (hcommit : s.cir.commit = none)
    (harmed : s.cir.moduleArmed = false)
    (hready : ∀ k ∈ takingPart s, on s (19 + k) = true ∧ (slice' s k).sealed = true ∧ (slice' s k).valid = true) :
    ∃ t, exec .psArmed s = .next t ∧ t.cir.moduleArmed = true ∧ (∀ k ∈ takingPart s, (slice' t k).armed = true) ∧
      Agree t { s with cir := t.cir } := by
  have hslices (j : Nat) : slice' (slicesArmed s) j =
      if j ∈ takingPart s then { slice' s j with armed := true } else slice' s j := slice'_foldl_armSlice _ s hready j
  have hcir := cir_slicesArmed s
  have hset : takingPart (slicesArmed s) = takingPart s := by
    refine List.filter_congr fun k _ => ?_
    simp only [takesPart, hslices]
    split <;> rfl
  have hon (d : Nat) : on (slicesArmed s) d = on s d := (touches_slicesArmed s).on_eq d rfl
  have hall : allArmed (slicesArmed s) f = true := by
    have hann' : (slicesArmed s).cir.announce = some (f, standbyPage s) := by rw [hcir]; exact hann
    simp only [allArmed, hann', hset, beq_self_eq_true, Bool.true_and, List.all_eq_true]
    intro k hk
    simp [hslices, hk, hon, (hready k hk).1]
  have hunarmed : (slicesArmed s).cir.moduleArmed = false := by rw [hcir]; exact harmed
  have hexec := exec_psArmed hann hcommit
  rw [if_pos (by simp [hall, hunarmed])] at hexec
  obtain ⟨t, ht, htouch⟩ := next_touches hexec
  have hev := touches_ev 0x0401 { slicesArmed s with cir := { (slicesArmed s).cir with moduleArmed := true } }
  have htCir : t.cir = { (slicesArmed s).cir with moduleArmed := true } := (htouch.cir rfl).trans (hev.cir rfl)
  have hagree : Touches [.cir, .events 4, .events 9] t s :=
    (htouch.trans (hev.trans ((touches_cir _ _).trans (touches_slicesArmed s)))).widen rfl
  refine ⟨t, ht, by rw [htCir], fun k hk => ?_, hagree.agree⟩
  have hk' : slice' t k = slice' (slicesArmed s) k := by simp only [slice', htCir]
  rw [hk', hslices, if_pos hk]

theorem psArmed_frozen (h : s.cir.commit.isSome = true) : Becomes .psArmed s s := by
  have hrow : exec .psArmed s = execPsArmed s := rfl
  refine becomes_self ?_
  rw [hrow, execPsArmed]
  split
  · exact if_pos (by simp [h])
  · rfl

/-! ### The evaluation at F - 1 (R145) -/

theorem psEvaluation_switches {n : Nat} (hcrust : crustUsed s = true) (hcommit : s.cir.commit = some ((n + 1) % 2 ^ 32))
    (harmed : allArmed s ((n + 1) % 2 ^ 32) = true) : ∃ t, exec (.psEvaluation n) s = .next t ∧ Counts 0x0403 0 1 s t ∧
      t.cir = { s.cir with commit := none, switchAt := some ((n + 1) % 2 ^ 32) } ∧
      Agree t { s with cir := t.cir, mbx := t.mbx } := by
  have hrow : exec (.psEvaluation n) s = execPsEvaluation n s := rfl
  let s1 : State := { s with cir := { s.cir with commit := none, switchAt := some ((n + 1) % 2 ^ 32) } }
  let data : List Word := [word ((n + 1) % 2 ^ 32 + at' (standbyPage s) 32)]
  have hexec : exec (.psEvaluation n) s = done s (event 0x0403 data (ev 0x0403 s1)) := by
    simp only [hrow, execPsEvaluation]
    rw [if_neg (by simp [hcrust]), if_pos hcommit, if_pos harmed]
    rfl
  obtain ⟨t, ht, htouch⟩ := next_touches hexec
  have hreport := htouch.trans (touches_event 0x0403 data (ev 0x0403 s1))
  have hs1 : Touches [.cir] s1 s := touches_cir s _
  have hall : Touches [.cir, .mbx, .events 4, .events 9, .events 0x0E] t s :=
    (hreport.trans ((touches_ev 0x0403 s1).trans hs1)).widen rfl
  exact ⟨t, ht, counts_of_touches hreport hs1 rfl rfl rfl (by decide),
    (hreport.cir rfl).trans ((touches_ev 0x0403 s1).cir rfl), hall.agree⟩

theorem touches_dropTakenOf (frame page : Nat) (s : State) (c : Nat) :
    Touches [.cir, .events 4] (dropTakenOf frame page s c) s := by
  simp only [dropTakenOf]
  split
  · rfl
  · exact ((touches_count (e := 0x0412) _ _ (by decide)).trans (touches_setCirc c _ s)).widen rfl

theorem paged_dropTakenOf (frame page : Nat) (s : State) (c : Nat) : Paged (dropTakenOf frame page s c) s := by
  simp only [dropTakenOf]
  split
  · rfl
  · exact (Paged.of_touches (touches_count (e := 0x0412) _ _ (by decide)) rfl).trans (paged_setCirc _ _ s)

theorem touches_dropTaken (frame page : Nat) (s : State) : Touches [.cir, .events 4] (dropTaken frame page s) s :=
  Touches.foldl (fun t c _ => touches_dropTakenOf frame page t c) s

theorem paged_dropTaken (frame page : Nat) (s : State) : Paged (dropTaken frame page s) s :=
  Paged.foldl (fun t c => paged_dropTakenOf frame page t c) _ s

/-- The circuits that the switch would have changed, a bit each. -/
def abortBits (s : State) : List Word := (List.range 4).map fun k =>
  word (((List.range 64).map fun i => at' (b2n ((changedCircuits s).contains (64 * k + i))) i).sum)

theorem psEvaluation_aborts {n : Nat} (hcrust : crustUsed s = true) (hcommit : s.cir.commit = some ((n + 1) % 2 ^ 32))
    (harmed : allArmed s ((n + 1) % 2 ^ 32) = false) : ∃ t, exec (.psEvaluation n) s = .next t ∧ t.cir.commit = none ∧
      t.cir.switchAt = s.cir.switchAt ∧ t.cir.abortAt = some ((n + 1) % 2 ^ 32, changedCircuits s) ∧
      t.cir.active = s.cir.active ∧ t.pf = s.pf ∧ t.pwr = s.pwr := by
  have hrow : exec (.psEvaluation n) s = execPsEvaluation n s := rfl
  let s1 : State := { s with cir := { s.cir with commit := none, abortAt := some ((n + 1) % 2 ^ 32, changedCircuits s) } }
  let data := word ((n + 1) % 2 ^ 32) :: abortBits s
  have hexec : exec (.psEvaluation n) s =
      done s (dropTaken ((n + 1) % 2 ^ 32) s.cir.active (evReport 0x0404 data s1)) := by
    simp only [hrow, execPsEvaluation]
    rw [if_neg (by simp [hcrust]), if_pos hcommit, if_neg (by rw [harmed]; decide)]
    rfl
  obtain ⟨t, ht, htouch⟩ := next_touches hexec
  have hreport := touches_evReport 0x0404 data s1
  have hall : Touches (.events 9 :: .cir :: .events 4 :: mailParts) t s :=
    (htouch.trans ((touches_dropTaken _ _ _).trans (hreport.trans (touches_cir s _)))).widen rfl
  have hpaged : Paged t s1 := (Paged.of_touches htouch rfl).trans ((paged_dropTaken _ _ _).trans (Paged.of_touches hreport rfl))
  exact ⟨t, ht, by rw [hpaged], by rw [hpaged], by rw [hpaged], by rw [hpaged], hall.pf rfl, hall.pwr rfl⟩

/-! ### What happens at F (R145, R147) -/

theorem touches_keepCurves (before after : State) : Touches [.adm] (keepCurves before after) after :=
  Touches.foldl (fun t p _ => by
    unfold keepCurve
    split
    · rfl
    · split
      · rfl
      · exact touches_adm t _) after

/-- The standby page taken into use, the DS windows begun again, and abort defects left behind. -/
theorem pageActivation_activates {f : Nat} (h : s.cir.switchAt = some f) : ∃ t, exec (.pageActivation f) s = .next t ∧
    t.cir.active = standbyPage s ∧ t.cir.switchAt = none ∧ t.cir.announce = none ∧ t.cir.moduleArmed = false ∧
    t.pf = s.pf ∧ t.pwr = s.pwr ∧ t.line = s.line := by
  let s1 : State := { s with cir := { s.cir with
    active := standbyPage s, switchAt := none, announce := none, moduleArmed := false
    slices := mapTab sliceReset (fun x => { x with sealed := false, valid := false, armed := false }) s.cir.slices } }
  obtain ⟨l, hexec⟩ : ∃ l : List Nat, exec (.pageActivation f) s = done s (keepCurves s (clearAborts
      (l.foldl (fun t c => setDs (objCircuit c) { dsOf t (objCircuit c) with frames := 0, errors := 0 } t) s1))) :=
    ⟨_, if_pos h⟩
  obtain ⟨t, ht, htouch⟩ := next_touches hexec
  have hds : Touches [.cir] (l.foldl (fun t c => setDs (objCircuit c) { dsOf t (objCircuit c) with frames := 0, errors := 0 } t)
      s1) s1 := Touches.foldl (fun t c _ => by
        unfold setDs
        split
        · exact touches_cir t _
        · exact touches_setCirc _ _ t) s1
  have hpagedDs : Paged (l.foldl (fun t c => setDs (objCircuit c) { dsOf t (objCircuit c) with frames := 0, errors := 0 } t)
      s1) s1 := Paged.foldl (fun t c => paged_setDs _ _ t) l s1
  have hall : Touches ([.events 9, .adm, .cir, .perf, .tin, .events 4] ++ mailParts) t s :=
    (htouch.trans ((touches_keepCurves _ _).trans ((touches_clearAborts _).trans (hds.trans (touches_cir s _))))).widen rfl
  have hpaged : Paged t s1 := (Paged.of_touches htouch rfl).trans ((Paged.of_touches (touches_keepCurves _ _) rfl).trans
    ((paged_clearAborts _).trans hpagedDs))
  exact ⟨t, ht, by rw [hpaged], by rw [hpaged], by rw [hpaged], by rw [hpaged], hall.pf rfl, hall.pwr rfl, hall.line rfl⟩

theorem pageActivation_aborts {f : Nat} {l : List Nat} (hno : s.cir.switchAt ≠ some f) (habort : s.cir.abortAt = some (f, l)) :
    ∃ t, exec (.pageActivation f) s = .next t ∧ t.cir.active = s.cir.active ∧ t.cir.abortAt = none ∧
      (∀ c ∈ l, (circ t c).abort = true) ∧ t.pf = s.pf ∧ t.pwr = s.pwr := by
  let s1 : State := { s with cir := { s.cir with abortAt := none } }
  have hrow : exec (.pageActivation f) s = execPageActivation f s := rfl
  have hexec : exec (.pageActivation f) s = done s (l.foldl (fun t c => setAbort c true t) s1) := by
    rw [hrow, execPageActivation, if_neg hno, habort]
    exact if_pos rfl
  obtain ⟨t, ht, htouch⟩ := next_touches hexec
  have hset : Touches ([.cir, .perf, .tin, .events 4] ++ mailParts) (l.foldl (fun t c => setAbort c true t) s1) s1 :=
    Touches.foldl (fun t c _ => touches_setAbort c true t) s1
  have hall : Touches ([.events 9, .cir, .perf, .tin, .events 4] ++ mailParts) t s :=
    (htouch.trans (hset.trans (touches_cir s _))).widen rfl
  have hpaged : Paged t s1 := (Paged.of_touches htouch rfl).trans (Paged.foldl (fun t c => paged_setAbort c true t) l s1)
  exact ⟨t, ht, by rw [hpaged], by rw [hpaged],
    fun c hc => by rw [htouch.circ rfl, abort_foldl_setAbort true l s1 c (.inl hc)], hall.pf rfl, hall.pwr rfl⟩

end PageSwitch

/-- Settles O20, command by command and event by event. -/
theorem pageSwitch : Obligations.PageSwitch :=
  ⟨fun _ _ _ => psAnnounce_announces, fun _ _ => psAnnounce_active, fun _ _ _ => psCommit_commits,
    fun _ _ _ => psCommit_otherFrame, fun _ => psCancel_cancels, fun _ _ => psArmed_arms, fun _ => psArmed_frozen,
    fun _ _ => psEvaluation_switches, fun _ _ => psEvaluation_aborts, fun _ _ => pageActivation_activates,
    fun _ _ _ => pageActivation_aborts⟩

end Sys2Proof.Machine
end

section
/-! The circuit commands of group 0x04 (R139-R142, R149). -/

namespace Sys2Proof.Machine

section CircuitCommands
variable {s : State} {ch : Nat}

theorem circuitBind_binds (h : Accepted cmdCircuitBind ch s) (he : fld (argOf s ch 1) 15 8 ≠ 0xFF) :
    ∃ t, exec (.circuitBind ch) s = .next t ∧
      circ t (fld (argOf s ch 1) 7 0) = { circ s (fld (argOf s ch 1) 7 0) with
        egress := some (fld (argOf s ch 1) 15 8), ring := fld (argOf s ch 1) 26 16, q := fld (argOf s ch 1) 38 32 } ∧
      (∀ d, d ≠ fld (argOf s ch 1) 7 0 → circ t d = circ s d) ∧ t.pwr = s.pwr ∧ t.pf = s.pf ∧ t.dma = s.dma := by
  let x : Circuit := { circ s (fld (argOf s ch 1) 7 0) with
    egress := some (fld (argOf s ch 1) 15 8), ring := fld (argOf s ch 1) 26 16, q := fld (argOf s ch 1) 38 32 }
  have heffect : cmdCircuitBind.effect ch (msgWords (chan s ch)) s =
      (keepCurves s (setCirc (fld (argOf s ch 1) 7 0) x s), .done) := if_neg he
  obtain ⟨t, ht, htouch⟩ := accepted_touches (rfl : exec (.circuitBind ch) s = _) h heffect
  have hset : Touches (.events 9 :: .adm :: mailParts) t (setCirc (fld (argOf s ch 1) 7 0) x s) :=
    (htouch.trans (touches_keepCurves _ _)).widen rfl
  have hall : Touches (.cir :: .events 9 :: .adm :: mailParts) t s := (hset.trans (touches_setCirc _ _ s)).widen rfl
  exact ⟨t, ht, by rw [hset.circ rfl, circ_setCirc_same], fun d hd => by rw [hset.circ rfl, circ_setCirc_of_ne hd],
    hall.pwr rfl, hall.pf rfl, hall.dma rfl⟩

theorem circuitBind_unbinds (h : Accepted cmdCircuitBind ch s) (he : fld (argOf s ch 1) 15 8 = 0xFF) :
    ∃ t, exec (.circuitBind ch) s = .next t ∧ (circ t (fld (argOf s ch 1) 7 0)).egress = none ∧
      (circ t (fld (argOf s ch 1) 7 0)).egressQ = [] ∧ fld (argOf s ch 1) 7 0 ∉ t.cir.relOrder ∧
      (∀ d, d ≠ fld (argOf s ch 1) 7 0 → circ t d = circ s d) ∧ t.pwr = s.pwr ∧ t.pf = s.pf := by
  let c := fld (argOf s ch 1) 7 0
  let s1 := setCirc c { circ s c with egress := none, q := fld (argOf s ch 1) 38 32, egressQ := [] } s
  let s2 : State := { s1 with cir := { s1.cir with relOrder := s1.cir.relOrder.filter (· != c) } }
  have heffect : cmdCircuitBind.effect ch (msgWords (chan s ch)) s = (keepCurves s (discardFrames (circ s c).egressQ false
      (count 0x0410 0 (circ s c).egressQ.length s2)), .done) := if_pos he
  obtain ⟨t, ht, htouch⟩ := accepted_touches (rfl : exec (.circuitBind ch) s = _) h heffect
  have hset : Touches (.events 9 :: .adm :: .events 4 :: mailParts ++ discardParts) t s2 :=
    (htouch.trans ((touches_keepCurves _ _).trans ((touches_discardFrames _ _ _).trans
      (touches_count (e := 0x0410) _ s2 (by decide))))).widen rfl
  have hall : Touches (.cir :: .events 9 :: .adm :: .events 4 :: mailParts ++ discardParts) t s :=
    (hset.trans ((touches_cir s1 _).trans (touches_setCirc _ _ s))).widen rfl
  have hcirc (d : Nat) : circ t d = circ s1 d := hset.circ rfl d
  refine ⟨t, ht, ?_, ?_, ?_, fun d hd => by rw [hcirc, circ_setCirc_of_ne hd], hall.pwr rfl, hall.pf rfl⟩
  · rw [hcirc, circ_setCirc_same]
  · rw [hcirc, circ_setCirc_same]
  · rw [hset.cir rfl]
    simp [s2, c]

theorem circuitTrace_sent (h : Accepted cmdCircuitTrace ch s) (hbit : bit (argOf s ch 1) 8 = false) :
    Answers (.circuitTrace ch) 0x0405 ch .done s (setCirc (fld (argOf s ch 1) 7 0)
      { circ s (fld (argOf s ch 1) 7 0) with traceTx := wordsBytes [argOf s ch 2, argOf s ch 3] } s) := by
  have hbit' : bit (arg (msgWords (chan s ch)) 1) 8 = false := hbit
  refine answers_of_effect rfl h ?_
  simp only [cmdCircuitTrace, hbit', Bool.false_eq_true, if_false]
  rfl

theorem circuitTrace_expected (h : Accepted cmdCircuitTrace ch s) (hbit : bit (argOf s ch 1) 8 = true) :
    Answers (.circuitTrace ch) 0x0405 ch .done s (setCirc (fld (argOf s ch 1) 7 0)
      { circ s (fld (argOf s ch 1) 7 0) with traceExp := wordsBytes [argOf s ch 2, argOf s ch 3] } s) := by
  have hbit' : bit (arg (msgWords (chan s ch)) 1) 8 = true := hbit
  refine answers_of_effect rfl h ?_
  simp only [cmdCircuitTrace, hbit', if_true]
  rfl

theorem dsThreshold_section (h : Accepted cmdDsThreshold ch s) (he : fld (argOf s ch 1) 15 0 = 0) :
    Answers (.dsThreshold ch) 0x0406 ch .done s { s with cir := { s.cir with ds := { s.cir.ds with
      k := fld (argOf s ch 1) 19 16, frames := 0, errors := 0 } } } := by
  have he' : fld (arg (msgWords (chan s ch)) 1) 15 0 = 0 := he
  refine answers_of_effect rfl h ?_
  simp only [cmdDsThreshold, he', setDs, dsOf, if_true]
  rfl

end CircuitCommands

/-- Settles O22, command by command; the commands that only report leave the state. -/
theorem circuitCommands : Obligations.CircuitCommands := by
  refine ⟨fun _ _ h => answers_of_effect rfl h rfl, fun _ _ h => answers_of_effect rfl h rfl, fun _ _ => circuitBind_binds,
    fun _ _ => circuitBind_unbinds, fun _ _ h => answers_of_effect rfl h rfl, fun _ _ => circuitTrace_sent,
    fun _ _ => circuitTrace_expected, fun _ _ => dsThreshold_section,
    fun _ _ h => ⟨_, ?_, ?_, answers_of_effect rfl h rfl⟩, fun _ _ h => ⟨_, ?_, ?_, ?_, answers_of_effect rfl h rfl⟩⟩
  all_goals rfl

end Sys2Proof.Machine
end

section
/-! One instruction of a parse engine, and the instructions that compute (R163-R166). -/

namespace Sys2Proof.Machine

/-! ### Engines -/

theorem mfind_minsert_same {α : Type} (m : Map α) (n : Nat) (v : α) : mfind (minsert m n v) n = some v := by
  induction m with
  | nil => simp [minsert, mfind]
  | cons e r ih =>
    obtain ⟨k, w⟩ := e
    unfold minsert
    split
    · simp [mfind]
    · split
      · simp [mfind]
      · next hne =>
        have hk : (k == n) = false := by simpa using fun h => hne h.symm
        simpa [mfind, List.find?_cons, hk] using ih

theorem mfind_minsert_of_ne {α : Type} (m : Map α) {n k : Nat} (v : α) (h : k ≠ n) : mfind (minsert m n v) k = mfind m k := by
  have hnk : (n == k) = false := by simpa using fun e => h e.symm
  induction m with
  | nil => simp [minsert, mfind, hnk]
  | cons e r ih =>
    obtain ⟨j, w⟩ := e
    unfold minsert
    split
    · simp [mfind, List.find?_cons, hnk]
    · split
      · next hj =>
        subst hj
        simp [mfind, hnk]
      · by_cases hj : j = k
        · simp [mfind, hj]
        · have hj' : (j == k) = false := by simpa using hj
          simpa [mfind, List.find?_cons, hj'] using ih

theorem mfind_merase_same {α : Type} (m : Map α) (n : Nat) : mfind (merase m n) n = none := by
  simp [mfind, merase, List.find?_eq_none]

theorem mfind_merase_of_ne {α : Type} (m : Map α) {n k : Nat} (h : k ≠ n) : mfind (merase m n) k = mfind m k := by
  unfold mfind merase
  rw [List.find?_filter]
  congr 1
  refine congrArg (List.find? · m) (funext fun e => ?_)
  by_cases he : e.1 = k
  · simp [he, h]
  · simp [he]

@[simp] theorem engine?_setEngine_same (e : Nat) (x : Engine) (s : State) : engine? (setEngine e x s) e = some x :=
  mfind_minsert_same _ _ _

theorem engine?_setEngine_of_ne {e f : Nat} (x : Engine) (s : State) (h : f ≠ e) : engine? (setEngine e x s) f = engine? s f :=
  mfind_minsert_of_ne _ _ h

theorem touches_setEngine (e : Nat) (x : Engine) (s : State) : Touches [.prs] (setEngine e x s) s := touches_prs s _

theorem touches_setOrder (sd : Side) (l : List Nat) (s : State) : Touches [.prs] (setOrder sd l s) s := by
  cases sd
  · exact touches_prs s _
  · exact touches_prs s _

theorem Engine.reg_setReg {x : Engine} {n m : Nat} {w : Word} (h : n < x.g.length) :
    (x.setReg n w).reg m = if m = n then w else x.reg m := by
  by_cases hnm : m = n
  · simp [Engine.setReg, Engine.reg, nth, hnm, h]
  · simp [Engine.setReg, Engine.reg, nth, hnm, Ne.symm hnm]

/-! ### An instruction is executed -/

section Executes
variable {c : Instr} {e : Nat} {i : PInstr} {s : State} {x y : Engine} {sel : PInstr → Option PEffect} {f : PEffect}

theorem Executes.ended (h : Executes e i s x) : x.ended = none := by
  have hrunning := h.2.1
  simp only [Engine.running, Bool.and_eq_true, Option.isNone_iff_eq_none] at hrunning
  exact hrunning.1.1

theorem putEngine_of_going (e : Nat) (evs : List Nat) (s : State) (h : y.ended = none) :
    putEngine e y evs s = evs.foldl (fun u n => ev n u) (setEngine e y s) := if_neg (by simp [h])

theorem runP_of_executes (h : Executes e i s x) (hsel : sel i = some f) :
    runP e sel s = putEngine e (f s (stepped x)).1 (f s (stepped x)).2 s := by
  obtain ⟨hengine, hrunning, hfetch⟩ := h
  simp [runP, hengine, hrunning, hfetch, hsel, stepped]

theorem exec_of_executes {evs : List Nat} (hexec : exec c s = done s (runP e sel s)) (h : Executes e i s x)
    (hsel : sel i = some f) (hf : f s (stepped x) = (y, evs)) : exec c s = done s (putEngine e y evs s) := by
  rw [hexec, runP_of_executes h hsel, hf]

/-- An instruction that counts nothing and does not end the program changes its engine alone. -/
theorem becomes_of_executes (hexec : exec c s = done s (runP e sel s)) (h : Executes e i s x) (hsel : sel i = some f)
    (hf : f s (stepped x) = (y, [])) (hgoes : y.ended = x.ended) : Becomes c s (setEngine e y s) := by
  refine becomes_of_exec_eq_done (exec_of_executes hexec h hsel hf) ?_
  rw [putEngine_of_going e [] s (hgoes.trans h.ended)]
  exact .refl _

end Executes

/-- Settles O23: the register operations, the comparisons, FFS and RNG are each an effect on the engine alone. -/
theorem parseComputes : Obligations.ParseComputes := by
  unfold Obligations.ParseComputes
  exact ⟨fun _ _ _ _ _ _ h => becomes_of_executes rfl h rfl rfl rfl,
    fun _ _ _ _ _ _ h => becomes_of_executes rfl h rfl rfl rfl,
    fun _ _ _ _ _ _ h => becomes_of_executes rfl h rfl rfl rfl,
    fun _ _ _ _ _ _ h => becomes_of_executes rfl h rfl rfl rfl,
    fun _ _ _ _ _ _ h => becomes_of_executes rfl h rfl rfl rfl,
    fun _ _ _ _ _ _ h => becomes_of_executes rfl h rfl rfl rfl,
    fun _ _ _ _ _ _ h => becomes_of_executes rfl h rfl rfl rfl,
    fun _ _ _ _ _ h => becomes_of_executes rfl h rfl rfl rfl,
    fun _ _ _ _ _ _ h => becomes_of_executes rfl h rfl rfl rfl,
    fun _ _ _ _ _ _ h => becomes_of_executes rfl h rfl rfl rfl,
    fun _ _ _ _ _ _ h => becomes_of_executes rfl h rfl rfl rfl,
    fun _ _ _ _ _ _ h => becomes_of_executes rfl h rfl rfl rfl,
    fun _ _ _ _ _ _ h => becomes_of_executes rfl h rfl rfl rfl,
    fun _ _ _ _ _ h => becomes_of_executes rfl h rfl rfl rfl,
    fun _ _ _ _ _ h => becomes_of_executes rfl h rfl rfl rfl,
    fun _ _ _ _ _ _ _ h => becomes_of_executes rfl h rfl rfl rfl,
    fun _ _ _ _ _ h => becomes_of_executes rfl h rfl rfl rfl,
    fun _ _ _ _ _ h => becomes_of_executes rfl h rfl rfl rfl,
    fun _ _ _ _ _ h => becomes_of_executes rfl h rfl rfl rfl,
    fun _ _ _ _ _ _ h => becomes_of_executes rfl h rfl rfl rfl,
    fun _ _ _ _ h => Engine.reg_setReg h⟩

end Sys2Proof.Machine
end

section
/-! Branch, loads, cursor, headers, lengths, patterns, key words and meta fields (R165-R170). -/

namespace Sys2Proof.Machine

/-! ### Loads and length checks -/

/-- Bytes inside the frame and the window raise neither mark. -/
theorem loadBytes_inside {p : Packet} {fin : Nat} (n a acc : Nat) (hfin : a + n ≤ fin) (hwindow : a + n ≤ 512) :
    (loadBytes p fin n a acc false).2 = (false, false) := by
  induction n generalizing a acc with
  | zero => rfl
  | succ n ih =>
    rw [loadBytes, if_neg (by omega), if_neg (by omega)]
    exact ih _ _ (by omega) (by omega)

theorem loadAt_inside {rd size a : Nat} {s : State} {x : Engine} (hfin : a + 2 ^ size ≤ x.fin) (hwindow : a + 2 ^ size ≤ 512) :
    loadAt rd size a s x = (x.setReg rd (word (loadBytes x.packet x.fin (2 ^ size) a 0 false).1), []) := by
  have hmarks := loadBytes_inside (p := x.packet) (2 ^ size) a 0 hfin hwindow
  rcases hload : loadBytes x.packet x.fin (2 ^ size) a 0 false with ⟨v, past, window⟩
  rw [hload] at hmarks
  simp only [Prod.mk.injEq] at hmarks
  simp [loadAt, hload, hmarks]

/-- One byte at or past END. -/
theorem loadAt_past {rd a : Nat} {s : State} {x : Engine} (hpast : x.fin ≤ a) (hfresh : x.pflags.getLsbD 2 = false) :
    loadAt rd 0 a s x = ((x.flag 2).setReg rd 0, [0x0505]) := by
  have hload : loadBytes x.packet x.fin (2 ^ 0) a 0 false = (0, true, false) := if_pos hpast
  simp only [loadAt, hload, hfresh]
  rfl

theorem lenCheck_ends {ra n : Nat} {s : State} {x : Engine} (hcur : x.cur ≤ x.fin)
    (hend : (x.cur : Int) + signed 64 (((x.reg ra).toNat + wrap 64 (signed 18 n)) % 2 ^ 64) = x.fin) :
    lenCheck ra n s x = (x, []) :=
  (if_neg (by omega)).trans (if_pos hend)

theorem lenCheck_conflicts {ra n : Nat} {s : State} {x : Engine} (hcur : x.cur ≤ x.fin)
    (hend : (x.fin : Int) < (x.cur : Int) + signed 64 (((x.reg ra).toNat + wrap 64 (signed 18 n)) % 2 ^ 64)) :
    lenCheck ra n s x = (x.flag 1, [0x0504]) :=
  (if_neg (by omega)).trans ((if_neg (by omega)).trans (if_pos hend))

/-! ### The instructions -/

section Moves
variable {s : State} {e : Nat} {x : Engine}

/-- An instruction that counts one event and does not end the program. -/
theorem becomesCounting_of_executes {c : Instr} {i : PInstr} {y : Engine} {sel : PInstr → Option PEffect} {f : PEffect} {n : Nat}
    (hexec : exec c s = done s (runP e sel s)) (h : Executes e i s x) (hsel : sel i = some f)
    (hf : f s (stepped x) = (y, [n])) (hgoes : y.ended = x.ended) (hn : n ≠ 0x090C) :
    BecomesCounting c n 0 s (setEngine e y s) := by
  have hput := putEngine_of_going e [n] s (hgoes.trans h.ended)
  exact becomesCounting_ev_after ((exec_of_executes hexec h hsel hf).trans (by rw [hput]; rfl)) (touches_setEngine e y s) hn
    rfl rfl

theorem pB_becomes {c a : Nat} (h : Executes e (.b c a) s x) :
    Becomes (.pB e) s (setEngine e { stepped x with pc := if condHolds x c then a else x.pc + 1 } s) := by
  refine becomes_of_executes rfl h rfl (f := plain fun x => if condHolds x c then { x with pc := a } else x) ?_ rfl
  have hplain : plain (fun x => if condHolds x c then { x with pc := a } else x) s (stepped x)
      = (if condHolds x c then { stepped x with pc := a } else stepped x, []) := rfl
  rw [hplain]
  split
  · rfl
  · rfl

theorem pLd_becomes {rd size off : Nat} {fr : Bool} (h : Executes e (.ld rd size fr off) s x)
    (hfin : ((if fr then 0 else x.cur) + off) + 2 ^ size ≤ x.fin) (hwindow : ((if fr then 0 else x.cur) + off) + 2 ^ size ≤ 512) :
    Becomes (.pLd e) s (setEngine e ((stepped x).setReg rd
      (word (loadBytes x.packet x.fin (2 ^ size) ((if fr then 0 else x.cur) + off) 0 false).1)) s) :=
  becomes_of_executes rfl h rfl (loadAt_inside (x := stepped x) hfin hwindow) rfl

theorem pLd_counts {rd off : Nat} {fr : Bool} (h : Executes e (.ld rd 0 fr off) s x)
    (hpast : x.fin ≤ (if fr then 0 else x.cur) + off) (hfresh : x.pflags.getLsbD 2 = false) :
    BecomesCounting (.pLd e) 0x0505 0 s (setEngine e (((stepped x).flag 2).setReg rd 0) s) :=
  becomesCounting_of_executes rfl h rfl (loadAt_past (x := stepped x) hpast hfresh) rfl (by decide)

theorem pLdx_becomes {rd ra size : Nat} (h : Executes e (.ldx rd ra size) s x)
    (hfin : x.cur + (x.reg ra).toNat + 2 ^ size ≤ x.fin) (hwindow : x.cur + (x.reg ra).toNat + 2 ^ size ≤ 512) :
    Becomes (.pLdx e) s (setEngine e ((stepped x).setReg rd
      (word (loadBytes x.packet x.fin (2 ^ size) (x.cur + (x.reg ra).toNat) 0 false).1)) s) := by
  have hsum : (x.cur + (x.reg ra).toNat) % 2 ^ 64 = x.cur + (x.reg ra).toNat := 
    Nat.mod_eq_of_lt (by have := Nat.two_pow_pos size; omega)
  refine becomes_of_executes rfl h rfl
    (f := fun s y => loadAt rd size ((y.cur + (y.reg ra).toNat) % 2 ^ 64) s y) ?_ rfl
  change loadAt rd size ((x.cur + (x.reg ra).toNat) % 2 ^ 64) s (stepped x) = _
  rw [hsum]
  exact loadAt_inside (x := stepped x) hfin hwindow

theorem pHdr_becomes {c : Nat} (h : Executes e (.hdr c) s x) (hdepth : x.hdrs.length < 16) :
    Becomes (.pHdr e) s (setEngine e { stepped x with hdrs := x.hdrs ++ [(c, x.cur)] } s) :=
  becomes_of_executes rfl h rfl (if_neg (Nat.not_le.mpr hdepth)) rfl

theorem pMatch_takes {rd g : Nat} (h : Executes e (.matchp rd g) s x) (hmatched : x.matched = true) :
    Becomes (.pMatch e) s (setEngine e (giveMatch s rd g (stepped x)) s) :=
  becomes_of_executes rfl h rfl (if_pos (by simp [stepped, hmatched])) rfl

theorem pMatch_waits {rd g : Nat} (h : Executes e (.matchp rd g) s x) (hmatched : x.matched = false) (hsteps : x.steps < 16) :
    Becomes (.pMatch e) s (setEngine e { stepped x with wait := some (rd, g, x.steps) } s) :=
  becomes_of_executes rfl h rfl (if_neg (by simp [stepped, hmatched]; omega)) rfl

theorem matchResultsReady_marks (h : engine? s e = some x) (hwait : x.wait = none) :
    Becomes (.matchResultsReady e) s (setEngine e { x with matched := true } s) := by
  have hrow : exec (.matchResultsReady e) s = execMatchResultsReady e s := rfl
  exact becomes_of_exec_eq_done (by simp [hrow, execMatchResultsReady, h, hwait]) (.refl _)

theorem matchResultsReady_gives {rd g n : Nat} (h : engine? s e = some x) (hwait : x.wait = some (rd, g, n)) :
    ∃ t, exec (.matchResultsReady e) s = .next t ∧ engine? t e = some (giveMatch s rd g { x with matched := true }) ∧
      Agree t { s with prs := t.prs, free := t.free } := by
  have hrow : exec (.matchResultsReady e) s = execMatchResultsReady e s := rfl
  obtain ⟨t, ht, htouch⟩ := next_touches (hrow.trans (by rw [execMatchResultsReady]; simp only [h, hwait]; rfl))
  have hset := (htouch.trans (touches_count (e := 0x050B) _ _ (by decide))).widen (m := [.events 9, .events 5]) rfl
  have hall : Touches [.prs, .free, .events 9, .events 5] t s :=
    (hset.trans ((touches_setEngine _ _ _).trans (touches_free s (s.free + 1)))).widen rfl
  exact ⟨t, ht, by rw [engine?, hset.prs rfl]; exact engine?_setEngine_same _ _ _, hall.agree⟩

end Moves

/-- Settles O24. -/
theorem parseMovesAndMarks : Obligations.ParseMovesAndMarks := by
  unfold Obligations.ParseMovesAndMarks
  exact ⟨fun _ _ _ _ _ h => pB_becomes h, fun _ _ _ _ _ _ _ h => pLd_becomes h, fun _ _ _ _ _ _ h => pLdx_becomes h,
    fun _ _ _ _ _ _ h => pLd_counts h,
    fun _ _ _ _ h => becomes_of_executes rfl h rfl rfl rfl,
    fun _ _ _ _ h => becomes_of_executes rfl h rfl rfl rfl,
    fun _ _ _ _ h => pHdr_becomes h,
    fun _ _ x _ _ h hend hcur => becomes_of_executes rfl h rfl (lenCheck_ends (x := stepped x) hcur hend) rfl,
    fun _ _ x _ _ h hcur hend =>
      becomesCounting_of_executes rfl h rfl (lenCheck_conflicts (x := stepped x) hcur hend) rfl (by decide),
    fun _ _ _ _ _ h => pMatch_takes h, fun _ _ _ _ _ h => pMatch_waits h,
    fun _ _ _ h => matchResultsReady_marks h, fun _ _ _ _ _ _ h => matchResultsReady_gives h,
    fun _ _ _ _ _ h => becomes_of_executes rfl h rfl rfl rfl,
    fun _ _ _ _ _ _ h => becomes_of_executes rfl h rfl rfl rfl⟩

end Sys2Proof.Machine
end

section
/-! Dispatch, the end of a program, and release in dispatch order (R156-R162, R170-R174). -/

namespace Sys2Proof.Machine

/-! ### What the end of a frame leaves of parse -/

/-- The engines and their dispatch order are the same; versions and their contents may differ. -/
structure EnginesKept (t s : State) : Prop where
  engines : t.prs.engines = s.prs.engines
  line : t.prs.orderLine = s.prs.orderLine
  client : t.prs.orderClient = s.prs.orderClient

namespace EnginesKept
variable {s t u : State}

@[refl] protected theorem refl (s : State) : EnginesKept s s := ⟨rfl, rfl, rfl⟩

protected theorem trans (h : EnginesKept t u) (k : EnginesKept u s) : EnginesKept t s :=
  ⟨h.engines.trans k.engines, h.line.trans k.line, h.client.trans k.client⟩

theorem of_touches {l : List Part} (h : Touches l t s) (hl : l.contains .prs = false) : EnginesKept t s := by
  have hprs := h.prs hl
  exact ⟨by rw [hprs], by rw [hprs], by rw [hprs]⟩

theorem engine?_eq (h : EnginesKept t s) (e : Nat) : engine? t e = engine? s e := by rw [engine?, h.engines, engine?]

theorem frontRuns (h : EnginesKept t s) {l : List Nat} (hruns : frontRuns s l) : frontRuns t l := fun f r hl => by
  rw [h.engine?_eq]
  exact hruns f r hl

end EnginesKept

theorem enginesKept_setVersion (n : Nat) (v : Version) (s : State) : EnginesKept (setVersion n v s) s := by
  unfold setVersion
  split
  · exact ⟨rfl, rfl, rfl⟩
  · exact ⟨rfl, rfl, rfl⟩

theorem enginesKept_reholdPools (v : Nat) (f : Bool → Bool → Bool) (s : State) : EnginesKept (reholdPools v f s) s := ⟨rfl, rfl, rfl⟩

theorem enginesKept_openBatch (s : State) : EnginesKept (openBatch s).1 s := by
  simp only [openBatch]
  split
  · dsimp only
    exact enginesKept_setVersion _ _ s
  · split
    · dsimp only
      exact enginesKept_setVersion _ _ s
    · exact (enginesKept_setVersion _ _ _).trans (enginesKept_reholdPools _ _ _)

theorem enginesKept_freeVersion (v : Nat) (s : State) : EnginesKept (freeVersion v s) s := by
  have freed : EnginesKept (ev 0x050F (setVersion v versionReset (reholdPools v (fun _ _ => false) s))) s :=
    (EnginesKept.of_touches (touches_ev 0x050F _) rfl).trans
      ((enginesKept_setVersion _ _ _).trans (enginesKept_reholdPools _ _ _))
  simp only [freeVersion]
  split
  · exact (EnginesKept.of_touches (touches_finishWait _ _ _ _) rfl).trans ((enginesKept_openBatch _).trans freed)
  · exact freed

theorem enginesKept_dropRef (p : Packet) (s : State) : EnginesKept (dropRef p s) s := by
  unfold dropRef
  split
  · simp only [releaseRef]
    split
    · exact (enginesKept_freeVersion _ _).trans (enginesKept_setVersion _ _ _)
    · exact enginesKept_setVersion _ _ _
  · rfl

theorem enginesKept_discardFrame (p : Packet) (byModule : Bool) (s : State) : EnginesKept (discardFrame p byModule s) s := by
  simp only [discardFrame]
  split
  · exact (EnginesKept.of_touches (touches_promiseEnds _ _ _ _ _ _) rfl).trans (enginesKept_dropRef _ _)
  · exact (EnginesKept.of_touches (touches_txFinal _ _ _ _ _ _) rfl).trans (enginesKept_dropRef _ _)

/-! ### Release in dispatch order (R158) -/

theorem prs_foldl_ev (evs : List Nat) (s : State) : (evs.foldl (fun u n => ev n u) s).prs = s.prs := by
  induction evs generalizing s with
  | nil => rfl
  | cons n r ih => exact (ih (ev n s)).trans ((touches_ev n s).prs (by simp))

theorem setOrder_orderOf (sd : Side) (s : State) : setOrder sd (orderOf s sd) s = s := by cases sd <;> rfl

theorem engine?_setOrder (sd : Side) (l : List Nat) (s : State) (e : Nat) : engine? (setOrder sd l s) e = engine? s e := by
  cases sd <;> rfl

theorem orderLine_setOrder (l : List Nat) (s : State) : (setOrder .line l s).prs.orderLine = l := rfl

/-- The first engine has not ended: the order is kept. -/
theorem releaseFront_of_runs {s : State} {sd : Side} {l : List Nat} (h : frontRuns s l) : releaseFront sd l s = setOrder sd l s := by
  cases l with
  | nil => rfl
  | cons f r =>
    obtain ⟨y, hy, hended⟩ := h f r rfl
    simp [releaseFront, hy, hended]

/-- Engine `e` has no packet any more. -/
def vacated (e : Nat) (s : State) : State := { s with prs := { s.prs with engines := merase s.prs.engines e } }

theorem engine?_vacated_same (e : Nat) (s : State) : engine? (vacated e s) e = none := mfind_merase_same _ _

theorem engine?_vacated_of_ne {e f : Nat} (s : State) (h : f ≠ e) : engine? (vacated e s) f = engine? s f := mfind_merase_of_ne _ h

theorem touches_vacated (e : Nat) (s : State) : Touches [.prs] (vacated e s) s := touches_prs s _

section Release
variable {s : State} {e : Nat} {x y : Engine}

/-- A program that ends behind another packet waits for its turn. -/
theorem putEngine_behind (evs : List Nat) (hruns : frontRuns s (orderOf s y.side)) (hbehind : ∀ r, orderOf s y.side ≠ e :: r) :
    putEngine e y evs s = evs.foldl (fun u n => ev n u) (setEngine e y s) := by
  have hprs := prs_foldl_ev evs (setEngine e y s)
  have horder : orderOf (evs.foldl (fun u n => ev n u) (setEngine e y s)) y.side = orderOf s y.side := by
    cases y.side
    · exact (congrArg Prs.orderLine hprs :)
    · exact (congrArg Prs.orderClient hprs :)
  unfold putEngine
  split
  · rw [releaseEnded, releaseFront_of_runs, setOrder_orderOf]
    rw [horder]
    intro f r hl
    rw [engine?, hprs]
    have hne : f ≠ e := fun h => hbehind r (h ▸ hl)
    rw [← engine?, engine?_setEngine_of_ne y s hne]
    exact hruns f r hl
  · rfl

/-- A program that ends at the front: its packet leaves, and the next one is still at work. -/
theorem putEngine_front {r : List Nat} (hended : y.ended.isSome = true) (horder : orderOf s y.side = e :: r) (her : e ∉ r)
    (hruns : frontRuns s r) (hkept : EnginesKept (leaveParse y (vacated e (setEngine e y s))) (vacated e (setEngine e y s))) :
    putEngine e y [] s = setOrder y.side r (leaveParse y (vacated e (setEngine e y s))) := by
  have horder' : orderOf (setEngine e y s) y.side = e :: r := by
    rw [← horder]
    cases y.side <;> rfl
  have hfront : frontRuns (vacated e (setEngine e y s)) r := fun f l hl => by
    have hne : f ≠ e := fun h => her (by simp [hl, h])
    rw [engine?_vacated_of_ne _ hne, engine?_setEngine_of_ne _ _ hne]
    exact hruns f l hl
  unfold putEngine
  rw [if_pos hended]
  simp only [List.foldl_nil]
  rw [releaseEnded, horder', releaseFront]
  simp only [engine?_setEngine_same, hended, if_true]
  exact releaseFront_of_runs (hkept.frontRuns hfront)

/-! ### The end of a program (R170-R173) -/

/-- An instruction that ends the program, behind another packet. -/
theorem becomes_of_ends_behind {c : Instr} {i : PInstr} {sel : PInstr → Option PEffect} {f : PEffect}
    (hexec : exec c s = done s (runP e sel s)) (h : Executes e i s x) (hsel : sel i = some f) (hf : f s (stepped x) = (y, []))
    (hside : y.side = x.side) (hruns : frontRuns s (orderOf s x.side)) (hbehind : ∀ r, orderOf s x.side ≠ e :: r) :
    Becomes c s (setEngine e y s) := by
  rw [← hside] at hruns hbehind
  exact becomes_of_exec_eq_done ((exec_of_executes hexec h hsel hf).trans (by rw [putEngine_behind [] hruns hbehind]; rfl)) (.refl _)

/-- A program that is stopped with an event, behind another packet. -/
theorem becomesCounting_of_stops {c : Instr} {n : Nat} (hexec : exec c s = done s (putEngine e y [n] s))
    (hside : y.side = x.side) (hruns : frontRuns s (orderOf s x.side)) (hbehind : ∀ r, orderOf s x.side ≠ e :: r) (hn : n ≠ 0x090C) :
    BecomesCounting c n 0 s (setEngine e y s) := by
  rw [← hside] at hruns hbehind
  exact becomesCounting_ev_after (hexec.trans (by rw [putEngine_behind [n] hruns hbehind]; rfl)) (touches_setEngine e y s) hn rfl rfl

/-- No flag is set and the program has ended with DONE: the packet goes to lookup. -/
theorem parseOutcome_done (v : Version) (hflags : x.pflags = 0) (hended : x.ended = some .done) : parseOutcome v x = (0, 0) := by
  simp [parseOutcome, flagList, hflags, hended]

theorem actionSeverity_le (a : Nat) : actionSeverity a ≤ 2 := by
  unfold actionSeverity
  split
  · omega
  · split <;> omega

theorem flagList_severity_le {v : Version} {fl : Nat × Nat} (h : fl ∈ flagList v x) : fl.2 ≤ 2 := by
  have of_if {c : Prop} [Decidable c] {a : Nat × Nat} (ha : a.2 ≤ 2) (hmem : fl ∈ if c then [a] else []) : fl.2 ≤ 2 := by
    split at hmem
    · exact List.mem_singleton.mp hmem ▸ ha
    · simp at hmem
  simp only [flagList, List.mem_append] at h
  obtain (((h | h) | h) | h) | h := h
  · exact of_if (actionSeverity_le _) h
  · exact of_if (actionSeverity_le _) h
  · exact of_if (actionSeverity_le _) h
  · exact of_if (by decide) h
  · exact of_if (by decide) h

/-- DROP is the highest severity, so no flag changes it (R173). -/
theorem parseOutcome_drop (v : Version) (hended : x.ended = some .drop) : (parseOutcome v x).1 = 2 := by
  have hle : ((flagList v x).map (·.2)).foldl max 0 ≤ 2 := by
    refine List.foldlRecOn (motive := (· ≤ 2)) _ max (by decide) fun b hb a ha => ?_
    obtain ⟨fl, hfl, rfl⟩ := List.mem_map.mp ha
    exact Nat.max_le.mpr ⟨hb, flagList_severity_le hfl⟩
  simp only [parseOutcome, hended]
  exact Nat.max_eq_left hle

theorem pDone_leaves {r : List Nat} (h : Executes e .done s x) (hside : x.side = .line) (hflags : x.pflags = 0)
    (hready : flowReady s = true) (horder : s.prs.orderLine = e :: r) (her : e ∉ r) (hruns : frontRuns s r) :
    ∃ t, exec (.pDone e) s = .next t ∧ engine? t e = none ∧ t.prs.orderLine = r ∧
      t.flw = { s.flw with inLine := s.flw.inLine ++ [{ x.packet with key := x.key, facts := x.facts, pflags := 0 }] } ∧
      Agree t { s with prs := t.prs, flw := t.flw } := by
  let y : Engine := { stepped x with ended := some .done }
  let u := vacated e (setEngine e y s)
  have hleave : leaveParse y u = { u with flw := { s.flw with
      inLine := s.flw.inLine ++ [{ x.packet with key := x.key, facts := x.facts, pflags := 0 }] } } := by
    have hu : flowReady u = true := hready
    have hy : y.side = .line := hside
    rw [leaveParse, parseOutcome_done (x := y) _ hflags rfl]
    simp only [hu, hy, show y.pflags = 0 from hflags]
    rfl
  have hput := putEngine_front (s := s) (y := y) rfl (by rw [← horder, show y.side = .line from hside]; rfl) her hruns
    (by rw [show leaveParse y (vacated e (setEngine e y s)) = _ from hleave]; exact ⟨rfl, rfl, rfl⟩)
  rw [show leaveParse y (vacated e (setEngine e y s)) = _ from hleave, show y.side = .line from hside] at hput
  obtain ⟨t, ht, htouch⟩ := next_touches (c := .pDone e) ((exec_of_executes (y := y) rfl h rfl rfl).trans (by rw [hput]))
  have hall : Touches [.prs, .flw, .events 9] t s :=
    (htouch.trans ((touches_setOrder _ _ _).trans ((touches_flw u _).trans
      ((touches_vacated e _).trans (touches_setEngine e y s))))).widen rfl
  refine ⟨t, ht, ?_, ?_, htouch.flw rfl, hall.agree⟩
  · rw [engine?, htouch.prs rfl]
    exact engine?_vacated_same e (setEngine e y s)
  · rw [htouch.prs rfl]
    rfl

theorem pDrop_leaves {r : List Nat} (h : Executes e .drop s x) (hside : x.side = .line)
    (horder : s.prs.orderLine = e :: r) (her : e ∉ r) (hruns : frontRuns s r) :
    ∃ t, exec (.pDrop e) s = .next t ∧ engine? t e = none ∧ t.prs.orderLine = r ∧ t.flw.inLine = s.flw.inLine ∧
      t.pwr = s.pwr ∧ t.pf = s.pf := by
  let y : Engine := { stepped x with ended := some .drop }
  let u := vacated e (setEngine e y s)
  let p : Packet := { x.packet with key := x.key, facts := x.facts, pflags := x.pflags }
  have hleave : leaveParse y u = discardFrame p false (ev 0x0509 u) := if_pos (parseOutcome_drop (x := y) _ rfl)
  have hkept : EnginesKept (leaveParse y u) u := by
    rw [hleave]
    exact (enginesKept_discardFrame _ _ _).trans (.of_touches (touches_ev 0x0509 u) rfl)
  have hput := putEngine_front (s := s) (y := y) rfl (by rw [← horder, show y.side = .line from hside]; rfl) her hruns hkept
  rw [show y.side = .line from hside] at hput
  obtain ⟨t, ht, htouch⟩ := next_touches (c := .pDrop e) ((exec_of_executes (y := y) rfl h rfl rfl).trans (by rw [hput]))
  have hleft : Touches (.events 9 :: discardParts) (leaveParse y u) s := by
    rw [hleave]
    exact ((touches_discardFrame _ _ _).trans ((touches_ev 0x0509 _).trans
      ((touches_vacated e _).trans (touches_setEngine e y s)))).widen rfl
  have hall : Touches (.events 9 :: discardParts) t s := (htouch.trans ((touches_setOrder _ _ _).trans hleft)).widen rfl
  refine ⟨t, ht, ?_, ?_, by rw [hall.flw rfl], hall.pwr rfl, hall.pf rfl⟩
  · rw [engine?, htouch.prs rfl, ← engine?, engine?_setOrder]
    exact (hkept.engine?_eq e).trans (engine?_vacated_same e (setEngine e y s))
  · rw [htouch.prs rfl]
    exact orderLine_setOrder _ _

/-! ### The 97th instruction, and a word that fails to decode -/

theorem parseTruncSteps_stops (hengine : engine? s e = some x) (hended : x.ended = none) (hwait : x.wait = none)
    (hsteps : 96 ≤ x.steps) (hruns : frontRuns s (orderOf s x.side)) (hbehind : ∀ r, orderOf s x.side ≠ e :: r) :
    BecomesCounting (.parseTruncSteps e) 0x0502 0 s (setEngine e (x.truncated 2) s) := by
  have hrow : exec (.parseTruncSteps e) s = execParseTruncSteps e s := rfl
  exact becomesCounting_of_stops (x := x) (by simp [hrow, execParseTruncSteps, hengine, hended, hwait, hsteps]) rfl hruns hbehind
    (by decide)

theorem parseTruncSteps_within (hengine : engine? s e = some x) (hsteps : x.steps < 96) : Becomes (.parseTruncSteps e) s s := by
  have hrow : exec (.parseTruncSteps e) s = execParseTruncSteps e s := rfl
  exact becomes_self (by simp [hrow, execParseTruncSteps, hengine, hsteps])

theorem badInstruction_stops (hengine : engine? s e = some x) (hrunning : x.running = true) (hfetch : fetchP s x = none)
    (hruns : frontRuns s (orderOf s x.side)) (hbehind : ∀ r, orderOf s x.side ≠ e :: r) :
    BecomesCounting (.badInstruction e) 0x0506 0 s (setEngine e ((x.flag 3).stop) s) := by
  have hrow : exec (.badInstruction e) s = execBadInstruction e s := rfl
  exact becomesCounting_of_stops (x := x) (by simp [hrow, execBadInstruction, hengine, hrunning, hfetch]) rfl hruns hbehind
    (by decide)

theorem badInstruction_executes {i : PInstr} (h : Executes e i s x) : Becomes (.badInstruction e) s s := by
  obtain ⟨hengine, -, hfetch⟩ := h
  have hrow : exec (.badInstruction e) s = execBadInstruction e s := rfl
  exact becomes_self (by simp [hrow, execBadInstruction, hengine, hfetch])

/-! ### Dispatch (R156, R160, R161) -/

theorem parseDispatch_enters {sd : Side} {p q : Packet} {s1 s2 : State} {v a : Nat} (hindex : e < 128)
    (hon : on s (35 + e / 32) = true) (hready : parseReady s = true) (hidle : engine? s e = none)
    (hnext : nextPacket sd s = some (p, s1)) (hstamp : stampPacket p s1 = some (v, q, s2)) (hkind : q.kind ≠ .recirc)
    (hfaulty : (version (setOrder sd (orderOf s2 sd ++ [e]) s2) v).faulty = false)
    (hentry : nth (version (setOrder sd (orderOf s2 sd ++ [e]) s2) v).entry (kindCode q.kind) none = some a) :
    Becomes (.parseDispatch sd e) s
      (setEngine e { engineEntry sd q v with pc := a } (setOrder sd (orderOf s2 sd ++ [e]) s2)) := by
  have hrow : exec (.parseDispatch sd e) s = execParseDispatch sd e s := rfl
  refine becomes_of_exec_eq_done (u := putEngine e { engineEntry sd q v with pc := a } [] (setOrder sd (orderOf s2 sd ++ [e]) s2))
    ?_ (by rw [putEngine_of_going e [] _ rfl]; exact .refl _)
  rw [hrow, execParseDispatch, if_pos (by simp [hindex, hon, hready, hidle])]
  simp only [hnext, hstamp, hfaulty, hentry, hkind, if_false, Bool.false_eq_true]

theorem parseDispatch_idle {sd : Side} (hnext : nextPacket sd s = none) : Becomes (.parseDispatch sd e) s s := by
  have hrow : exec (.parseDispatch sd e) s = execParseDispatch sd e s := rfl
  refine becomes_self ?_
  rw [hrow, execParseDispatch]
  split
  · simp only [hnext]
  · rfl

end Release

theorem engineEntry_reg_zero (sd : Side) (p : Packet) (v : Nat) {n : Nat} (hn : n < 13) : (engineEntry sd p v).reg n = 0 := by
  simp only [Engine.reg, engineEntry, nth, List.getD_eq_getElem?_getD]
  rw [List.getElem?_append_left (by simpa using hn), List.getElem?_replicate, if_pos hn]
  rfl

/-- Settles O25. -/
theorem parsePrograms : Obligations.ParsePrograms := by
  unfold Obligations.ParsePrograms
  exact ⟨fun _ _ _ _ _ _ _ _ _ => parseDispatch_enters, fun _ _ _ => parseDispatch_idle,
    fun sd p v => ⟨rfl, rfl, rfl, rfl, rfl, fun _ => engineEntry_reg_zero sd p v⟩,
    fun _ _ _ h hruns hbehind _ => becomes_of_ends_behind rfl h rfl rfl rfl hruns hbehind,
    fun _ _ _ _ h hruns hbehind _ => becomes_of_ends_behind rfl h rfl rfl rfl hruns hbehind,
    fun _ _ _ h hruns hbehind _ => becomes_of_ends_behind rfl h rfl rfl rfl hruns hbehind,
    fun _ _ _ _ => pDone_leaves, fun _ _ _ _ => pDrop_leaves,
    fun _ _ _ hengine hended hwait hsteps hruns hbehind _ => parseTruncSteps_stops hengine hended hwait hsteps hruns hbehind,
    fun _ _ _ => parseTruncSteps_within,
    fun _ _ _ hengine hrunning hfetch hruns hbehind _ => badInstruction_stops hengine hrunning hfetch hruns hbehind,
    fun _ _ _ _ => badInstruction_executes⟩

end Sys2Proof.Machine
end

section
/-! Seconds and performance bins (R151-R153). -/

namespace Sys2Proof.Machine

/-! ### A change of every entity -/

theorem entities_nodup : entities.Nodup := by
  have hcircuits : ((List.range 256).map (0x1000 + ·)).Nodup := List.nodup_range.map fun a b h => by simpa using h
  have hstreams : ((List.range 64).map (0x2000 + ·)).Nodup := List.nodup_range.map fun a b h => by simpa using h
  refine List.nodup_cons.mpr ⟨by simp, List.nodup_append'.mpr ⟨hcircuits, hstreams, ?_⟩⟩
  simp only [List.disjoint_left, List.mem_map, List.mem_range]
  rintro _ ⟨a, ha, rfl⟩ ⟨b, -, hb⟩
  omega

/-- An operation on one entity: its performance record becomes what `F` says of it, whatever the records of the others. -/
def PerEntity (F : Nat → Perf → Perf) (g : State → Nat → State) (s : State) : Prop :=
  ∀ m e, g { s with perf := m } e = { s with perf := mput perfReset m e (F e (mget perfReset m e)) }

theorem PerEntity.foldl {F : Nat → Perf → Perf} {g : State → Nat → State} {s : State} (hg : PerEntity F g s) {l : List Nat}
    (hl : l.Nodup) (m : Map Perf) :
    ∃ m', l.foldl g { s with perf := m } = { s with perf := m' } ∧
      ∀ e, mget perfReset m' e = if e ∈ l then F e (mget perfReset m e) else mget perfReset m e := by
  induction l generalizing m with
  | nil => exact ⟨m, rfl, fun e => by simp⟩
  | cons a r ih =>
    obtain ⟨har, hr⟩ := List.nodup_cons.mp hl
    obtain ⟨m', hfold, hget⟩ := ih hr (mput perfReset m a (F a (mget perfReset m a)))
    refine ⟨m', by rw [List.foldl_cons, hg, hfold], fun e => ?_⟩
    rw [hget]
    by_cases hea : e = a
    · subst hea
      simp [har]
    · simp [hea, mget_mput_of_ne]

theorem perEntity_next {F : Nat → Perf → Perf} {g : State → Nat → State} {s : State} {c : Instr} (hg : PerEntity F g s)
    (hexec : exec c s = done s (entities.foldl g s)) :
    ∃ t, exec c s = .next t ∧ Agree t { s with perf := t.perf } ∧ ∀ e ∈ entities, perf t e = F e (perf s e) := by
  obtain ⟨m, hfold, hget⟩ := hg.foldl entities_nodup s.perf
  obtain ⟨t, ht, htouch⟩ := next_touches (hexec.trans (congrArg (done s) hfold))
  refine ⟨t, ht, ((htouch.trans (touches_perf s m)).widen rfl : Touches [.perf, .events 9] t s).agree, fun e he => ?_⟩
  rw [perf, htouch.perf rfl]
  exact (hget e).trans (if_pos he)

/-! ### A second (R151) -/

/-- The lengths of the current bins, and the errored blocks of the 15-minute bin, are the same. -/
structure SameLengths (x y : Perf) : Prop where
  elapsed15 : x.cur15.elapsed = y.cur15.elapsed
  elapsed24 : x.cur24.elapsed = y.cur24.elapsed
  eb15 : x.cur15.eb = y.cur15.eb

namespace SameLengths
variable {x y z : Perf}

@[refl] protected theorem refl (x : Perf) : SameLengths x x := ⟨rfl, rfl, rfl⟩

protected theorem trans (h : SameLengths x y) (k : SameLengths y z) : SameLengths x z :=
  ⟨h.elapsed15.trans k.elapsed15, h.elapsed24.trans k.elapsed24, h.eb15.trans k.eb15⟩

end SameLengths

theorem elapsed_add (far : Bool) (c : SecCount) (b : Bin) : (b.add far c).elapsed = b.elapsed := by cases far <;> rfl

theorem eb_add (far : Bool) (c : SecCount) (b : Bin) : (b.add far c).eb = b.eb := by cases far <;> rfl

theorem sameLengths_addBack (far : Bool) (back : Nat) (c : SecCount) (x : Perf) : SameLengths (addBack far back c x) x := by
  have first : SameLengths (if back < x.cur15.elapsed then { x with cur15 := x.cur15.add far c }
      else match x.recent with
        | b :: r => { x with recent := b.add far c :: r }
        | [] => x) x := by
    split
    · exact ⟨elapsed_add _ _ _, rfl, eb_add _ _ _⟩
    · split
      · exact ⟨rfl, rfl, rfl⟩
      · rfl
  have second (y : Perf) : SameLengths (if back < y.cur24.elapsed then { y with cur24 := y.cur24.add far c }
      else { y with prev24 := y.prev24.map (·.add far c) }) y := by
    split
    · exact ⟨rfl, elapsed_add _ _ _, rfl⟩
    · exact ⟨rfl, rfl, rfl⟩
  exact (second _).trans first

theorem sameLengths_reclass (far toUnavail : Bool) (run : List (Bool × Bool × Nat)) (x : Perf) :
    SameLengths (reclass far toUnavail run x) x :=
  List.foldlRecOn (motive := (SameLengths · x)) _ _ (.refl x) fun _ hy _ _ => (sameLengths_addBack _ _ _ _).trans hy

theorem sameLengths_classify (far : Bool) (sec : Bool × Bool × Nat) (a : Avail) (x : Perf) :
    SameLengths (classify far sec a x).2 x := by
  unfold classify
  extract_lets
  split
  · exact (sameLengths_reclass _ _ _ _).trans (sameLengths_addBack _ _ _ _)
  · exact sameLengths_addBack _ _ _ _

/-- The current bins take a second of any kind. -/
def tickedSecond (s : State) (e : Nat) (x : Perf) : Perf :=
  let tick (len : Nat) : Bin → Bin := Bin.tick (moduleSecs s) len x.errored (entityDs s e) (s.tmu.st != .locked)
  { x with cur15 := tick 900 x.cur15, cur24 := tick 86400 x.cur24 }

/-- The near end's second is classified, … -/
def nearSecond (s : State) (e : Nat) (x : Perf) : Avail × Perf :=
  classify false (secondOf x.errored (x.defect || entityDefect s e)) (tickedSecond s e x).near (tickedSecond s e x)

/-- … and then that of the far end of a circuit. -/
def farSecond (s : State) (e : Nat) (x : Perf) : Avail × Perf :=
  if e / 4096 = 1 then
    classify true (secondOf x.feErrored (x.feDefect || entityFarDefect s e)) (nearSecond s e x).2.far (nearSecond s e x).2
  else ((nearSecond s e x).2.far, (nearSecond s e x).2)

/-- What a second leaves of the performance record of an entity (R151). -/
def closedSecond (s : State) (e : Nat) (x : Perf) : Perf :=
  { (farSecond s e x).2 with
    near := (nearSecond s e x).1, far := (farSecond s e x).1, blocks := 0, errored := 0, defect := entityDefect s e
    feErrored := 0, feDefect := entityFarDefect s e }

theorem perEntity_closeSecond (s : State) : PerEntity (closedSecond s) closeSecond s := fun _ _ => rfl

theorem sameLengths_farSecond (s : State) (e : Nat) (x : Perf) : SameLengths (farSecond s e x).2 (tickedSecond s e x) := by
  unfold farSecond
  split
  · exact (sameLengths_classify _ _ _ _).trans (sameLengths_classify _ _ _ _)
  · exact sameLengths_classify _ _ _ _

theorem closedSecond_spec (s : State) (e : Nat) (x : Perf) :
    (closedSecond s e x).blocks = 0 ∧ (closedSecond s e x).errored = 0 ∧ (closedSecond s e x).defect = entityDefect s e ∧
      (closedSecond s e x).cur15.elapsed = x.cur15.elapsed + 1 ∧ (closedSecond s e x).cur24.elapsed = x.cur24.elapsed + 1 ∧
      (closedSecond s e x).cur15.eb = x.cur15.eb + x.errored := by
  have h := sameLengths_farSecond s e x
  exact ⟨rfl, rfl, rfl, h.elapsed15, h.elapsed24, h.eb15⟩

section Bins
variable {s : State}

theorem secondBoundary_latches (htime : timeReady s = true) (hfw : fwWorks s = true) (hon : on s 3 = true) :
    ∃ t, exec .secondBoundary s = .next t ∧ Agree t { s with perf := t.perf } ∧
      ∀ e ∈ entities, (perf t e).blocks = 0 ∧ (perf t e).errored = 0 ∧ (perf t e).defect = entityDefect s e ∧
        (perf t e).cur15.elapsed = (perf s e).cur15.elapsed + 1 ∧ (perf t e).cur24.elapsed = (perf s e).cur24.elapsed + 1 ∧
        (perf t e).cur15.eb = (perf s e).cur15.eb + (perf s e).errored := by
  have hrow : exec .secondBoundary s = execSecondBoundary s := rfl
  obtain ⟨t, ht, hagree, hperf⟩ := perEntity_next (perEntity_closeSecond s)
    (hrow.trans (by simp [execSecondBoundary, htime, hfw, hon]))
  exact ⟨t, ht, hagree, fun e he => by rw [hperf e he]; exact closedSecond_spec s e _⟩

/-- What a second that passes unclassified leaves. -/
def droppedSecond (s : State) (e : Nat) (x : Perf) : Perf :=
  { x with blocks := 0, errored := 0, defect := entityDefect s e, feErrored := 0, feDefect := entityFarDefect s e }

theorem secondBoundary_drops (htime : timeReady s = true) (hfw : fwWorks s = false) :
    ∃ t, exec .secondBoundary s = .next t ∧ Agree t { s with perf := t.perf } ∧
      ∀ e ∈ entities, (perf t e).blocks = 0 ∧ (perf t e).errored = 0 ∧ (perf t e).cur15 = (perf s e).cur15 ∧
        (perf t e).cur24 = (perf s e).cur24 := by
  have hrow : exec .secondBoundary s = execSecondBoundary s := rfl
  obtain ⟨t, ht, hagree, hperf⟩ := perEntity_next (F := droppedSecond s) (g := dropSecond) (fun _ _ => rfl)
    (hrow.trans (by simp [execSecondBoundary, htime, hfw]))
  exact ⟨t, ht, hagree, fun e he => by rw [hperf e he]; exact ⟨rfl, rfl, rfl, rfl⟩⟩

theorem noTime_idle (htime : timeReady s = false) :
    Becomes .secondBoundary s s ∧ (∀ d, Becomes (.binClose d) s s) ∧ Becomes .binFinal s s := by
  have hsecond : exec .secondBoundary s = execSecondBoundary s := rfl
  have hclose (d : Bool) : exec (.binClose d) s = execBinClose d s := rfl
  have hfinal : exec .binFinal s = execBinFinal s := rfl
  exact ⟨becomes_self (by simp [hsecond, execSecondBoundary, htime]),
    fun d => becomes_self (by simp [hclose, execBinClose, htime]), becomes_self (by simp [hfinal, execBinFinal, htime])⟩

/-! ### Bins (R152, R153) -/

theorem binClose_quarter (htime : timeReady s = true) (hon : on s 3 = true) (hsecs : moduleSecs s % 900 = 0) :
    ∃ t, exec (.binClose false) s = .next t ∧ Agree t { s with perf := t.perf } ∧
      ∀ e ∈ entities, (perf t e).recent = ((perf s e).cur15.close 900 :: (perf s e).recent).take 32 ∧
        (perf t e).cur15 = { binReset with start := moduleSecs s } ∧ (perf t e).cur24 = (perf s e).cur24 := by
  have hrow : exec (.binClose false) s = execBinClose false s := rfl
  obtain ⟨t, ht, hagree, hperf⟩ := perEntity_next (s := s) (F := fun _ x => { x with
      recent := (x.cur15.close 900 :: x.recent).take 32, cur15 := { binReset with start := moduleSecs s } })
    (g := _) (fun _ _ => rfl) (hrow.trans (if_neg (by simp [htime, hon, hsecs])))
  exact ⟨t, ht, hagree, fun e he => by rw [hperf e he]; exact ⟨rfl, rfl, rfl⟩⟩

theorem binClose_day (htime : timeReady s = true) (hon : on s 3 = true) (hsecs : moduleSecs s % 86400 = 0) :
    ∃ t, exec (.binClose true) s = .next t ∧ Agree t { s with perf := t.perf } ∧
      ∀ e ∈ entities, (perf t e).prev24 = some ((perf s e).cur24.close 86400) ∧
        (perf t e).cur24 = { binReset with start := moduleSecs s } ∧ (perf t e).cur15 = (perf s e).cur15 := by
  have hrow : exec (.binClose true) s = execBinClose true s := rfl
  obtain ⟨t, ht, hagree, hperf⟩ := perEntity_next (s := s) (F := fun _ x => { x with
      prev24 := some (x.cur24.close 86400), cur24 := { binReset with start := moduleSecs s } })
    (g := _) (fun _ _ => rfl) (hrow.trans (if_neg (by simp [htime, hon, hsecs])))
  exact ⟨t, ht, hagree, fun e he => by rw [hperf e he]; exact ⟨rfl, rfl, rfl⟩⟩

theorem binFinal_settles (htime : timeReady s = true) (hon : on s 3 = true) :
    Becomes .binFinal s { s with perf := mapTab perfReset (fun x => { x with
      recent := x.recent.map (·.settle (moduleSecs s) 900), prev24 := x.prev24.map (·.settle (moduleSecs s) 86400) }) s.perf } := by
  have hrow : exec .binFinal s = execBinFinal s := rfl
  exact becomes_of_exec_eq_done (hrow.trans (if_neg (by simp [htime, hon]))) (.refl _)

end Bins

/-- Settles O26. -/
theorem performanceBins : Obligations.PerformanceBins := by
  unfold Obligations.PerformanceBins
  exact ⟨fun _ => secondBoundary_latches, fun _ => secondBoundary_drops, fun _ => noTime_idle, fun _ => binClose_quarter,
    fun _ => binClose_day, fun _ => binFinal_settles, fun _ _ _ h => if_pos h, fun _ _ _ h => if_neg (Nat.not_le.mpr h),
    fun _ _ h => answers_of_effect rfl h rfl⟩

end Sys2Proof.Machine
end

section
/-! Flow lookup: the entry found, or the miss action, sends the oldest packet on (R181-R186, R201). -/

namespace Sys2Proof.Machine

/-! ### Operations on states that agree leave states that agree -/

namespace Agree
variable {t u : State}

theorem version_eq (h : Agree t u) (v : Nat) : version t v = version u v := by simp only [version, h.prs]

protected theorem setVersion (h : Agree t u) (v : Nat) (x : Version) : Agree (setVersion v x t) (setVersion v x u) := by
  unfold setVersion
  split
  · exact { h with prs := by rw [h.prs] }
  · exact { h with prs := by rw [h.prs] }

protected theorem unref (h : Agree t u) (p : Packet) : Agree (unref p t) (unref p u) := by
  unfold unref
  split
  · exact h
  · rw [h.version_eq]
    exact h.setVersion _ _

protected theorem admitted (h : Agree t u) (sd : Side) (p : Packet) : Agree (admitted sd p t) (admitted sd p u) := by
  cases sd
  · exact { h with sch := congrArg (fun x : Sch => { x with inLine := x.inLine ++ [p] }) h.sch }
  · exact { h with sch := congrArg (fun x : Sch => { x with inClient := x.inClient ++ [p] }) h.sch }

protected theorem setCirc (h : Agree t u) (c : Nat) (x : Circuit) : Agree (setCirc c x t) (setCirc c x u) :=
  { h with cir := congrArg (fun y : Cir => { y with circuits := mput circuitReset y.circuits c x }) h.cir }

end Agree

/-! ### A packet leaves its version, or the module -/

section Leaving
variable {p : Packet} {s t : State}

theorem keepsVersion_of_touches {l : List Part} (h : Touches l t s) (hl : l.contains .prs = false) (hp : keepsVersion p s) :
    keepsVersion p t := fun v hv => by
  rw [version, h.prs hl, ← version]
  exact hp v hv

/-- Not the last reference of a DRAINING version: only the reference goes. -/
theorem dropRef_of_keeps (h : keepsVersion p s) : dropRef p s = unref p s := by
  cases hv : p.version with
  | none => simp only [dropRef, unref, hv]
  | some v =>
    have hlast : ¬((version s v).st = .draining ∧ (version s v).refs - 1 = 0) := fun hd => by
      obtain hst | hrefs := h v hv
      · exact hst hd.1
      · exact hrefs hd.2
    simp only [dropRef, unref, hv]
    exact if_neg hlast

theorem touches_unref (p : Packet) (s : State) : Touches [.prs] (unref p s) s := by
  unfold unref
  split
  · rfl
  · exact touches_setVersion _ _ _

theorem txFinal_unowned (status egress : Nat) (outcome : Option Word) (reason : Nat) (s : State) (h : p.tx = none) :
    txFinal p status egress outcome reason s = s := by
  unfold txFinal
  rw [h]

/-- A frame that nobody waits for is discarded: its reference goes. -/
theorem discardFrame_unclaimed (b : Bool) (htx : p.tx = none) (hpromise : p.promise = none) (hversion : keepsVersion p s) :
    discardFrame p b s = unref p s := by
  simp only [discardFrame, hpromise, Option.isSome_none, Bool.false_eq_true, if_false]
  rw [txFinal_unowned _ _ _ _ _ htx, dropRef_of_keeps hversion]

theorem Touches.schedReady {l : List Part} (h : Touches l t s) (hpwr : l.contains .pwr = false) (hsch : l.contains .sch = false) :
    schedReady t = Machine.schedReady s := by
  simp only [Machine.schedReady, h.on_eq 41 hpwr, h.sch hsch]

theorem toAdmission_of_ready {sd : Side} (h : schedReady s = true) : toAdmission sd p s = admitted sd p s := by
  cases sd
  · exact if_pos h
  · exact if_pos h

theorem touches_admitted (sd : Side) (p : Packet) (s : State) : Touches [.nodes, .sch] (admitted sd p s) s := by
  cases sd
  · exact touches_sch s _
  · exact touches_sch s _

end Leaving

/-! ### The oldest packet is taken and looked up -/

theorem touches_dequeued (sd : Side) (s : State) : Touches [.flw] (dequeued sd s) s := by
  cases sd
  · exact touches_flw s _
  · exact touches_flw s _

theorem hitEvent_block (l : FlowLoc) : hitEvent l / 256 = 6 := by cases l <;> simp [hitEvent]

theorem hitEvent_le (l : FlowLoc) : hitEvent l ≤ 0x0602 := by cases l <;> simp [hitEvent]

section Lookup
variable {sd : Side} {s : State} {p : Packet} {r : List Packet} {l : FlowLoc} {e : FlowEnt}

theorem exec_flowLookup (hready : flowReady s = true) (hq : flowQ sd s = p :: r) :
    exec (.flowLookup sd) s = done s (lookupPacket sd p (dequeued sd s)) := by
  have hrow : exec (.flowLookup sd) s = execFlowLookup sd s := rfl
  rw [hrow]
  unfold execFlowLookup
  rw [if_pos hready]
  cases sd
  · have hline : s.flw.inLine = p :: r := hq
    simp only [dequeued, hline, List.tail_cons]
  · have hclient : s.flw.inClient = p :: r := hq
    simp only [dequeued, hclient, List.tail_cons]

theorem flowLookup_idle (h : flowReady s = false ∨ flowQ sd s = []) : Becomes (.flowLookup sd) s s := by
  have hrow : exec (.flowLookup sd) s = execFlowLookup sd s := rfl
  refine becomes_self ?_
  rw [hrow]
  unfold execFlowLookup
  obtain hready | hq := h
  · exact if_neg (by simp [hready])
  · split
    · cases sd
      · have hline : s.flw.inLine = [] := hq
        simp only [hline]
      · have hclient : s.flw.inClient = [] := hq
        simp only [hclient]
    · rfl

theorem flowFind_dequeued (sd : Side) (s : State) (k : Key) : flowFind (dequeued sd s).flw k = flowFind s.flw k := by
  cases sd <;> rfl

theorem entAt_dequeued (sd : Side) (s : State) (l : FlowLoc) : entAt (dequeued sd s).flw l = entAt s.flw l := by
  cases sd <;> rfl

/-- A hit: counted, and the context of the entry is applied. -/
theorem exec_flowLookup_hit (hready : flowReady s = true) (hq : flowQ sd s = p :: r)
    (hfind : flowFind s.flw { space := kindCode p.kind, k := p.key } = some l) (hent : entAt s.flw l = some e) :
    exec (.flowLookup sd) s = done s (applyCtx sd e.ctx p (ev (hitEvent l) (dequeued sd s))) := by
  rw [exec_flowLookup hready hq, lookupPacket]
  simp only [flowFind_dequeued, hfind, entAt_dequeued, hent]
  cases l <;> rfl

/-- A miss: counted, and the miss action of the space is applied. -/
theorem exec_flowLookup_miss (hready : flowReady s = true) (hq : flowQ sd s = p :: r)
    (hfind : flowFind s.flw { space := kindCode p.kind, k := p.key } = none) :
    exec (.flowLookup sd) s = done s (applyMiss sd p (ev 0x0603 (dequeued sd s))) := by
  rw [exec_flowLookup hready hq, lookupPacket]
  simp only [flowFind_dequeued, hfind]

/-- The lookup of a packet, up to its count. -/
theorem touches_looked (n : Nat) (sd : Side) (s : State) : Touches [.events (n / 256), .flw] (ev n (dequeued sd s)) s :=
  (touches_ev n _).trans (touches_dequeued sd s)

theorem looked_keepsVersion {n : Nat} (h : keepsVersion p s) : keepsVersion p (ev n (dequeued sd s)) :=
  keepsVersion_of_touches (touches_looked n sd s) (by simp) h

theorem looked_schedReady {n : Nat} (h : schedReady s = true) : schedReady (ev n (dequeued sd s)) = true := by
  rw [(touches_looked n sd s).schedReady (by simp) (by simp), h]

theorem looked_counts {n : Nat} {m : List Part} {t : State} (h : Touches m t (ev n (dequeued sd s)))
    (hm : m.contains (.events (n / 256)) = false) : Counts n 0 1 s t :=
  counts_of_touches h (touches_dequeued sd s) hm (by simp) rfl (by decide)

/-- A second event of the block follows the count of the hit. -/
theorem hit_counts {n : Nat} {m : List Part} {t : State} (h : Touches m t (ev n (ev (hitEvent l) (dequeued sd s)))) (hne : 0x0602 < n)
    (hblock : n / 256 = 6) (hm : m.contains (.events 6) = false) : Counts n 0 1 s t :=
  (counts_both h (.refl [] _) (touches_dequeued sd s) (by have := hitEvent_le l; omega) (by rw [hitEvent_block, hblock]; exact ⟨hm, hm⟩)
    (by simp) (by simp)).2

/-! ### What a context does with its packet (R183, R201) -/

theorem flowLookup_forwards (hready : flowReady s = true) (hq : flowQ sd s = p :: r)
    (hfind : flowFind s.flw { space := kindCode p.kind, k := p.key } = some l) (hent : entAt s.flw l = some e)
    (hact : fld e.ctx.c0 58 56 = 0 ∨ fld e.ctx.c0 58 56 = 3) (hsched : schedReady s = true) (hkeeps : keepsVersion p s) :
    ∃ t, exec (.flowLookup sd) s = .next t ∧ Counts (hitEvent l) 0 1 s t ∧
      Agree t (admitted sd { p with ctx := some e.ctx, queue := some (fld e.ctx.c0 31 14), cls := clsOf (fld e.ctx.c0 55 54),
                                        version := none } (unref p (dequeued sd s))) := by
  let u := ev (hitEvent l) (dequeued sd s)
  let q : Packet := { p with ctx := some e.ctx, queue := some (fld e.ctx.c0 31 14), cls := clsOf (fld e.ctx.c0 55 54),
                             version := none }
  have happly : applyCtx sd e.ctx p u = toAdmission sd q (dropRef p u) := by
    obtain h | h := hact
    · simp only [applyCtx, h, if_true]
      rfl
    · simp only [applyCtx, h]
      rfl
  have hdrop : dropRef p u = unref p u := dropRef_of_keeps (looked_keepsVersion hkeeps)
  have hsched' : schedReady (unref p u) = true := by
    rw [(touches_unref p u).schedReady rfl rfl]
    exact looked_schedReady hsched
  obtain ⟨t, ht, htouch⟩ := next_touches ((exec_flowLookup_hit hready hq hfind hent).trans
    (congrArg (done s) (happly.trans (by rw [hdrop, toAdmission_of_ready hsched']))))
  have hu : Touches [.events 9, .nodes, .sch, .prs] t u := (htouch.trans ((touches_admitted _ _ _).trans (touches_unref p u))).widen rfl
  refine ⟨t, ht, looked_counts hu (by rw [hitEvent_block]; rfl), ?_⟩
  exact htouch.agree.trans (((agree_ev _ _).unref p).admitted sd q)

theorem flowLookup_recirculates (hready : flowReady s = true) (hq : flowQ sd s = p :: r)
    (hfind : flowFind s.flw { space := kindCode p.kind, k := p.key } = some l) (hent : entAt s.flw l = some e)
    (hact : fld e.ctx.c0 58 56 = 2) (hkind : p.kind ≠ .recirc) (hsched : schedReady s = true) :
    ∃ t, exec (.flowLookup sd) s = .next t ∧ Counts 0x060E 0 1 s t ∧
      Agree t (admitted sd { p with ctx := some e.ctx, queue := some (fld e.ctx.c0 31 14), cls := clsOf (fld e.ctx.c0 55 54) }
        (dequeued sd s)) := by
  let u := ev (hitEvent l) (dequeued sd s)
  let q : Packet := { p with ctx := some e.ctx, queue := some (fld e.ctx.c0 31 14), cls := clsOf (fld e.ctx.c0 55 54) }
  have happly : applyCtx sd e.ctx p u = toAdmission sd q (ev 0x060E u) := by
    simp only [applyCtx, hact, hkind, if_false]
    rfl
  have hsched' : schedReady (ev 0x060E u) = true := by
    rw [(touches_ev 0x060E u).schedReady rfl rfl]
    exact looked_schedReady hsched
  obtain ⟨t, ht, htouch⟩ := next_touches ((exec_flowLookup_hit hready hq hfind hent).trans
    (congrArg (done s) (happly.trans (toAdmission_of_ready hsched'))))
  refine ⟨t, ht, hit_counts (htouch.trans (touches_admitted _ _ _)) (by decide) rfl rfl, ?_⟩
  have hu : Agree (ev 0x060E u) (dequeued sd s) := (agree_ev _ _).trans (agree_ev _ _)
  exact htouch.agree.trans (hu.admitted sd q)

theorem flowLookup_drops (hready : flowReady s = true) (hq : flowQ sd s = p :: r)
    (hfind : flowFind s.flw { space := kindCode p.kind, k := p.key } = some l) (hent : entAt s.flw l = some e)
    (hact : fld e.ctx.c0 58 56 = 5) (htx : p.tx = none) (hpromise : p.promise = none) (hkeeps : keepsVersion p s) :
    ∃ t, exec (.flowLookup sd) s = .next t ∧ Counts 0x0604 0 1 s t ∧ Agree t (unref p (dequeued sd s)) := by
  let u := ev (hitEvent l) (dequeued sd s)
  have happly : applyCtx sd e.ctx p u = discardFrame { p with ctx := some e.ctx } false (ev 0x0604 u) := by
    simp only [applyCtx, hact]
    rfl
  have hdiscard : discardFrame { p with ctx := some e.ctx } false (ev 0x0604 u) = unref p (ev 0x0604 u) :=
    discardFrame_unclaimed (p := { p with ctx := some e.ctx }) false htx hpromise
      (keepsVersion_of_touches (p := p) (touches_ev 0x0604 u) rfl (looked_keepsVersion hkeeps))
  obtain ⟨t, ht, htouch⟩ := next_touches ((exec_flowLookup_hit hready hq hfind hent).trans
    (congrArg (done s) (happly.trans hdiscard)))
  refine ⟨t, ht, hit_counts (htouch.trans (touches_unref _ _)) (by decide) rfl rfl, ?_⟩
  exact htouch.agree.trans (((agree_ev _ _).trans (agree_ev _ _)).unref p)

/-- What `toCircuit` weighs is the same. -/
theorem chooseQuad_ev (n : Nat) (s : State) : chooseQuad (ev n s) = chooseQuad s := by
  have hon (d : Nat) : on (ev n s) d = on s d := (touches_ev n s).on_eq d (by simp)
  have hbuffered : buffered (ev n s) = buffered s := by
    unfold ev count
    split
    · rfl
    · rfl
  have hfree (k : Nat) : freeCells (ev n s) k = freeCells s k := by simp only [freeCells, hbuffered]
  have hquad (k : Nat) : quadReady (ev n s) k = quadReady s k := by
    simp only [quadReady, hon, (touches_ev n s).sch (by simp)]
  simp only [chooseQuad, hquad, hfree]

theorem chooseQuad_dequeued (sd : Side) (s : State) : chooseQuad (dequeued sd s) = chooseQuad s := by cases sd <;> rfl

theorem Touches.blocksOf {m : List Part} {t : State} (h : Touches m t s) (hm : m.contains .cir = false) (page c : Nat) (up : Bool) :
    blocksOf t page c up = Machine.blocksOf s page c up := by
  simp only [Machine.blocksOf, runsOf, h.slice' hm]

theorem flowLookup_toCircuit {k : Nat} (hready : flowReady s = true) (hq : flowQ sd s = p :: r)
    (hfind : flowFind s.flw { space := kindCode p.kind, k := p.key } = some l) (hent : entAt s.flw l = some e)
    (hact : fld e.ctx.c0 58 56 = 1) (hfirst : p.firstKind ≠ .line) (hkeeps : keepsVersion p s)
    (hon : on s (19 + fld e.ctx.c0 13 6 % 16) = true) (hquad : chooseQuad s = some k)
    (hroom : (((circ s (fld e.ctx.c0 13 6)).ingress.map fun f => gfpLen f + 8).sum) + gfpLen p + 8
      ≤ (circ s (fld e.ctx.c0 13 6)).q * payloadBytes (blocksOf s s.cir.active (fld e.ctx.c0 13 6) true)) :
    ∃ t, exec (.flowLookup sd) s = .next t ∧ Counts (hitEvent l) 0 1 s t ∧
      Agree t (setCirc (fld e.ctx.c0 13 6) { circ s (fld e.ctx.c0 13 6) with
        ingress := (circ s (fld e.ctx.c0 13 6)).ingress ++
          [{ p with ctx := some e.ctx, version := none, circuit := some (fld e.ctx.c0 13 6), delivery := .circuit, quadrant := k }] }
        (unref p (dequeued sd s))) := by
  let u := ev (hitEvent l) (dequeued sd s)
  let c := fld e.ctx.c0 13 6
  let x : Circuit := { circ s c with ingress := (circ s c).ingress ++
    [{ p with ctx := some e.ctx, version := none, circuit := some c, delivery := .circuit, quadrant := k }] }
  have hu : Touches [.events (hitEvent l / 256), .flw] u s := touches_looked (hitEvent l) sd s
  have hcirc : circ u c = circ s c := hu.circ (by simp) c
  have hcirc' : circ (unref p u) c = circ s c := ((touches_unref p u).circ rfl c).trans hcirc
  have hblocks : blocksOf u u.cir.active c true = blocksOf s s.cir.active c true := by
    rw [hu.blocksOf (by simp), hu.cir (by simp)]
  have hquad' : chooseQuad u = some k := by rw [chooseQuad_ev, chooseQuad_dequeued, hquad]
  have hdrop : dropRef { p with ctx := some e.ctx } u = unref p u :=
    dropRef_of_keeps (p := { p with ctx := some e.ctx }) (looked_keepsVersion (p := p) hkeeps)
  have happly : applyCtx sd e.ctx p u = toCircuit c { p with ctx := some e.ctx } u := by
    simp only [applyCtx, hact, hfirst]
    rfl
  have hplace : toCircuit c { p with ctx := some e.ctx } u = setCirc c x (unref p u) := by
    simp only [toCircuit, hu.on_eq _ (by simp : List.contains [Part.events (hitEvent l / 256), .flw] .pwr = false), hdrop,
      show on s (19 + c % 16) = true from hon, hquad', hcirc, hcirc', hblocks]
    exact if_neg (Nat.not_lt.mpr hroom)
  obtain ⟨t, ht, htouch⟩ := next_touches ((exec_flowLookup_hit hready hq hfind hent).trans
    (congrArg (done s) (happly.trans hplace)))
  have hall : Touches [.events 9, .cir, .prs] t u := (htouch.trans ((touches_setCirc c x _).trans (touches_unref p u))).widen rfl
  refine ⟨t, ht, looked_counts hall (by rw [hitEvent_block]; rfl), ?_⟩
  exact htouch.agree.trans (((agree_ev _ _).unref p).setCirc c x)

/-! ### The miss actions (R185) -/

theorem missOf_looked (n : Nat) (sd : Side) (p : Packet) (s : State) : missOf p (ev n (dequeued sd s)) = missOf p s := by
  simp only [missOf, version, (touches_looked n sd s).prs (by simp)]

theorem flowLookup_missDrops (hready : flowReady s = true) (hq : flowQ sd s = p :: r)
    (hfind : flowFind s.flw { space := kindCode p.kind, k := p.key } = none) (hact : (missOf p s).1 = 2)
    (htx : p.tx = none) (hpromise : p.promise = none) (hkeeps : keepsVersion p s) :
    ∃ t, exec (.flowLookup sd) s = .next t ∧ Counts 0x0603 0 1 s t ∧ Counts 0x0604 0 1 s t ∧
      Agree t (unref p (dequeued sd s)) := by
  let u := ev 0x0603 (dequeued sd s)
  have happly : applyMiss sd p u = discardFrame { p with ctx := none } false (ev 0x0604 u) := by
    simp only [applyMiss, missOf_looked, u, hact]
    rfl
  have hdiscard : discardFrame { p with ctx := none } false (ev 0x0604 u) = unref p (ev 0x0604 u) :=
    discardFrame_unclaimed (p := { p with ctx := none }) false htx hpromise
      (keepsVersion_of_touches (p := p) (touches_ev 0x0604 u) rfl (looked_keepsVersion hkeeps))
  obtain ⟨t, ht, htouch⟩ := next_touches ((exec_flowLookup_miss hready hq hfind).trans
    (congrArg (done s) (happly.trans hdiscard)))
  obtain ⟨hmiss, hdrop⟩ := counts_both (htouch.trans (touches_unref _ _)) (.refl [] u) (touches_dequeued sd s) (by decide)
    ⟨rfl, rfl⟩ (by decide) (by decide)
  exact ⟨t, ht, hmiss, hdrop, htouch.agree.trans (((agree_ev _ _).trans (agree_ev _ _)).unref p)⟩

theorem flowLookup_missQueues (hready : flowReady s = true) (hq : flowQ sd s = p :: r)
    (hfind : flowFind s.flw { space := kindCode p.kind, k := p.key } = none) (hact : (missOf p s).1 = 1)
    (hsched : schedReady s = true) (hkeeps : keepsVersion p s) :
    ∃ t, exec (.flowLookup sd) s = .next t ∧ Counts 0x0603 0 1 s t ∧
      Agree t (admitted sd { p with ctx := none, queue := some ((missOf p s).2 + p.facts.prio), cls := .bestEffort,
                                        version := none } (unref p (dequeued sd s))) := by
  let u := ev 0x0603 (dequeued sd s)
  let q : Packet := { p with ctx := none, queue := some ((missOf p s).2 + p.facts.prio), cls := .bestEffort, version := none }
  have happly : applyMiss sd p u = toAdmission sd q (dropRef p u) := by
    simp only [applyMiss, missOf_looked, u, hact]
    rfl
  have hdrop : dropRef p u = unref p u := dropRef_of_keeps (looked_keepsVersion hkeeps)
  have hsched' : schedReady (unref p u) = true := by
    rw [(touches_unref p u).schedReady rfl rfl]
    exact looked_schedReady hsched
  obtain ⟨t, ht, htouch⟩ := next_touches ((exec_flowLookup_miss hready hq hfind).trans
    (congrArg (done s) (happly.trans (by rw [hdrop, toAdmission_of_ready hsched']))))
  have hu : Touches [.events 9, .nodes, .sch, .prs] t u := (htouch.trans ((touches_admitted _ _ _).trans (touches_unref p u))).widen rfl
  exact ⟨t, ht, looked_counts hu rfl, htouch.agree.trans (((agree_ev _ _).unref p).admitted sd q)⟩

theorem Touches.exceptionRing {m : List Part} {t : State} (h : Touches m t s) (hpwr : m.contains .pwr = false)
    (hdma : m.contains .dma = false) (k : Kind) : exceptionRing t k = Machine.exceptionRing s k := by
  simp only [Machine.exceptionRing, h.on_eq 5 hpwr, h.dma hdma]

theorem flowLookup_missExcepts (hready : flowReady s = true) (hq : flowQ sd s = p :: r)
    (hfind : flowFind s.flw { space := kindCode p.kind, k := p.key } = none) (hact : (missOf p s).1 = 0)
    (hring : exceptionRing s p.kind = none) (htx : p.tx = none) (hkeeps : keepsVersion p s) :
    ∃ t, exec (.flowLookup sd) s = .next t ∧ Counts 0x0603 0 1 s t ∧ Counts 0x0A0D 0 1 s t ∧
      Agree t (unref p (dequeued sd s)) := by
  let u := ev 0x0603 (dequeued sd s)
  have happly : applyMiss sd p u = toException 0x10 { p with ctx := none } u := by
    simp only [applyMiss, missOf_looked, u, hact]
    rfl
  have hdrop : dropRef { p with ctx := none } u = unref p u :=
    dropRef_of_keeps (p := { p with ctx := none }) (looked_keepsVersion (p := p) hkeeps)
  have hring' : exceptionRing (unref p u) p.kind = none := by
    rw [(touches_unref p u).exceptionRing rfl rfl, (touches_looked 0x0603 sd s).exceptionRing rfl rfl, hring]
  have hexcept : toException 0x10 { p with ctx := none } u = ev 0x0A0D (unref p u) := by
    simp only [toException, hdrop, hring']
    exact txFinal_unowned _ _ _ _ _ htx
  obtain ⟨t, ht, htouch⟩ := next_touches ((exec_flowLookup_miss hready hq hfind).trans
    (congrArg (done s) (happly.trans hexcept)))
  obtain ⟨hmiss, hlost⟩ := counts_both htouch (touches_unref p u) (touches_dequeued sd s) (by decide) (by decide) (by decide) (by decide)
  exact ⟨t, ht, hmiss, hlost, htouch.agree.trans ((agree_ev _ _).trans ((agree_ev _ _).unref p))⟩

end Lookup

/-- Settles O29: the actions of an entry, and the miss actions, one by one. -/
theorem flowLookups : Obligations.FlowLookups := by
  unfold Obligations.FlowLookups
  exact ⟨fun _ _ _ _ _ _ => flowLookup_forwards, fun _ _ _ _ _ _ => flowLookup_recirculates, fun _ _ _ _ _ _ => flowLookup_drops,
    fun _ _ _ _ => flowLookup_missDrops, fun _ _ _ _ => flowLookup_missQueues, fun _ _ _ _ => flowLookup_missExcepts,
    fun _ _ _ _ _ _ _ => flowLookup_toCircuit, fun _ _ => flowLookup_idle⟩

end Sys2Proof.Machine
end

section
/-! The flow table's initialisation, and its rehash (R180, R189, R192-R195, R202). -/

namespace Sys2Proof.Machine

/-! ### The generation of the table in use -/

theorem gen_makeMoves (path : List Nat) (free : Nat) (f : Flow) : (makeMoves path free f).1.gen = f.gen := by
  induction path generalizing free f with
  | nil => rfl
  | cons src r ih =>
    simp only [makeMoves]
    split
    · rw [ih]
    · exact ih _ _

theorem gen_placeSlots {sd : Word} {gen : Bool} {e : FlowEnt} {f f1 : Flow} {n moves : Nat}
    (h : placeSlots sd gen e f = some (n, f1, moves)) : f1.gen = f.gen := by
  simp only [placeSlots] at h
  split at h
  · obtain ⟨-, rfl, -⟩ := h
    rfl
  · split at h
    · simp at h
    · obtain ⟨-, rfl, -⟩ := h
      exact gen_makeMoves _ _ f

theorem gen_offerCam (sd : Word) (gen : Bool) (l : List (Nat × FlowEnt)) (f : Flow) (k : Nat) :
    (offerCam sd gen l f k).1.gen = f.gen := by
  induction l generalizing f k with
  | nil => rfl
  | cons x r ih =>
    obtain ⟨n, e⟩ := x
    simp only [offerCam]
    split
    · next hplace =>
      rw [ih]
      exact (gen_placeSlots hplace :)
    · exact ih _ _

theorem gen_migrateSlot {sd : Word} {n j : Nat} {f f1 : Flow} (h : migrateSlot sd n f = some (f1, j)) : f1.gen = f.gen := by
  simp only [migrateSlot] at h
  split at h
  · obtain ⟨rfl, -⟩ := h
    rfl
  · split at h
    · obtain ⟨rfl, -⟩ := h
      rfl
    · split at h
      · obtain ⟨rfl, -⟩ := h
        rfl
      · split at h
        · obtain ⟨rfl, -⟩ := h
          rfl
        · obtain ⟨m, -, hm⟩ := Option.map_eq_some_iff.mp h
          obtain ⟨rfl, -⟩ := hm
          rfl

theorem gen_migrateSlots {sd : Word} {l : List Nat} {f f1 : Flow} {k j : Nat} {room : Bool}
    (h : migrateSlots sd l f k = (f1, j, room)) : f1.gen = f.gen := by
  induction l generalizing f k with
  | nil =>
    obtain ⟨rfl, -⟩ := h
    rfl
  | cons n r ih =>
    simp only [migrateSlots] at h
    split at h
    · obtain ⟨rfl, -⟩ := h
      rfl
    · next hslot => exact (ih h).trans (gen_migrateSlot hslot)

section Rehash
variable {s : State}

theorem touches_setFlow (f : Flow) (s : State) : Touches [.flw] (setFlow f s) s := touches_flw s f

/-! ### Initialisation and the start of a rehash -/

theorem flowTableInit_draws (hon : on s 40 = true) (hinited : s.flw.inited = false) (hseeded : s.flw.seeded = false) :
    Becomes .flowTableInit s { s with free := s.free + 1, flw := { s.flw with
      slots := [], cam := [], tags := [], seed := Config.hwRandom s.free, seeded := true, inited := true } } := by
  have hrow : exec .flowTableInit s = execFlowTableInit s := rfl
  exact becomes_of_exec_eq_done (by simp [hrow, execFlowTableInit, hon, hinited, hseeded, draw, setFlow]) (.refl _)

theorem flowTableInit_keepsSeed (hon : on s 40 = true) (hinited : s.flw.inited = false) (hseeded : s.flw.seeded = true) :
    Becomes .flowTableInit s { s with flw := { s.flw with slots := [], cam := [], tags := [], inited := true } } := by
  have hrow : exec .flowTableInit s = execFlowTableInit s := rfl
  exact becomes_of_exec_eq_done (by simp [hrow, execFlowTableInit, hon, hinited, hseeded, setFlow]) (.refl _)

theorem flowTableInit_idle (h : on s 40 = false ∨ s.flw.inited = true) : Becomes .flowTableInit s s := by
  have hrow : exec .flowTableInit s = execFlowTableInit s := rfl
  exact becomes_self (hrow.trans (if_neg (by simpa [imp_iff_not_or] using h)))

theorem autoRehashStart_starts (hon : on s 40 = true) (hinited : s.flw.inited = true) (hfw : fwWorks s = true)
    (hauto : s.flw.auto = true) (hnone : s.flw.newSeed = none) (hfull : 192 ≤ s.flw.cam.length) :
    BecomesCounting .autoRehashStart 0x060B 0 s { s with free := s.free + 1, flw := { s.flw with
      newSeed := some (Config.hwRandom s.free), p := 0, stalled := false } } := by
  have hrow : exec .autoRehashStart s = execAutoRehashStart s := rfl
  have hexec : exec .autoRehashStart s = done s (startRehash (draw s).1 (draw s).2) :=
    hrow.trans (if_pos (by simp [hon, hinited, hfw, hauto, hnone, hfull]))
  exact becomesCounting_ev_after (l := [.flw, .free]) hexec ((touches_flw { s with free := s.free + 1 } _).trans (touches_free s _)) (by decide) rfl rfl

theorem autoRehashStart_idle (h : s.flw.cam.length < 192 ∨ s.flw.newSeed ≠ none ∨ s.flw.auto = false) :
    Becomes .autoRehashStart s s := by
  have hrow : exec .autoRehashStart s = execAutoRehashStart s := rfl
  refine becomes_self (hrow.trans (if_neg fun hall => ?_))
  simp only [Bool.and_eq_true, Option.isNone_iff_eq_none, decide_eq_true_eq] at hall
  obtain ⟨⟨⟨-, hauto⟩, hnone⟩, hfull⟩ := hall
  obtain h | h | h := h
  · omega
  · exact h hnone
  · simp [h] at hauto

/-! ### A pair is migrated (R193, R195) -/

/-- The table with the entries of a pair moved, and the moves counted. -/
def moved (f : Flow) (k : Nat) (s : State) : State := count 0x060A 0 k (setFlow f s)

theorem touches_moved (f : Flow) (k : Nat) (s : State) : Touches [.events 6, .flw] (moved f k s) s :=
  (touches_count (e := 0x060A) k _ (by decide)).trans (touches_setFlow f s)

theorem flw_moved (f : Flow) (k : Nat) (s : State) : (moved f k s).flw = f :=
  (touches_count (e := 0x060A) k (setFlow f s) (by decide)).flw rfl

theorem migratePair_whole {sd : Word} {f : Flow} {k : Nat} (hmigrate : migrateSlots sd (pairSlots s.flw.p) s.flw 0 = (f, k, true))
    (hlast : s.flw.p + 1 ≠ 131072) :
    migratePair sd s = setFlow { f with p := s.flw.p + 1, stalled := false } (moved f k s) := by
  simp only [migratePair, hmigrate, hlast, if_true, if_false]
  rw [← moved, flw_moved]

theorem migratePair_last {sd : Word} {f : Flow} {k : Nat} (hmigrate : migrateSlots sd (pairSlots s.flw.p) s.flw 0 = (f, k, true))
    (hlast : s.flw.p + 1 = 131072) :
    migratePair sd s = endRehash sd (setFlow { f with p := s.flw.p + 1, stalled := false } (moved f k s)) := by
  simp only [migratePair, hmigrate, hlast, if_true]
  rw [← moved, flw_moved]

theorem migratePair_stalls {sd : Word} {f : Flow} {k : Nat} (hmigrate : migrateSlots sd (pairSlots s.flw.p) s.flw 0 = (f, k, false))
    (hstalled : s.flw.stalled = false) :
    migratePair sd s = evReport 0x060C [word s.flw.p] (setFlow { f with stalled := true } (moved f k s)) := by
  simp only [migratePair, hmigrate, hstalled, Bool.false_eq_true, Bool.false_and, if_false]
  rw [← moved, flw_moved]

/-- A migration that ends with a whole pair, by either of its two rows. -/
theorem pair_migrates {c : Instr} {sd : Word} {f : Flow} {k : Nat} (hexec : exec c s = done s (migratePair sd s))
    (hmigrate : migrateSlots sd (pairSlots s.flw.p) s.flw 0 = (f, k, true)) (hlast : s.flw.p + 1 ≠ 131072) :
    ∃ t, exec c s = .next t ∧ Counts 0x060A 0 k s t ∧ Agree t { s with flw := { f with p := s.flw.p + 1, stalled := false } } := by
  obtain ⟨t, ht, htouch⟩ := next_touches (hexec.trans (congrArg (done s) (migratePair_whole hmigrate hlast)))
  have hset := htouch.trans (touches_setFlow _ _)
  refine ⟨t, ht, counts_of_touches hset (touches_setFlow f s) rfl rfl rfl (by decide), ?_⟩
  have hall : Touches [.events 9, .flw, .events 6] t s := (hset.trans (touches_moved f k s)).widen rfl
  have hflw : t.flw = { f with p := s.flw.p + 1, stalled := false } := htouch.flw rfl
  rw [← hflw]
  exact hall.agree

theorem exec_rehashMigratePair {sd : Word} (hon : on s 40 = true) (hfw : fwWorks s = true) (hnew : s.flw.newSeed = some sd)
    (hstalled : s.flw.stalled = false) : exec .rehashMigratePair s = done s (migratePair sd s) := by
  have hrow : exec .rehashMigratePair s = execRehashMigratePair s := rfl
  simp [hrow, execRehashMigratePair, hon, hfw, hnew, hstalled]

theorem exec_rehashRetry {sd : Word} (hon : on s 40 = true) (hfw : fwWorks s = true) (hnew : s.flw.newSeed = some sd)
    (hstalled : s.flw.stalled = true) : exec .rehashRetry s = done s (migratePair sd s) := by
  have hrow : exec .rehashRetry s = execRehashRetry s := rfl
  simp [hrow, execRehashRetry, hon, hfw, hnew, hstalled]

theorem rehashMigratePair_stalls {sd : Word} {f : Flow} {k : Nat} (hon : on s 40 = true) (hfw : fwWorks s = true)
    (hnew : s.flw.newSeed = some sd) (hstalled : s.flw.stalled = false)
    (hmigrate : migrateSlots sd (pairSlots s.flw.p) s.flw 0 = (f, k, false)) :
    ∃ t, exec .rehashMigratePair s = .next t ∧ Counts 0x060C 0 1 s t ∧
      t.flw = { f with stalled := true } ∧ Agree t { s with flw := t.flw, mbx := t.mbx } := by
  let u := setFlow { f with stalled := true } (moved f k s)
  obtain ⟨t, ht, htouch⟩ := next_touches ((exec_rehashMigratePair hon hfw hnew hstalled).trans
    (congrArg (done s) (migratePair_stalls hmigrate hstalled)))
  have hevent : Touches (.events 9 :: mailParts) t (ev 0x060C u) := (htouch.trans (touches_event _ _ _)).widen rfl
  have hset : Touches (.events 9 :: .events 6 :: mailParts) t u := (hevent.trans (touches_ev 0x060C u)).widen rfl
  have hall : Touches (.events 9 :: .events 6 :: .flw :: mailParts) t s :=
    (hset.trans ((touches_setFlow _ _).trans (touches_moved f k s))).widen rfl
  refine ⟨t, ht, fun h => ?_, hset.flw rfl, hall.agree⟩
  have hmoved := (touches_moved f k s).on_eq (evDom 0x060C 0) rfl
  calc counter t 0x060C 0 = counter (ev 0x060C u) 0x060C 0 := hevent.counter rfl (by decide)
    _ = counter u 0x060C 0 + 1 := counter_count_same 1 (by rw [(touches_setFlow _ _).on_eq _ rfl, hmoved, h])
    _ = counter (moved f k s) 0x060C 0 + 1 := by rw [(touches_setFlow _ _).counter rfl (by decide)]
    _ = counter s 0x060C 0 + 1 := by
      rw [moved, counter_count_of_ne k _ (evKey_of_ne (by decide) (by decide)), (touches_setFlow f s).counter rfl (by decide)]

theorem rehashMigratePair_ends {sd : Word} {f : Flow} {k : Nat} (hon : on s 40 = true) (hfw : fwWorks s = true)
    (hnew : s.flw.newSeed = some sd) (hstalled : s.flw.stalled = false)
    (hmigrate : migrateSlots sd (pairSlots s.flw.p) s.flw 0 = (f, k, true)) (hlast : s.flw.p + 1 = 131072) :
    ∃ t, exec .rehashMigratePair s = .next t ∧ t.flw.seed = sd ∧ t.flw.newSeed = none ∧ t.flw.gen = !s.flw.gen ∧
      t.flw.stalled = false ∧ (∀ q ∈ t.mbx.pend, q.wait ≠ .rehash) := by
  let u := setFlow { f with p := s.flw.p + 1, stalled := false } (moved f k s)
  let o := offerCam sd (!u.flw.gen) u.flw.cam u.flw 0
  let w := count 0x060A 0 o.2 (setFlow { o.1 with seed := sd, newSeed := none, gen := !o.1.gen, stalled := false } u)
  have hend : endRehash sd u = finishWait .rehash 0 [sd] (ev 0x060D w) := rfl
  obtain ⟨t, ht, htouch⟩ := next_touches ((exec_rehashMigratePair hon hfw hnew hstalled).trans
    (congrArg (done s) ((migratePair_last hmigrate hlast).trans hend)))
  have hw : Touches (.events 9 :: .events 6 :: mailParts) t
      (setFlow { o.1 with seed := sd, newSeed := none, gen := !o.1.gen, stalled := false } u) :=
    (htouch.trans ((touches_finishWait _ _ _ _).trans ((touches_ev 0x060D w).trans
      (touches_count (e := 0x060A) _ _ (by decide))))).widen rfl
  have hflw : t.flw = { o.1 with seed := sd, newSeed := none, gen := !o.1.gen, stalled := false } := hw.flw rfl
  have hmigrated : u.flw.gen = s.flw.gen := (gen_migrateSlots hmigrate :)
  have hgen : o.1.gen = s.flw.gen := (gen_offerCam _ _ _ _ _).trans hmigrated
  refine ⟨t, ht, by rw [hflw], by rw [hflw], by rw [hflw, hgen], by rw [hflw], ?_⟩
  rw [htouch.mbx rfl]
  exact wait_finishWait (by decide) _ _ _

theorem rehash_none (h : s.flw.newSeed = none) : Becomes .rehashMigratePair s s ∧ Becomes .rehashRetry s s := by
  have hpair : exec .rehashMigratePair s = execRehashMigratePair s := rfl
  have hretry : exec .rehashRetry s = execRehashRetry s := rfl
  exact ⟨becomes_self (by simp [hpair, execRehashMigratePair, h]), becomes_self (by simp [hretry, execRehashRetry, h])⟩

theorem rehashMigratePair_stalled (h : s.flw.stalled = true) : Becomes .rehashMigratePair s s := by
  have hrow : exec .rehashMigratePair s = execRehashMigratePair s := rfl
  refine becomes_self ?_
  rw [hrow, execRehashMigratePair]
  split
  · exact if_neg (by simp [h])
  · rfl

theorem rehashRetry_unstalled (h : s.flw.stalled = false) : Becomes .rehashRetry s s := by
  have hrow : exec .rehashRetry s = execRehashRetry s := rfl
  refine becomes_self ?_
  rw [hrow, execRehashRetry]
  split
  · exact if_neg (by simp [h])
  · rfl

end Rehash

/-! ### A slot is migrated -/

theorem migrateSlot_new {sd : Word} {n : Nat} {f : Flow} {e : FlowEnt} (hslot : slotOf f n = some e) (hgen : genOf e = !f.gen) :
    migrateSlot sd n f = some (f, 0) := by
  simp [migrateSlot, hslot, hgen]

theorem migrateSlot_stays {sd : Word} {n : Nat} {f : Flow} {e : FlowEnt} (hslot : slotOf f n = some e) (hgen : genOf e = f.gen)
    (hbucket : (candidates sd e.key).1 = n / 4 ∨ (candidates sd e.key).2 = n / 4) :
    migrateSlot sd n f = some ({ f with slots := minsert f.slots n { e with ctx := stampCtx e.key.space (!f.gen) e.ctx } }, 0) := by
  simp [migrateSlot, hslot, hgen, hbucket]

/-- Settles O30. -/
theorem flowRehash : Obligations.FlowRehash := by
  unfold Obligations.FlowRehash
  exact ⟨fun _ => flowTableInit_draws, fun _ => flowTableInit_keepsSeed, fun _ => flowTableInit_idle,
    fun _ => autoRehashStart_starts, fun _ => autoRehashStart_idle,
    fun _ _ _ _ hon hfw hnew hstalled => pair_migrates (exec_rehashMigratePair hon hfw hnew hstalled),
    fun _ _ _ _ hon hfw hnew hstalled => pair_migrates (exec_rehashRetry hon hfw hnew hstalled),
    fun _ _ _ _ => rehashMigratePair_stalls, fun _ _ _ _ => rehashMigratePair_ends, fun _ => rehash_none,
    fun _ => rehashMigratePair_stalled, fun _ => rehashRetry_unstalled, fun _ _ _ _ => migrateSlot_new,
    fun _ _ _ _ => migrateSlot_stays⟩

end Sys2Proof.Machine
end

section
/-! The flow commands of group 0x06 (R182, R187-R192, R432). -/

namespace Sys2Proof.Machine

/-! ### Every copy of a key's entry -/

/-- The entries of a table, with those of a key changed or removed. -/
def keyed (k : Key) (f : FlowEnt → Option FlowEnt) (m : Map FlowEnt) : Map FlowEnt := m.filterMap fun e =>
  if e.2.key = k then (f e.2).map fun x => (e.1, x) else some e

theorem mapKey_eq (k : Key) (f : FlowEnt → Option FlowEnt) (t : Flow) :
    mapKey k f t = { t with slots := keyed k f t.slots, cam := keyed k f t.cam } := rfl

theorem mfind_mem {α : Type} {m : Map α} {n : Nat} {v : α} (h : mfind m n = some v) : (n, v) ∈ m := by
  obtain ⟨e, he, rfl⟩ := Option.map_eq_some_iff.mp h
  have hn : e.1 = n := by simpa using List.find?_some he
  exact hn ▸ List.mem_of_find?_eq_some he

theorem mfind_cons {α : Type} (j n : Nat) (v : α) (r : Map α) :
    mfind ((j, v) :: r) n = if j = n then some v else mfind r n := by
  by_cases h : j = n
  · simp [mfind, h]
  · simp [mfind, h]

/-- What is under a number stays under it, changed where its key is named. -/
theorem mfind_keyed {k : Key} {f : FlowEnt → Option FlowEnt} {m : Map FlowEnt} {n : Nat} {e y : FlowEnt} (h : mfind m n = some e)
    (hy : (if e.key = k then f e else some e) = some y) : mfind (keyed k f m) n = some y := by
  induction m with
  | nil => simp [mfind] at h
  | cons x r ih =>
    obtain ⟨j, x⟩ := x
    rw [mfind_cons] at h
    by_cases hj : j = n
    · obtain rfl : x = e := by simpa [hj] using h
      by_cases hkey : x.key = k
      · rw [if_pos hkey] at hy
        simp [keyed, hkey, hy, mfind, hj]
      · rw [if_neg hkey] at hy
        obtain rfl := Option.some.inj hy
        simp [keyed, hkey, mfind, hj]
    · rw [if_neg hj] at h
      have hr := ih h
      unfold keyed at hr ⊢
      rw [List.filterMap_cons]
      split
      · exact hr
      · next b hb =>
        have hb1 : b.1 = j := by
          split at hb
          · obtain ⟨z, -, rfl⟩ := Option.map_eq_some_iff.mp hb
            rfl
          · exact congrArg Prod.fst (Option.some.inj hb).symm
        obtain ⟨i, z⟩ := b
        rw [mfind_cons, if_neg (by simpa [← hb1] using hj)]
        exact hr

theorem slotOf_mapKey {k : Key} {f : FlowEnt → Option FlowEnt} {t : Flow} {n : Nat} {e y : FlowEnt} (h : slotOf t n = some e)
    (hy : (if e.key = k then f e else some e) = some y) : slotOf (mapKey k f t) n = some y := mfind_keyed h hy

theorem mem_keyed_none {k : Key} {m : Map FlowEnt} {e : Nat × FlowEnt} (h : e ∈ keyed k (fun _ => none) m) :
    e ∈ m ∧ e.2.key ≠ k := by
  obtain ⟨x, hx, hmap⟩ := List.mem_filterMap.mp h
  split at hmap
  · simp at hmap
  · next hkey =>
    obtain rfl := Option.some.inj hmap
    exact ⟨hx, hkey⟩

theorem bucketFind_none {f : Flow} {k : Key} (h : ∀ e ∈ f.slots, e.2.key ≠ k) (b : Nat) : bucketFind f b k = none := by
  refine List.find?_eq_none.mpr fun n _ => ?_
  split
  · next e he => simpa using h (n, e) (mfind_mem he)
  · simp

/-- No entry has the key: it is not found. -/
theorem flowFind_none {f : Flow} {k : Key} (hslots : ∀ e ∈ f.slots, e.2.key ≠ k) (hcam : ∀ e ∈ f.cam, e.2.key ≠ k) :
    flowFind f k = none := by
  have hprobe (sd : Word) : probeSeed f sd k = none := by
    simp only [probeSeed, bucketFind_none hslots]
  have hcamFind : camFind f k = none := by
    simpa [camFind, List.find?_eq_none] using fun n e he => hcam (n, e) he
  simp only [flowFind, hprobe, hcamFind, Option.map_none]
  split
  · next h =>
    split at h <;> simp at h
  · rfl

/-! ### Tags (R187) -/

/-- Reassembly under a tag is closed. -/
def closedTag (tag : Nat) (s : State) : State :=
  if (mfind s.frm.reasm tag).isSome then
    ev 0x0315 { s with frm := { s.frm with reasm := merase s.frm.reasm tag } }
  else s

theorem touches_closedTag (tag : Nat) (s : State) : Touches [.frm, .events 3] (closedTag tag s) s := by
  unfold closedTag
  split
  · exact ((touches_ev _ _).trans (touches_reasm s _ _)).widen rfl
  · rfl

theorem reasm_closedTag (tag : Nat) (s : State) : mfind (closedTag tag s).frm.reasm tag = none := by
  unfold closedTag
  split
  · rw [(touches_ev 0x0315 _).frm rfl]
    exact mfind_merase_same _ _
  · next h => simpa using h

/-- The line keys under a tag are erased. -/
def lineErased (tag : Nat) (s : State) : State :=
  match lineSlot s tag false with
  | some n => eraseKey (n + 1) (eraseKey n s)
  | none => s

theorem touches_lineErased (tag : Nat) (s : State) : Touches keyParts (lineErased tag s) s := by
  unfold lineErased
  split
  · exact ((touches_eraseKey _ _).trans (touches_eraseKey _ _)).widen rfl
  · rfl

theorem flw_removeTag (tag : Nat) (s : State) : (removeTag tag s).flw = { s.flw with tags := merase s.flw.tags tag } := by
  have hflw : (lineErased tag (closedTag tag s)).flw = s.flw :=
    ((touches_lineErased _ _).flw rfl).trans ((touches_closedTag tag s).flw rfl)
  exact congrArg (fun f : Flow => { f with tags := merase f.tags tag }) hflw

theorem reasm_removeTag (tag : Nat) (s : State) : mfind (removeTag tag s).frm.reasm tag = none := by
  have hfrm : (removeTag tag s).frm = (closedTag tag s).frm := (touches_lineErased tag (closedTag tag s)).frm rfl
  rw [hfrm, reasm_closedTag]

/-! ### The commands -/

section FlowCommands
variable {s : State} {ch : Nat}

theorem flowInsert_slot {n k : Nat} {f : Flow} (h : Accepted cmdFlowInsert ch s)
    (hplace : placeEntry (keyArg (msgWords (chan s ch))) (ctxArg (msgWords (chan s ch))) s.flw = some (.slot n, f, k)) :
    Answers (.flowInsert ch) 0x0601 ch .done s (ev 0x0606 (count 0x060A 0 k { s with flw := f })) := by
  refine answers_of_effect rfl h ?_
  simp only [cmdFlowInsert, hplace]
  rfl

theorem flowInsert_cam {n k : Nat} {f : Flow} (h : Accepted cmdFlowInsert ch s)
    (hplace : placeEntry (keyArg (msgWords (chan s ch))) (ctxArg (msgWords (chan s ch))) s.flw = some (.cam n, f, k)) :
    Answers (.flowInsert ch) 0x0601 ch (.note 0x4601 n) s (ev 0x0607 (ev 0x0606 (count 0x060A 0 k { s with flw := f }))) := by
  let u := count 0x060A 0 k (setFlow f s)
  have heffect : cmdFlowInsert.effect ch (msgWords (chan s ch)) s = (ev 0x0607 (ev 0x0606 u), .note 0x4601 n) := by
    simp only [cmdFlowInsert, hplace, u]
  exact answers_of_effect (cmd := cmdFlowInsert) rfl h heffect

theorem flowModify_rewrites (h : Accepted cmdFlowModify ch s) :
    ∃ t, exec (.flowModify ch) s = .next t ∧ t.flw.tags = s.flw.tags ∧ t.flw.seed = s.flw.seed ∧
      (∀ n e, slotOf s.flw n = some e → e.key ≠ keyArg (msgWords (chan s ch)) → slotOf t.flw n = some e) ∧
      (∀ n e, slotOf s.flw n = some e → e.key = keyArg (msgWords (chan s ch)) →
        slotOf t.flw n = some { e with ctx := stampCtx e.key.space (genOf e) (ctxArg (msgWords (chan s ch))) }) := by
  obtain ⟨t, ht, htouch⟩ := accepted_touches (rfl : exec (.flowModify ch) s = _) h rfl
  have hflw : t.flw = mapKey (keyArg (msgWords (chan s ch))) (fun e => some { e with
      ctx := stampCtx (keyArg (msgWords (chan s ch))).space (genOf e) (ctxArg (msgWords (chan s ch))) }) s.flw := htouch.flw rfl
  refine ⟨t, ht, by rw [hflw]; rfl, by rw [hflw]; rfl, fun n e he hkey => ?_, fun n e he hkey => ?_⟩
  · rw [hflw]
    exact slotOf_mapKey he (if_neg hkey)
  · rw [hflw]
    exact slotOf_mapKey he (by rw [if_pos hkey, hkey])

theorem flowDelete_removes (h : Accepted cmdFlowDelete ch s) :
    ∃ t, exec (.flowDelete ch) s = .next t ∧ flowFind t.flw (keyArg (msgWords (chan s ch))) = none ∧
      (∀ n e, slotOf s.flw n = some e → e.key ≠ keyArg (msgWords (chan s ch)) → slotOf t.flw n = some e) ∧
      (∀ e ∈ allEnts t.flw, e ∈ allEnts s.flw) := by
  let k := keyArg (msgWords (chan s ch))
  obtain ⟨t, ht, htouch⟩ := accepted_touches (rfl : exec (.flowDelete ch) s = _) h rfl
  have hflw : t.flw = mapKey k (fun _ => none) s.flw :=
    ((htouch.trans (touches_ev 0x0609 _)).flw rfl : _)
  refine ⟨t, ht, ?_, fun n e he hkey => ?_, fun e he => ?_⟩
  · rw [hflw]
    exact flowFind_none (fun e he => (mem_keyed_none he).2) fun e he => (mem_keyed_none he).2
  · rw [hflw]
    exact slotOf_mapKey he (if_neg hkey)
  · rw [hflw] at he
    obtain he | he := List.mem_append.mp he
    · obtain ⟨x, hx, rfl⟩ := List.mem_map.mp he
      exact List.mem_append_left _ (List.mem_map_of_mem (mem_keyed_none hx).1)
    · obtain ⟨x, hx, rfl⟩ := List.mem_map.mp he
      exact List.mem_append_right _ (List.mem_map_of_mem (mem_keyed_none hx).1)

theorem flowRead_reads {l : FlowLoc} {e : FlowEnt} (h : Accepted cmdFlowRead ch s)
    (hfind : flowFind s.flw (keyArg (msgWords (chan s ch))) = some l) (hent : entAt s.flw l = some e) :
    Answers (.flowRead ch) 0x0604 ch (.data [e.ctx.c0, e.ctx.c1, e.ctx.c2,
      word (match (generalizing := false) l with | .slot n => n | .cam n => 2 ^ 20 + n)]) s s := by
  refine answers_of_effect rfl h ?_
  simp only [cmdFlowRead, hfind, hent] <;> rfl

theorem tagSet_writes (h : Accepted cmdTagSet ch s) :
    ∃ t, exec (.tagSet ch) s = .next t ∧ tagEntry t (fld (argOf s ch 1) 63 44) = some (argOf s ch 1) ∧
      (∀ g, g ≠ fld (argOf s ch 1) 63 44 → tagEntry t g = tagEntry s g) ∧ t.pwr = s.pwr ∧ t.pf = s.pf ∧ t.sch = s.sch := by
  let tag := fld (argOf s ch 1) 63 44
  obtain ⟨t, ht, htouch⟩ := accepted_touches (rfl : exec (.tagSet ch) s = _) h rfl
  have hkeys := htouch.trans (touches_writeTag_keys tag (argOf s ch 1) s)
  have hall := htouch.trans (touches_writeTag tag (argOf s ch 1) s)
  have htags : t.flw.tags = minsert s.flw.tags tag (argOf s ch 1) := by rw [hkeys.flw rfl]
  exact ⟨t, ht, by rw [tagEntry, htags]; exact mfind_minsert_same _ _ _,
    fun g hg => by rw [tagEntry, htags]; exact mfind_minsert_of_ne _ _ hg, hall.pwr rfl, hall.pf rfl, hall.sch rfl⟩

theorem tagRemove_removes (h : Accepted cmdTagRemove ch s) :
    ∃ t, exec (.tagRemove ch) s = .next t ∧ tagEntry t (fld (argOf s ch 1) 19 0) = none ∧
      mfind t.frm.reasm (fld (argOf s ch 1) 19 0) = none ∧
      (∀ g, g ≠ fld (argOf s ch 1) 19 0 → tagEntry t g = tagEntry s g) ∧ t.pwr = s.pwr ∧ t.pf = s.pf ∧ t.sch = s.sch := by
  let tag := fld (argOf s ch 1) 19 0
  obtain ⟨t, ht, htouch⟩ := accepted_touches (rfl : exec (.tagRemove ch) s = _) h rfl
  have hall := htouch.trans (touches_removeTag tag s)
  have htags : t.flw.tags = merase s.flw.tags tag := by
    rw [htouch.flw rfl]
    exact congrArg Flow.tags (flw_removeTag tag s)
  refine ⟨t, ht, by rw [tagEntry, htags]; exact mfind_merase_same _ _, ?_,
    fun g hg => by rw [tagEntry, htags]; exact mfind_merase_of_ne _ hg, hall.pwr rfl, hall.pf rfl, hall.sch rfl⟩
  rw [htouch.frm rfl]
  exact reasm_removeTag tag s

theorem rehash_given (h : Accepted cmdRehash ch s) (hgiven : bit (argOf s ch 1) 0 = true) :
    Answers (.rehash ch) 0x0607 ch (.pend .rehash) s (ev 0x060B { s with flw := { s.flw with
      newSeed := some (argOf s ch 2), p := 0, stalled := false } }) := by
  have hgiven' : bit (arg (msgWords (chan s ch)) 1) 0 = true := hgiven
  refine answers_of_effect rfl h ?_
  simp only [cmdRehash, hgiven', if_true]
  rfl

theorem rehash_drawn (h : Accepted cmdRehash ch s) (hgiven : bit (argOf s ch 1) 0 = false) :
    Answers (.rehash ch) 0x0607 ch (.pend .rehash) s (ev 0x060B { s with free := s.free + 1, flw := { s.flw with
      newSeed := some (Config.hwRandom s.free), p := 0, stalled := false } }) := by
  have hgiven' : bit (arg (msgWords (chan s ch)) 1) 0 = false := hgiven
  refine answers_of_effect rfl h ?_
  simp only [cmdRehash, hgiven', Bool.false_eq_true, if_false]
  rfl

end FlowCommands

/-- Settles O31. -/
theorem flowCommands : Obligations.FlowCommands := by
  unfold Obligations.FlowCommands
  exact ⟨fun _ _ _ _ _ => flowInsert_slot, fun _ _ _ _ _ => flowInsert_cam, fun _ _ => flowModify_rewrites,
    fun _ _ => flowDelete_removes, fun _ _ _ _ => flowRead_reads, fun _ _ => tagSet_writes, fun _ _ => tagRemove_removes,
    fun _ _ => rehash_given, fun _ _ => rehash_drawn, fun _ _ h => answers_of_effect rfl h rfl,
    fun _ _ h => answers_of_effect rfl h rfl⟩

end Sys2Proof.Machine
end

section
/-! Opening a batch and writing its content (R175, R196, R197, R431). -/

namespace Sys2Proof.Machine

/-! ### Consecutive entries of a table -/

/-- Entries `base`, `base + 1`, … of a table, each changed by a function of what it was. -/
def changeRun {α : Type} [DecidableEq α] (d : α) (base n : Nat) (g : Nat → α → α) (m : Map α) : Map α :=
  (List.range n).foldl (fun m k => mput d m (base + k) (g k (mget d m (base + k)))) m

theorem changeRun_succ {α : Type} [DecidableEq α] (d : α) (base n : Nat) (g : Nat → α → α) (m : Map α) :
    changeRun d base (n + 1) g m =
      mput d (changeRun d base n g m) (base + n) (g n (mget d (changeRun d base n g m) (base + n))) := by
  rw [changeRun, List.range_succ, List.foldl_append]
  rfl

theorem mget_changeRun_outside {α : Type} [DecidableEq α] (d : α) {base n a : Nat} (g : Nat → α → α) (m : Map α)
    (h : a < base ∨ base + n ≤ a) : mget d (changeRun d base n g m) a = mget d m a := by
  induction n with
  | zero => rfl
  | succ n ih =>
    rw [changeRun_succ, mget_mput_of_ne _ _ _ (by omega)]
    exact ih (by omega)

theorem mget_changeRun_inside {α : Type} [DecidableEq α] (d : α) {base n k : Nat} (g : Nat → α → α) (m : Map α) (h : k < n) :
    mget d (changeRun d base n g m) (base + k) = g k (mget d m (base + k)) := by
  induction n with
  | zero => omega
  | succ n ih =>
    rw [changeRun_succ]
    by_cases hk : k = n
    · rw [hk, mget_mput_same, mget_changeRun_outside d g m (by omega)]
    · rw [mget_mput_of_ne _ _ _ (by omega)]
      exact ih (by omega)

/-- A run of writes to the program area, or to the comparators, is one change of the pool. -/
theorem foldl_setPword (base n : Nat) (g : Nat → PWord → PWord) (s : State) :
    (List.range n).foldl (fun t k => setPword (base + k) (g k (pword t (base + k))) t) s =
      { s with prs := { s.prs with prog := changeRun pwordReset base n g s.prs.prog } } := by
  induction n with
  | zero => rfl
  | succ n ih =>
    rw [List.range_succ, List.foldl_append, ih, changeRun_succ]
    rfl

theorem foldl_setComp (base n : Nat) (g : Nat → Comparator → Comparator) (s : State) :
    (List.range n).foldl (fun t k => setComp (base + k) (g k (comparator t (base + k))) t) s =
      { s with prs := { s.prs with comps := changeRun compReset base n g s.prs.comps } } := by
  induction n with
  | zero => rfl
  | succ n ih =>
    rw [List.range_succ, List.foldl_append, ih, changeRun_succ]
    rfl

/-! ### Slots -/

theorem buildingSlot_cases {s : State} {v : Nat} (h : buildingSlot s = some v) : v = 0 ∨ v = 1 := by
  unfold buildingSlot at h
  split at h
  · exact .inl (Option.some.inj h).symm
  · split at h
    · exact .inr (Option.some.inj h).symm
    · simp at h

theorem currentSlot_zero {s : State} (h : s.prs.v0.st = .current) : currentSlot s = some 0 := if_pos h

theorem currentSlot_one {s : State} (h0 : s.prs.v0.st ≠ .current) (h1 : s.prs.v1.st = .current) : currentSlot s = some 1 :=
  (if_neg h0).trans (if_pos h1)

/-- A program word that a version drops: the other's hold is the same. -/
theorem dropped_heldBy {v : Nat} (hv : v = 0 ∨ v = 1) (x : PWord) :
    (if (x.hold v false).h0 || (x.hold v false).h1 then x.hold v false else pwordReset).heldBy v = false ∧
      (if (x.hold v false).h0 || (x.hold v false).h1 then x.hold v false else pwordReset).heldBy (1 - v) = x.heldBy (1 - v) := by
  obtain rfl | rfl := hv
  · cases h : x.h1
    · simp [PWord.hold, PWord.heldBy, pwordReset, h]
    · simp [PWord.hold, PWord.heldBy, h]
  · cases h : x.h0
    · simp [PWord.hold, PWord.heldBy, pwordReset, h]
    · simp [PWord.hold, PWord.heldBy, h]

/-! ### The commands -/

section Batches
variable {s : State} {ch v : Nat}

theorem batchOpen_first (h : Accepted cmdBatchOpen ch s) (hcurrent : currentSlot s = none) :
    Answers (.batchOpen ch) 0x0501 ch (.data [word 0, word ((s.prs.lastBatch + 1) % 2 ^ 32)]) s { s with prs := { s.prs with
      v0 := { versionReset with st := .building, batch := (s.prs.lastBatch + 1) % 2 ^ 32 } } } := by
  refine answers_of_effect rfl h ?_
  simp only [cmdBatchOpen, hcurrent, openBatch]
  rfl

theorem batchOpen_waits (h : Accepted cmdBatchOpen ch s) (h0 : s.prs.v0.st = .current) (h1 : s.prs.v1.st = .draining) :
    Answers (.batchOpen ch) 0x0501 ch (.pend .batchOpen) s s := by
  refine answers_of_effect rfl h ?_
  simp only [cmdBatchOpen, currentSlot_zero h0]
  exact if_pos h1

theorem batchOpen_copies (h : Accepted cmdBatchOpen ch s) (h0 : s.prs.v0.st = .current) (h1 : s.prs.v1.st ≠ .draining)
    (hfaulty : s.prs.v0.faulty = false) :
    ∃ t, exec (.batchOpen ch) s = .next t ∧ t.prs.v0 = s.prs.v0 ∧
      t.prs.v1 = { s.prs.v0 with st := .building, batch := (s.prs.lastBatch + 1) % 2 ^ 32, faulty := false, refs := 0,
                                 commitAt := none } ∧
      (∀ e ∈ t.prs.prog, e.2.h1 = e.2.h0) ∧ (∀ e ∈ t.prs.comps, e.2.h1 = e.2.h0) ∧ (∀ e ∈ t.prs.pats, e.2.h1 = e.2.h0) ∧
      Agree t { s with prs := t.prs, mbx := t.mbx } := by
  let n := (s.prs.lastBatch + 1) % 2 ^ 32
  let x : Version := { s.prs.v0 with st := .building, batch := n, faulty := false, refs := 0, commitAt := none }
  let u := reholdPools 1 (fun _ other => other) s
  have hopen : openBatch s = (setVersion 1 x u, 1, n) := by
    have hcur : (version s 0).faulty = false := hfaulty
    simp only [openBatch, currentSlot_zero h0, hcur]
    rfl
  have heffect : cmdBatchOpen.effect ch (msgWords (chan s ch)) s = (setVersion 1 x u, .data [word 1, word n]) := by
    simp only [cmdBatchOpen, currentSlot_zero h0, hopen]
    exact if_neg h1
  obtain ⟨t, ht, htouch⟩ := accepted_touches (rfl : exec (.batchOpen ch) s = _) h heffect
  have hall : Touches (.events 9 :: .prs :: mailParts) t s :=
    (htouch.trans ((touches_setVersion 1 x u).trans (touches_reholdPools _ _ s))).widen rfl
  have hprs : t.prs = { u.prs with v1 := x } := htouch.prs rfl
  refine ⟨t, ht, by rw [hprs]; rfl, by rw [hprs], fun e he => ?_, fun e he => ?_, fun e he => ?_, hall.agree⟩
  · rw [hprs] at he
    obtain ⟨y, -, rfl⟩ := List.mem_map.mp (List.mem_of_mem_filter he)
    rfl
  · rw [hprs] at he
    obtain ⟨y, -, rfl⟩ := List.mem_map.mp (List.mem_of_mem_filter he)
    rfl
  · rw [hprs] at he
    obtain ⟨y, -, rfl⟩ := List.mem_map.mp (List.mem_of_mem_filter he)
    rfl

theorem batchOpen_afterFault (h : Accepted cmdBatchOpen ch s) (h1 : s.prs.v1.st = .current) (h0 : s.prs.v0.st ≠ .current)
    (h0' : s.prs.v0.st ≠ .draining) (hfaulty : s.prs.v1.faulty = true) :
    ∃ t, exec (.batchOpen ch) s = .next t ∧ t.prs.v1 = s.prs.v1 ∧
      t.prs.v0 = { versionReset with st := .building, batch := (s.prs.lastBatch + 1) % 2 ^ 32 } ∧
      t.prs.prog = s.prs.prog ∧ Agree t { s with prs := t.prs, mbx := t.mbx } := by
  let n := (s.prs.lastBatch + 1) % 2 ^ 32
  let x : Version := { versionReset with st := .building, batch := n }
  have hopen : openBatch s = (setVersion 0 x s, 0, n) := by
    have hcur : (version s 1).faulty = true := hfaulty
    simp only [openBatch, currentSlot_one h0 h1, hcur]
    rfl
  have heffect : cmdBatchOpen.effect ch (msgWords (chan s ch)) s = (setVersion 0 x s, .data [word 0, word n]) := by
    simp only [cmdBatchOpen, currentSlot_one h0 h1, hopen]
    exact if_neg h0'
  obtain ⟨t, ht, htouch⟩ := accepted_touches (rfl : exec (.batchOpen ch) s = _) h heffect
  have hall : Touches (.events 9 :: .prs :: mailParts) t s := (htouch.trans (touches_setVersion 0 x s)).widen rfl
  have hprs : t.prs = { s.prs with v0 := x } := htouch.prs rfl
  exact ⟨t, ht, by rw [hprs], by rw [hprs], by rw [hprs], hall.agree⟩

theorem batchProgram_writes (h : Accepted cmdBatchProgram ch s) :
    ∃ t, exec (.batchProgram ch) s = .next t ∧
      (∀ k, k < progCount (msgWords (chan s ch)) → pword t (fld (argOf s ch 1) 44 32 + k) =
        { w := progWord (msgWords (chan s ch)) k, h0 := (buildingSlot s).getD 0 == 0, h1 := (buildingSlot s).getD 0 != 0 }) ∧
      (∀ a, a < fld (argOf s ch 1) 44 32 ∨ fld (argOf s ch 1) 44 32 + progCount (msgWords (chan s ch)) ≤ a →
        pword t a = pword s a) ∧
      t.prs.v0 = s.prs.v0 ∧ t.prs.v1 = s.prs.v1 ∧ t.prs.comps = s.prs.comps ∧ t.prs.pats = s.prs.pats := by
  let g (k : Nat) (_ : PWord) : PWord :=
    { w := progWord (msgWords (chan s ch)) k, h0 := (buildingSlot s).getD 0 == 0, h1 := (buildingSlot s).getD 0 != 0 }
  obtain ⟨t, ht, htouch⟩ := accepted_touches (rfl : exec (.batchProgram ch) s = _) h rfl
  have hprs : t.prs = { s.prs with
      prog := changeRun pwordReset (fld (argOf s ch 1) 44 32) (progCount (msgWords (chan s ch))) g s.prs.prog } :=
    (htouch.prs rfl).trans (congrArg State.prs (foldl_setPword _ _ g s))
  refine ⟨t, ht, fun k hk => ?_, fun a ha => ?_, by rw [hprs], by rw [hprs], by rw [hprs], by rw [hprs]⟩
  · rw [pword, hprs]
    exact mget_changeRun_inside _ g _ hk
  · rw [pword, hprs]
    exact mget_changeRun_outside _ g _ ha

theorem batchRange_writes (h : Accepted cmdBatchRange ch s) :
    ∃ t, exec (.batchRange ch) s = .next t ∧
      (∀ k, k < rangeCount (msgWords (chan s ch)) → comparator t (fld (argOf s ch 1) 39 32 + k) =
        { lo := fld (argOf s ch (2 + k)) 15 0, hi := fld (argOf s ch (2 + k)) 31 16,
          h0 := (buildingSlot s).getD 0 == 0, h1 := (buildingSlot s).getD 0 != 0 }) ∧
      (∀ n, n < fld (argOf s ch 1) 39 32 ∨ fld (argOf s ch 1) 39 32 + rangeCount (msgWords (chan s ch)) ≤ n →
        comparator t n = comparator s n) ∧
      t.prs.v0 = s.prs.v0 ∧ t.prs.v1 = s.prs.v1 ∧ t.prs.prog = s.prs.prog ∧ t.prs.pats = s.prs.pats := by
  let g (k : Nat) (_ : Comparator) : Comparator :=
    { lo := fld (argOf s ch (2 + k)) 15 0, hi := fld (argOf s ch (2 + k)) 31 16,
      h0 := (buildingSlot s).getD 0 == 0, h1 := (buildingSlot s).getD 0 != 0 }
  obtain ⟨t, ht, htouch⟩ := accepted_touches (rfl : exec (.batchRange ch) s = _) h rfl
  have hprs : t.prs = { s.prs with
      comps := changeRun compReset (fld (argOf s ch 1) 39 32) (rangeCount (msgWords (chan s ch))) g s.prs.comps } :=
    (htouch.prs rfl).trans (congrArg State.prs (foldl_setComp _ _ g s))
  refine ⟨t, ht, fun k hk => ?_, fun a ha => ?_, by rw [hprs], by rw [hprs], by rw [hprs], by rw [hprs]⟩
  · rw [comparator, hprs]
    exact mget_changeRun_inside _ g _ hk
  · rw [comparator, hprs]
    exact mget_changeRun_outside _ g _ ha

theorem batchPattern_writes (h : Accepted cmdBatchPattern ch s) :
    ∃ t, exec (.batchPattern ch) s = .next t ∧
      pattern t (fld (argOf s ch 1) 43 32) =
        { value := pad 32 ((wordsBytes ((msgWords (chan s ch)).drop 3)).take 32),
          mask := pad 32 ((wordsBytes ((msgWords (chan s ch)).drop 3)).drop 32), length := fld (argOf s ch 1) 55 50,
          group := fld (argOf s ch 1) 49 44, start := fld (argOf s ch 2) 10 0, stop := fld (argOf s ch 2) 26 16,
          h0 := (buildingSlot s).getD 0 == 0, h1 := (buildingSlot s).getD 0 != 0 } ∧
      (∀ n, n ≠ fld (argOf s ch 1) 43 32 → pattern t n = pattern s n) ∧ t.prs.prog = s.prs.prog ∧ t.prs.comps = s.prs.comps := by
  obtain ⟨t, ht, htouch⟩ := accepted_touches (rfl : exec (.batchPattern ch) s = _) h rfl
  have hprs := htouch.prs rfl
  refine ⟨t, ht, ?_, fun n hn => ?_, by rw [hprs]; rfl, by rw [hprs]; rfl⟩
  · rw [pattern, hprs]
    exact mget_mput_same _ _ _ _
  · rw [pattern, hprs]
    exact mget_mput_of_ne _ _ _ hn

theorem editBatch_of_building {f : Nat → Version → Version} (h : buildingSlot s = some v) :
    editBatch f s = setVersion v (f v (version s v)) s := by
  simp only [editBatch, h]

theorem batchDrop_drops (h : Accepted cmdBatchDrop ch s) (hslot : buildingSlot s = some v) (hkind : fld (argOf s ch 1) 33 32 = 0) :
    ∃ t, exec (.batchDrop ch) s = .next t ∧
      (∀ k, k < fld (argOf s ch 2) 28 16 → (pword t (fld (argOf s ch 2) 12 0 + k)).heldBy v = false ∧
        (pword t (fld (argOf s ch 2) 12 0 + k)).heldBy (1 - v) = (pword s (fld (argOf s ch 2) 12 0 + k)).heldBy (1 - v)) ∧
      t.prs.comps = s.prs.comps ∧ t.prs.pats = s.prs.pats ∧ t.prs.v0 = s.prs.v0 ∧ t.prs.v1 = s.prs.v1 := by
  let g (_ : Nat) (x : PWord) : PWord :=
    if (x.hold v false).h0 || (x.hold v false).h1 then x.hold v false else pwordReset
  have hkind' : fld (arg (msgWords (chan s ch)) 1) 33 32 = 0 := hkind
  have heffect : cmdBatchDrop.effect ch (msgWords (chan s ch)) s =
      ((List.range (fld (argOf s ch 2) 28 16)).foldl (fun t k =>
        setPword (fld (argOf s ch 2) 12 0 + k) (g k (pword t (fld (argOf s ch 2) 12 0 + k))) t) s, .done) := by
    simp only [cmdBatchDrop, hkind', hslot, Option.getD_some]
    rfl
  obtain ⟨t, ht, htouch⟩ := accepted_touches (rfl : exec (.batchDrop ch) s = _) h heffect
  rw [foldl_setPword] at htouch
  have hprs : t.prs = { s.prs with
      prog := changeRun pwordReset (fld (argOf s ch 2) 12 0) (fld (argOf s ch 2) 28 16) g s.prs.prog } := htouch.prs rfl
  refine ⟨t, ht, fun k hk => ?_, by rw [hprs], by rw [hprs], by rw [hprs], by rw [hprs]⟩
  rw [pword, hprs, mget_changeRun_inside _ g _ hk]
  exact dropped_heldBy (buildingSlot_cases hslot) _

theorem batchEntry_writes (h : Accepted cmdBatchEntry ch s) (hslot : buildingSlot s = some v) :
    Answers (.batchEntry ch) 0x0503 ch .done s (setVersion v { version s v with entry := (List.range 5).map (fun k =>
      if bit (argOf s ch (2 + k)) 63 = true then some (fld (argOf s ch (2 + k)) 12 0) else none) } s) :=
  answers_of_effect rfl h (congrArg (·, Ans.done) (editBatch_of_building hslot))

theorem batchActions_writes (h : Accepted cmdBatchActions ch s) (hslot : buildingSlot s = some v) :
    Answers (.batchActions ch) 0x0506 ch .done s (setVersion v { version s v with
      actions := (List.range 3).map fun k => fld (argOf s ch 2) (2 * k + 1) (2 * k)
      miss := (List.range 5).map fun k => (fld (argOf s ch (3 + k)) 1 0, fld (argOf s ch (3 + k)) 19 2) } s) :=
  answers_of_effect rfl h (congrArg (·, Ans.done) (editBatch_of_building hslot))

end Batches

/-- Settles O32. -/
theorem batchContent : Obligations.BatchContent := by
  unfold Obligations.BatchContent
  exact ⟨fun _ _ => batchOpen_first, fun _ _ => batchOpen_copies, fun _ _ => batchOpen_afterFault, fun _ _ => batchOpen_waits,
    fun _ _ => batchProgram_writes, fun _ _ => batchRange_writes, fun _ _ => batchPattern_writes, fun _ _ _ => batchEntry_writes,
    fun _ _ _ => batchActions_writes, fun _ _ _ => batchDrop_drops⟩

end Sys2Proof.Machine
end

section
/-! A batch is committed at once or at a named time, abandoned, and read (R196-R199, R431). -/

namespace Sys2Proof.Machine

/-- The version being built and the current one are in different slots. -/
theorem building_ne_current {s : State} {v c : Nat} (hv : buildingSlot s = some v) (hc : currentSlot s = some c) :
    c = 0 ↔ v ≠ 0 := by
  have hne : VerSt.building ≠ VerSt.current := by decide
  unfold buildingSlot at hv
  unfold currentSlot at hc
  split at hc
  · next h0 =>
    rw [if_neg (by simp [h0])] at hv
    split at hv
    · simp [← Option.some.inj hv, ← Option.some.inj hc]
    · simp at hv
  · split at hc
    · next h1 =>
      split at hv
      · simp [← Option.some.inj hv, ← Option.some.inj hc]
      · rw [if_neg (by simp [h1])] at hv
        simp at hv
    · simp at hc

theorem Touches.version_eq {l : List Part} {t s : State} (h : Touches l t s) (hl : l.contains .prs = false) (v : Nat) :
    version t v = version s v := by simp only [version, h.prs hl]

theorem version_reholdPools (w : Nat) (f : Bool → Bool → Bool) (s : State) (v : Nat) : version (reholdPools w f s) v = version s v := rfl

section Commit
variable {s : State} {ch v c : Nat}

/-- The version built is CURRENT, and the number of its batch the last committed. -/
def madeCurrent (v : Nat) (s : State) : State :=
  let t := setVersion v { version s v with st := .current, commitAt := none } s
  { t with prs := { t.prs with committed := true, lastBatch := (version s v).batch } }

theorem touches_madeCurrent (v : Nat) (s : State) : Touches [.prs] (madeCurrent v s) s :=
  ((touches_prs _ _).trans (touches_setVersion _ _ s)).widen rfl

theorem version_madeCurrent_same (v : Nat) (s : State) :
    version (madeCurrent v s) v = { version s v with st := .current, commitAt := none } :=
  version_setVersion_same v { version s v with st := .current, commitAt := none } s

theorem version_madeCurrent_other (h : c = 0 ↔ v ≠ 0) (s : State) : version (madeCurrent v s) c = version s c :=
  version_setVersion_other h { version s v with st := .current, commitAt := none } s

/-- The former current version drains. -/
def madeDraining (c : Nat) (s : State) : State := setVersion c { version s c with st := .draining } s

theorem commitSlot_first (h : currentSlot s = none) : commitSlot v s = ev 0x050D (madeCurrent v s) := by
  simp only [commitSlot, h]
  rfl

theorem commitSlot_drains (hcurrent : currentSlot s = some c) (hne : c = 0 ↔ v ≠ 0) (hrefs : (version s c).refs ≠ 0) :
    commitSlot v s = madeDraining c (ev 0x050D (madeCurrent v s)) := by
  have hc : version (ev 0x050D (madeCurrent v s)) c = version s c :=
    ((touches_ev 0x050D _).version_eq rfl c).trans (version_madeCurrent_other hne s)
  simp only [commitSlot, hcurrent]
  refine if_neg ?_
  rw [version_setVersion_same]
  change (version (ev 0x050D (madeCurrent v s)) c).refs ≠ 0
  rwa [hc]

theorem commitSlot_frees (hcurrent : currentSlot s = some c) (hne : c = 0 ↔ v ≠ 0) (hrefs : (version s c).refs = 0) :
    commitSlot v s = freeVersion c (madeDraining c (ev 0x050D (madeCurrent v s))) := by
  have hc : version (ev 0x050D (madeCurrent v s)) c = version s c :=
    ((touches_ev 0x050D _).version_eq rfl c).trans (version_madeCurrent_other hne s)
  simp only [commitSlot, hcurrent]
  refine if_pos ?_
  rw [version_setVersion_same]
  change (version (ev 0x050D (madeCurrent v s)) c).refs = 0
  rwa [hc]

theorem touches_madeDraining (c v : Nat) (s : State) :
    Touches [.prs, .events 5] (madeDraining c (ev 0x050D (madeCurrent v s))) s :=
  ((touches_setVersion _ _ _).trans ((touches_ev _ _).trans (touches_madeCurrent v s))).widen rfl

/-- What a commit leaves of both slots while the former current one drains. -/
theorem madeDraining_versions (hne : c = 0 ↔ v ≠ 0) (s : State) :
    version (madeDraining c (ev 0x050D (madeCurrent v s))) v = { version s v with st := .current, commitAt := none } ∧
      version (madeDraining c (ev 0x050D (madeCurrent v s))) c = { version s c with st := .draining } := by
  have hev (n : Nat) : version (ev 0x050D (madeCurrent v s)) n = version (madeCurrent v s) n := (touches_ev 0x050D _).version_eq rfl n
  constructor
  · rw [madeDraining, version_setVersion_other (by omega), hev, version_madeCurrent_same]
  · rw [madeDraining, version_setVersion_same, hev, version_madeCurrent_other hne]

theorem lastBatch_setVersion (n : Nat) (x : Version) (s : State) : (setVersion n x s).prs.lastBatch = s.prs.lastBatch := by
  unfold setVersion
  split
  · rfl
  · rfl

theorem batchCommit_effect (hnow : argOf s ch 2 = 0) (hslot : buildingSlot s = some v) :
    cmdBatchCommit.effect ch (msgWords (chan s ch)) s = (commitSlot v s, .done) := by
  have hnow' : arg (msgWords (chan s ch)) 2 = 0 := hnow
  simp only [cmdBatchCommit, hslot, hnow', Option.getD_some]
  rfl

theorem batchCommit_first (h : Accepted cmdBatchCommit ch s) (hnow : argOf s ch 2 = 0) (hslot : buildingSlot s = some v)
    (hcurrent : currentSlot s = none) :
    ∃ t, exec (.batchCommit ch) s = .next t ∧ version t v = { version s v with st := .current, commitAt := none } ∧
      t.prs.committed = true ∧ t.prs.lastBatch = (version s v).batch ∧ Agree t { s with prs := t.prs, mbx := t.mbx } := by
  obtain ⟨t, ht, htouch⟩ := accepted_touches (rfl : exec (.batchCommit ch) s = _) h (batchCommit_effect hnow hslot)
  rw [commitSlot_first hcurrent] at htouch
  have hmade : Touches (.events 9 :: .events 5 :: mailParts) t (madeCurrent v s) := (htouch.trans (touches_ev 0x050D _)).widen rfl
  have hall : Touches (.events 9 :: .events 5 :: .prs :: mailParts) t s := (hmade.trans (touches_madeCurrent v s)).widen rfl
  exact ⟨t, ht, by rw [hmade.version_eq rfl, version_madeCurrent_same], by rw [hmade.prs rfl]; rfl, by rw [hmade.prs rfl]; rfl,
    hall.agree⟩

theorem batchCommit_drains (h : Accepted cmdBatchCommit ch s) (hnow : argOf s ch 2 = 0) (hslot : buildingSlot s = some v)
    (hcurrent : currentSlot s = some c) (hrefs : (version s c).refs ≠ 0) :
    ∃ t, exec (.batchCommit ch) s = .next t ∧ version t v = { version s v with st := .current, commitAt := none } ∧
      version t c = { version s c with st := .draining } ∧ t.prs.lastBatch = (version s v).batch ∧
      Agree t { s with prs := t.prs, mbx := t.mbx } := by
  have hne := building_ne_current hslot hcurrent
  obtain ⟨hv, hc⟩ := madeDraining_versions hne s
  obtain ⟨t, ht, htouch⟩ := accepted_touches (rfl : exec (.batchCommit ch) s = _) h (batchCommit_effect hnow hslot)
  rw [commitSlot_drains hcurrent hne hrefs] at htouch
  have hall : Touches (.events 9 :: .events 5 :: .prs :: mailParts) t s := (htouch.trans (touches_madeDraining c v s)).widen rfl
  refine ⟨t, ht, by rw [htouch.version_eq rfl, hv], by rw [htouch.version_eq rfl, hc], ?_, hall.agree⟩
  rw [htouch.prs rfl, madeDraining, lastBatch_setVersion, (touches_ev 0x050D _).prs rfl]
  rfl

theorem batchCommit_frees (h : Accepted cmdBatchCommit ch s) (hnow : argOf s ch 2 = 0) (hslot : buildingSlot s = some v)
    (hcurrent : currentSlot s = some c) (hrefs : (version s c).refs = 0) (hwaiting : waiting s .batchOpen = false) :
    ∃ t, exec (.batchCommit ch) s = .next t ∧ version t v = { version s v with st := .current, commitAt := none } ∧
      version t c = versionReset ∧ Agree t { s with prs := t.prs, mbx := t.mbx } := by
  have hne := building_ne_current hslot hcurrent
  obtain ⟨hv, -⟩ := madeDraining_versions hne s
  let u := madeDraining c (ev 0x050D (madeCurrent v s))
  let w := setVersion c versionReset (reholdPools c (fun _ _ => false) u)
  have hw : Touches [.prs, .events 5] (ev 0x050F w) s := ((touches_ev 0x050F w).trans ((touches_setVersion _ _ _).trans
    ((touches_reholdPools _ _ u).trans (touches_madeDraining c v s)))).widen rfl
  have hfree : freeVersion c u = ev 0x050F w := by
    have hnone : waiting (ev 0x050F w) .batchOpen = false := by rw [waiting, hw.mbx rfl, ← waiting, hwaiting]
    simp only [freeVersion]
    exact if_neg (by rw [hnone]; decide)
  obtain ⟨t, ht, htouch⟩ := accepted_touches (rfl : exec (.batchCommit ch) s = _) h (batchCommit_effect hnow hslot)
  rw [commitSlot_frees hcurrent hne hrefs, hfree] at htouch
  have hall : Touches (.events 9 :: .events 5 :: .prs :: mailParts) t s := (htouch.trans hw).widen rfl
  have hversion (n : Nat) : version t n = version w n :=
    (htouch.version_eq rfl n).trans ((touches_ev 0x050F w).version_eq rfl n)
  refine ⟨t, ht, ?_, ?_, hall.agree⟩
  · rw [hversion, version_setVersion_other (by omega), version_reholdPools, hv]
  · rw [hversion, version_setVersion_same]

theorem batchCommit_pends (h : Accepted cmdBatchCommit ch s) (hlater : argOf s ch 2 ≠ 0) (hslot : buildingSlot s = some v) :
    Answers (.batchCommit ch) 0x0508 ch (.pend .batchCommit) s
      (setVersion v { version s v with commitAt := some (argOf s ch 2).toNat } s) := by
  refine answers_of_effect rfl h ?_
  simp only [cmdBatchCommit, hslot, Option.getD_some]
  exact if_neg hlater

theorem batchTimedCommit_commits {n : Nat} (hslot : buildingSlot s = some v) (hcurrent : currentSlot s = some c)
    (hat : (version s v).commitAt = some n) (hon : on s 39 = true) (htime : timeReady s = true) (hdue : n ≤ s.tmu.ns)
    (hrefs : (version s c).refs ≠ 0) :
    ∃ t, exec .batchTimedCommit s = .next t ∧ version t v = { version s v with st := .current, commitAt := none } ∧
      version t c = { version s c with st := .draining } ∧ (∀ q ∈ t.mbx.pend, q.wait ≠ .batchCommit) := by
  have hne := building_ne_current hslot hcurrent
  obtain ⟨hv, hc⟩ := madeDraining_versions hne s
  have hrow : exec .batchTimedCommit s = execBatchTimedCommit s := rfl
  have hexec : exec .batchTimedCommit s = done s (finishWait .batchCommit 0 [] (madeDraining c (ev 0x050D (madeCurrent v s)))) := by
    rw [hrow, execBatchTimedCommit]
    simp only [hslot, hat]
    rw [if_pos (by simp [hon, htime, hdue]), commitSlot_drains hcurrent hne hrefs]
  obtain ⟨t, ht, htouch⟩ := next_touches hexec
  have hdrained : Touches (.events 9 :: mailParts) t (madeDraining c (ev 0x050D (madeCurrent v s))) :=
    (htouch.trans (touches_finishWait _ _ _ _)).widen rfl
  refine ⟨t, ht, by rw [hdrained.version_eq rfl, hv], by rw [hdrained.version_eq rfl, hc], ?_⟩
  rw [htouch.mbx rfl]
  exact wait_finishWait (by decide) _ _ _

theorem batchTimedCommit_early {n : Nat} (hslot : buildingSlot s = some v) (hat : (version s v).commitAt = some n)
    (hearly : s.tmu.ns < n) : Becomes .batchTimedCommit s s := by
  have hrow : exec .batchTimedCommit s = execBatchTimedCommit s := rfl
  refine becomes_self ?_
  rw [hrow, execBatchTimedCommit]
  simp only [hslot, hat]
  rw [if_neg (by simp [hearly])]

theorem batchTimedCommit_none (h : ∀ v, buildingSlot s = some v → (version s v).commitAt = none) : Becomes .batchTimedCommit s s := by
  have hrow : exec .batchTimedCommit s = execBatchTimedCommit s := rfl
  refine becomes_self ?_
  rw [hrow, execBatchTimedCommit]
  split
  · next v hv => simp only [h v hv]
  · rfl

/-! ### The slot of an abandoned batch -/

theorem PWord.heldBy_hold (v : Nat) (b : Bool) (x : PWord) : (x.hold v b).heldBy v = b := by
  unfold PWord.hold PWord.heldBy
  split <;> rfl

theorem Comparator.heldBy_hold (v : Nat) (b : Bool) (x : Comparator) : (x.hold v b).heldBy v = b := by
  unfold Comparator.hold Comparator.heldBy
  split <;> rfl

theorem Pattern.heldBy_hold (v : Nat) (b : Bool) (x : Pattern) : (x.hold v b).heldBy v = b := by
  unfold Pattern.hold Pattern.heldBy
  split <;> rfl

theorem batchAbandon_frees (h : Accepted cmdBatchAbandon ch s) (hslot : buildingSlot s = some v) :
    ∃ t, exec (.batchAbandon ch) s = .next t ∧ version t v = versionReset ∧ version t (1 - v) = version s (1 - v) ∧
      (∀ e ∈ t.prs.prog, e.2.heldBy v = false) ∧ (∀ e ∈ t.prs.comps, e.2.heldBy v = false) ∧
      (∀ e ∈ t.prs.pats, e.2.heldBy v = false) ∧ Agree t { s with prs := t.prs, mbx := t.mbx } := by
  let u := reholdPools v (fun _ _ => false) s
  have heffect : cmdBatchAbandon.effect ch (msgWords (chan s ch)) s = (setVersion v versionReset u, .done) := by
    simp only [cmdBatchAbandon, hslot]
    rfl
  obtain ⟨t, ht, htouch⟩ := accepted_touches (rfl : exec (.batchAbandon ch) s = _) h heffect
  have hall : Touches (.events 9 :: .prs :: mailParts) t s :=
    (htouch.trans ((touches_setVersion _ _ _).trans (touches_reholdPools _ _ s))).widen rfl
  have hother : 1 - v = 0 ↔ v ≠ 0 := by obtain rfl | rfl := buildingSlot_cases hslot <;> decide
  have hpools : t.prs.prog = u.prs.prog ∧ t.prs.comps = u.prs.comps ∧ t.prs.pats = u.prs.pats := by
    rw [htouch.prs rfl]
    unfold setVersion
    split
    · exact ⟨rfl, rfl, rfl⟩
    · exact ⟨rfl, rfl, rfl⟩
  obtain ⟨hprog, hcomps, hpats⟩ := hpools
  refine ⟨t, ht, by rw [htouch.version_eq rfl, version_setVersion_same],
    by rw [htouch.version_eq rfl, version_setVersion_other hother, version_reholdPools], fun e he => ?_, fun e he => ?_,
    fun e he => ?_, hall.agree⟩
  · rw [hprog] at he
    obtain ⟨y, -, rfl⟩ := List.mem_map.mp (List.mem_of_mem_filter he)
    exact PWord.heldBy_hold v false y.2
  · rw [hcomps] at he
    obtain ⟨y, -, rfl⟩ := List.mem_map.mp (List.mem_of_mem_filter he)
    exact Comparator.heldBy_hold v false y.2
  · rw [hpats] at he
    obtain ⟨y, -, rfl⟩ := List.mem_map.mp (List.mem_of_mem_filter he)
    exact Pattern.heldBy_hold v false y.2

end Commit

/-- Settles O33. -/
theorem batchCommit : Obligations.BatchCommit := by
  unfold Obligations.BatchCommit
  exact ⟨fun _ _ _ => batchCommit_first, fun _ _ _ _ => batchCommit_drains, fun _ _ _ _ => batchCommit_frees,
    fun _ _ _ => batchCommit_pends, fun _ _ _ _ => batchTimedCommit_commits, fun _ _ _ => batchTimedCommit_early,
    fun _ => batchTimedCommit_none, fun _ _ _ => batchAbandon_frees, fun _ _ h => answers_of_effect rfl h rfl⟩

end Sys2Proof.Machine
end

section
/-! The buffer checks of a non-timed frame, and the colours of a policer (R206, R211, R224-R226). -/

namespace Sys2Proof.Machine

/-- A change of tags is one of the scheduler and of the rings. -/
theorem Retagged.touches {t s : State} (h : Retagged t s) : Touches [.nodes, .sch, .dma] t s := by
  have heq : t = { s with sch := t.sch, dma := t.dma } :=
    congrArg (fun x : State => { x with sch := t.sch, dma := t.dma }) h.rest
  rw [heq]
  exact ((touches_sch { s with dma := t.dma } t.sch).trans (touches_dma s t.dma)).widen rfl

/-! ### The oldest frame is taken -/

theorem touches_admTaken (sd : Side) (s : State) : Touches [.sch] (admTaken sd s) s := by
  cases sd
  · exact (touches_sch s _).drop rfl
  · exact (touches_sch s _).drop rfl

theorem queue_admTaken (sd : Side) (s : State) (q : Nat) : queue (admTaken sd s) q = queue s q := by cases sd <;> rfl

theorem policer_admTaken (sd : Side) (s : State) (n : Nat) : policer (admTaken sd s) n = policer s n := by cases sd <;> rfl

theorem chooseQuad_admTaken (sd : Side) (s : State) : chooseQuad (admTaken sd s) = chooseQuad s := by cases sd <;> rfl

theorem freeCells_admTaken (sd : Side) (s : State) (k : Nat) : freeCells (admTaken sd s) k = freeCells s k := by cases sd <;> rfl

theorem reserve_admTaken (sd : Side) (s : State) : (admTaken sd s).sch.reserve = s.sch.reserve := by cases sd <;> rfl

section Buffer
variable {sd : Side} {s : State} {p : Packet} {r : List Packet} {k : Nat} {c : Ctx}

theorem exec_bufferEnqueue (hready : schedReady s = true) (hq : admQ sd s = p :: r) (hcls : p.cls ≠ .timed) :
    exec (.bufferEnqueue sd) s = done s (enqueue p (admTaken sd s)) := by
  have hrow : exec (.bufferEnqueue sd) s = execBufferEnqueue sd s := rfl
  have hhead : admissionHead sd s = some (p, admTaken sd s) := by
    cases sd
    · have hline : s.sch.inLine = p :: r := hq
      simp only [admissionHead, admTaken, hline, List.tail_cons]
    · have hclient : s.sch.inClient = p :: r := hq
      simp only [admissionHead, admTaken, hclient, List.tail_cons]
  rw [hrow]
  unfold execBufferEnqueue
  simp only [hready, hhead, if_true, hcls, if_false]

theorem bufferEnqueue_idle (h : schedReady s = false ∨ admQ sd s = [] ∨ ∃ p r, admQ sd s = p :: r ∧ p.cls = .timed) :
    Becomes (.bufferEnqueue sd) s s := by
  have hrow : exec (.bufferEnqueue sd) s = execBufferEnqueue sd s := rfl
  refine becomes_self ?_
  rw [hrow]
  unfold execBufferEnqueue
  split
  · obtain hready | hempty | ⟨p, r, hq, hcls⟩ := h
    · next hr => simp [hready] at hr
    · have hhead : admissionHead sd s = none := by
        cases sd
        · have hline : s.sch.inLine = [] := hempty
          simp only [admissionHead, hline]
        · have hclient : s.sch.inClient = [] := hempty
          simp only [admissionHead, hclient]
      simp only [hhead]
    · have hhead : ∃ t, admissionHead sd s = some (p, t) := by
        cases sd
        · have hline : s.sch.inLine = p :: r := hq
          exact ⟨_, by simp only [admissionHead, hline]; rfl⟩
        · have hclient : s.sch.inClient = p :: r := hq
          exact ⟨_, by simp only [admissionHead, hclient]; rfl⟩
      obtain ⟨t, hhead⟩ := hhead
      simp only [hhead, hcls, if_true]
  · rfl

/-! ### The checks -/

/-- A frame that nobody waits for is refused with one count. -/
theorem buffer_refuses {e : Nat} (hready : schedReady s = true) (hq : admQ sd s = p :: r) (hcls : p.cls ≠ .timed)
    (hp : Unclaimed p s) (hrefuse : enqueue p (admTaken sd s) = discardFrame p false (ev e (admTaken sd s)))
    (hblock : e / 256 = 7) : ∃ t, exec (.bufferEnqueue sd) s = .next t ∧ Counts e 0 1 s t ∧ Agree t (unref p (admTaken sd s)) := by
  obtain ⟨htx, hpromise, hversion⟩ := hp
  have hkeeps : keepsVersion p (ev e (admTaken sd s)) :=
    keepsVersion_of_touches ((touches_ev e _).trans (touches_admTaken sd s)) (by simp) hversion
  obtain ⟨t, ht, htouch⟩ := next_touches ((exec_bufferEnqueue hready hq hcls).trans
    (congrArg (done s) (hrefuse.trans (discardFrame_unclaimed false htx hpromise hkeeps))))
  exact ⟨t, ht, counts_of_touches (htouch.trans (touches_unref _ _)) (touches_admTaken sd s) (by rw [hblock]; rfl) (by simp) rfl
    (by decide), htouch.agree.trans ((agree_ev _ _).unref p)⟩

theorem enqueue_disabled {s : State} (henable : (queue s (p.queue.getD 0)).enable = false) :
    enqueue p s = discardFrame p false (ev 0x0701 s) := by
  simp only [enqueue, henable]
  rfl

theorem enqueue_parked {s : State} (henable : (queue s (p.queue.getD 0)).enable = true)
    (hparked : (queue s (p.queue.getD 0)).parked = true) : enqueue p s = discardFrame p false (ev 0x0705 s) := by
  simp only [enqueue, henable, hparked]
  rfl

theorem police_parked {s : State} (hctx : p.ctx = some c) (huses : bit c.c1 63 = true) (hpass : fld c.c0 58 56 ≠ 2)
    (hparked : (policer s (fld c.c1 62 47)).parked = true) : police p s = (none, ev 0x0705 s) := by
  have hbypass : (!bit c.c1 63 || fld c.c0 58 56 == 2) = false := by simp [huses, hpass]
  simp only [police, hctx, hbypass, hparked]
  rfl

theorem enqueue_policed {s t : State} (henable : (queue s (p.queue.getD 0)).enable = true)
    (hparked : (queue s (p.queue.getD 0)).parked = false) (hpolice : police p s = (none, t)) :
    enqueue p s = discardFrame p false t := by
  simp only [enqueue, henable, hparked, hpolice]
  rfl

theorem police_none {s : State} (hctx : p.ctx = none) : police p s = (some p, s) := by simp only [police, hctx]

/-- A frame without a policer, neither yellow nor timed, on a queue that takes frames, meets the limit, … -/
theorem enqueue_limited {s : State} (henable : (queue s (p.queue.getD 0)).enable = true)
    (hparked : (queue s (p.queue.getD 0)).parked = false) (hctx : p.ctx = none) (hyellow : p.yellow = false)
    (hlimit : (queue s (p.queue.getD 0)).limit < occupancy (queue s (p.queue.getD 0)) + cells p) :
    enqueue p s = discardFrame p false (ev 0x0702 s) := by
  simp only [enqueue, henable, hparked, police_none hctx, hyellow, hlimit]
  rfl

/-- … and then the reserve of its quadrant. -/
theorem enqueue_reserved {s : State} (henable : (queue s (p.queue.getD 0)).enable = true)
    (hparked : (queue s (p.queue.getD 0)).parked = false) (hctx : p.ctx = none) (hyellow : p.yellow = false)
    (hroom : occupancy (queue s (p.queue.getD 0)) + cells p ≤ (queue s (p.queue.getD 0)).limit) (hquad : chooseQuad s = some k)
    (hfree : freeCells s k ≤ s.sch.reserve + cells p) : enqueue p s = discardFrame p false (ev 0x0704 s) := by
  simp only [enqueue, henable, hparked, police_none hctx, hyellow, Nat.not_lt.mpr hroom, hquad, hfree, if_false]
  rfl

theorem enqueue_joins {s : State} (henable : (queue s (p.queue.getD 0)).enable = true)
    (hparked : (queue s (p.queue.getD 0)).parked = false) (hctx : p.ctx = none) (hyellow : p.yellow = false)
    (hroom : occupancy (queue s (p.queue.getD 0)) + cells p ≤ (queue s (p.queue.getD 0)).limit) (hquad : chooseQuad s = some k)
    (hfree : s.sch.reserve + cells p < freeCells s k) :
    enqueue p s = joinQueue (p.queue.getD 0) { p with quadrant := k } s := by
  simp only [enqueue, henable, hparked, police_none hctx, hyellow, Nat.not_lt.mpr hroom, hquad, Nat.not_le.mpr hfree, if_false]
  rfl

theorem bufferEnqueue_joins (hready : schedReady s = true) (hq : admQ sd s = p :: r) (hcls : p.cls ≠ .timed)
    (henable : (queue s (p.queue.getD 0)).enable = true) (hparked : (queue s (p.queue.getD 0)).parked = false) (hctx : p.ctx = none)
    (hyellow : p.yellow = false)
    (hroom : occupancy (queue s (p.queue.getD 0)) + cells p ≤ (queue s (p.queue.getD 0)).limit) (hquad : chooseQuad s = some k)
    (hfree : s.sch.reserve + cells p < freeCells s k) :
    ∃ t, exec (.bufferEnqueue sd) s = .next t ∧
      (queue t (p.queue.getD 0)).frames = (queue s (p.queue.getD 0)).frames ++ [{ p with quadrant := k }] ∧
      (∀ q, q ≠ p.queue.getD 0 → (queue t q).frames = (queue s q).frames) ∧
      (∀ q, (queue t q).shaper = (queue s q).shaper) ∧ t.cir = s.cir ∧ t.flw = s.flw ∧ t.prs = s.prs := by
  let q := p.queue.getD 0
  let u := admTaken sd s
  let x : Queue := { queue u q with frames := (queue u q).frames ++ [{ p with quadrant := k }] }
  have hjoin : enqueue p u = followTags (setQueue q x u) :=
    enqueue_joins (by rw [queue_admTaken, henable]) (by rw [queue_admTaken, hparked]) hctx hyellow
      (by rw [queue_admTaken]; exact hroom) ((chooseQuad_admTaken sd s).trans hquad)
      (by rw [reserve_admTaken, freeCells_admTaken]; exact hfree)
  obtain ⟨t, ht, htouch⟩ := next_touches ((exec_bufferEnqueue hready hq hcls).trans (congrArg (done s) hjoin))
  have htags := retagged_followTags (setQueue q x u)
  have hall : Touches [.events 9, .nodes, .sch, .dma] t s := (htouch.trans (htags.touches.trans
    ((touches_queues u _).trans (touches_admTaken sd s)))).widen rfl
  have hqueue (j : Nat) : { queue t j with tags := tagsReset } = { queue (setQueue q x u) j with tags := tagsReset } := by
    rw [queue, htouch.sch rfl, ← queue]
    exact htags.queues j
  have hframes (j : Nat) : (queue t j).frames = (queue (setQueue q x u) j).frames := by
    simpa using congrArg Queue.frames (hqueue j)
  have hshaper (j : Nat) : (queue t j).shaper = (queue (setQueue q x u) j).shaper := by
    simpa using congrArg Queue.shaper (hqueue j)
  refine ⟨t, ht, ?_, fun j hj => ?_, fun j => ?_, hall.cir rfl, hall.flw rfl, hall.prs rfl⟩
  · rw [hframes, queue_setQueue_same]
    simp only [x, u, queue_admTaken, q]
  · rw [hframes, queue_setQueue_of_ne hj, queue_admTaken]
  · rw [hshaper]
    by_cases hj : j = q
    · rw [hj, queue_setQueue_same]
      simp only [x, u, queue_admTaken]
    · rw [queue_setQueue_of_ne hj, queue_admTaken]

end Buffer

/-! ### Policers (R225, R226) -/

theorem Touches.policer {l : List Part} {t s : State} (h : Touches l t s) (hl : l.contains .sch = false) (n : Nat) :
    policer t n = Machine.policer s n := by simp only [Machine.policer, h.sch hl]

theorem measure_green {n b : Nat} {s : State} (h : b * 65536 ≤ ((policer s n).refill s).tc) :
    (measure n b s).1 = .green ∧
      policer (measure n b s).2 n = { (policer s n).refill s with tc := ((policer s n).refill s).tc - b * 65536 } := by
  have hmeasure : measure n b s = (.green, ev 0x0720 (setPolicer n { (policer s n).refill s with
      tc := ((policer s n).refill s).tc - b * 65536 } s)) := if_pos h
  rw [hmeasure]
  exact ⟨rfl, by rw [(touches_ev 0x0720 _).policer rfl, policer_setPolicer_same]⟩

theorem measure_yellow {n b : Nat} {s : State} (hc : ((policer s n).refill s).tc < b * 65536)
    (he : b * 65536 ≤ ((policer s n).refill s).te) : (measure n b s).1 = .yellow ∧
      policer (measure n b s).2 n = { (policer s n).refill s with te := ((policer s n).refill s).te - b * 65536 } := by
  have hmeasure : measure n b s = (.yellow, ev 0x0721 (setPolicer n { (policer s n).refill s with
      te := ((policer s n).refill s).te - b * 65536 } s)) := (if_neg (Nat.not_le.mpr hc)).trans (if_pos he)
  rw [hmeasure]
  exact ⟨rfl, by rw [(touches_ev 0x0721 _).policer rfl, policer_setPolicer_same]⟩

theorem measure_red {n b : Nat} {s : State} (hc : ((policer s n).refill s).tc < b * 65536)
    (he : ((policer s n).refill s).te < b * 65536) :
    (measure n b s).1 = .red ∧ policer (measure n b s).2 n = (policer s n).refill s := by
  have hmeasure : measure n b s = (.red, ev 0x0722 (setPolicer n ((policer s n).refill s) s)) :=
    (if_neg (Nat.not_le.mpr hc)).trans (if_neg (Nat.not_le.mpr he))
  rw [hmeasure]
  exact ⟨rfl, by rw [(touches_ev 0x0722 _).policer rfl, policer_setPolicer_same]⟩

theorem refill_le (s : State) (x : Policer) : (x.refill s).tc ≤ x.cbs * 65536 ∧ (x.refill s).te ≤ x.ebs * 65536 :=
  ⟨Nat.min_le_left _ _, Nat.min_le_left _ _⟩

/-- Settles O34, check by check. -/
theorem bufferChecks : Obligations.BufferChecks := by
  unfold Obligations.BufferChecks
  refine ⟨fun _ _ _ _ hready hq hcls hp henable => buffer_refuses hready hq hcls hp (enqueue_disabled ?_) rfl,
    fun _ _ _ _ hready hq hcls hp henable hparked => buffer_refuses hready hq hcls hp (enqueue_parked ?_ ?_) rfl,
    fun _ _ _ _ _ hready hq hcls hp henable hparked hctx huses hpass hpol => buffer_refuses hready hq hcls hp
      (enqueue_policed ?_ ?_ (police_parked hctx huses hpass ?_)) rfl,
    fun _ _ _ _ hready hq hcls hp henable hparked hctx hyellow hlimit => buffer_refuses hready hq hcls hp
      (enqueue_limited ?_ ?_ hctx hyellow ?_) rfl,
    fun _ _ _ _ _ hready hq hcls hp henable hparked hctx hyellow hroom hquad hfree => buffer_refuses hready hq hcls hp
      (enqueue_reserved ?_ ?_ hctx hyellow ?_ ((chooseQuad_admTaken _ _).trans hquad) ?_) rfl,
    fun _ _ _ _ _ => bufferEnqueue_joins, fun _ _ => bufferEnqueue_idle, fun _ _ _ => measure_green, fun _ _ _ => measure_yellow,
    fun _ _ _ => measure_red, refill_le⟩
  all_goals simpa only [queue_admTaken, policer_admTaken, reserve_admTaken, freeCells_admTaken]

end Sys2Proof.Machine
end

section
/-! The selection at a client port's node, and the return of credit (R17, R212, R215, R216, R246, R249). -/

namespace Sys2Proof.Machine

/-! ### What charges and fair queuing leave of the queues -/

/-- Shapers and tags may differ; the frames of every queue are the same. -/
structure FramesKept (t s : State) : Prop where
  touches : Touches [.nodes, .sch, .dma, .events 7] t s
  frames : ∀ q, (queue t q).frames = (queue s q).frames

namespace FramesKept
variable {s t u : State}

@[refl] protected theorem refl (s : State) : FramesKept s s := ⟨(Touches.refl [] s).widen rfl, fun _ => rfl⟩

protected theorem trans (h : FramesKept t u) (k : FramesKept u s) : FramesKept t s :=
  ⟨(h.touches.trans k.touches).widen rfl, fun q => (h.frames q).trans (k.frames q)⟩

theorem foldl {α : Type} {f : State → α → State} (hf : ∀ t a, FramesKept (f t a) t) (l : List α) (s : State) :
    FramesKept (l.foldl f s) s :=
  List.foldlRecOn (motive := (FramesKept · s)) l f (.refl s) fun t ht a _ => (hf t a).trans ht

theorem of_retagged (h : Retagged t s) : FramesKept t s := ⟨h.touches.widen rfl, h.frames_eq⟩

end FramesKept

/-- The shaper of an item is written, before a count. -/
def shaperSet (i : Item) (sh : Shaper) (s : State) : State := match i with
  | .queue q => setQueue q { queue s q with shaper := sh } s
  | .sub n => setSub n { subNode s n with shaper := sh } s
  | .svc n => setSvc n { svcNode s n with shaper := sh } s
  | .port n => setPort n { portNode s n with shaper := sh } s

theorem setShaper_eq (i : Item) (sh : Shaper) (s : State) : setShaper i sh s =
    if sh.cal = .parked ∧ (shaperOf s i).cal ≠ .parked then ev 0x0706 (shaperSet i sh s) else shaperSet i sh s := by
  cases i <;> rfl

theorem framesKept_shaperSet (i : Item) (sh : Shaper) (s : State) : FramesKept (shaperSet i sh s) s := by
  cases i with
  | queue q =>
    refine ⟨(touches_queues s _).widen rfl, fun k => ?_⟩
    by_cases hk : k = q
    · rw [hk, shaperSet, queue_setQueue_same]
    · rw [shaperSet, queue_setQueue_of_ne hk]
  | sub n => exact ⟨(touches_sch s _).widen rfl, fun _ => rfl⟩
  | svc n => exact ⟨(touches_sch s _).widen rfl, fun _ => rfl⟩
  | port n => exact ⟨(touches_sch s _).widen rfl, fun _ => rfl⟩

theorem framesKept_ev {e : Nat} (he : e / 256 = 7) (s : State) : FramesKept (ev e s) s := by
  have htouch := touches_ev e s
  rw [he] at htouch
  exact ⟨htouch.widen rfl, fun q => by rw [queue, htouch.sch rfl, ← queue]⟩

theorem framesKept_setShaper (i : Item) (sh : Shaper) (s : State) : FramesKept (setShaper i sh s) s := by
  rw [setShaper_eq]
  split
  · exact (framesKept_ev rfl _).trans (framesKept_shaperSet i sh s)
  · exact framesKept_shaperSet i sh s

theorem framesKept_chargeAll (l : List Item) (n : Nat) (s : State) : FramesKept (chargeAll l n s) s :=
  .foldl (fun _ _ => framesKept_setShaper _ _ _) l s

theorem framesKept_serveChild (cls : Cls) (l : Nat) (s : State) (c : Child) : FramesKept (serveChild cls l s c) s :=
  .of_retagged ((retagged_setParentTags _ _ _ _).trans (retagged_setChildTags _ _ _ s))

theorem touches_gateHold_false (port cls : Nat) (s : State) : Touches [.adm] (gateHold port cls false s) s := by
  unfold gateHold
  split
  · exact touches_adm s _
  · rfl

/-- The head frame of a queue leaves it. -/
theorem popHead_queue (q : Nat) (s : State) : Touches [.nodes, .sch, .dma] (popHead (.queue q) s) s ∧
    (queue (popHead (.queue q) s) q).frames = (queue s q).frames.drop 1 ∧
      ∀ k, k ≠ q → (queue (popHead (.queue q) s) k).frames = (queue s k).frames := by
  have htags := retagged_followTags (setQueue q { queue s q with frames := (queue s q).frames.drop 1 } s)
  refine ⟨(htags.touches.trans (touches_queues s _)).widen rfl, ?_, fun k hk => ?_⟩
  · rw [popHead, htags.frames_eq, queue_setQueue_same]
  · rw [popHead, htags.frames_eq, queue_setQueue_of_ne hk]

/-! ### A frame reaches its client port -/

theorem Touches.tx {l : List Part} {t s : State} (h : Touches l t s) (hl : l.contains .prt = false) (n : Nat) :
    (cport t n).tx = (cport s n).tx := by
  obtain ⟨hports, -⟩ := (h.same hl : Part.Same t s .prt)
  simpa using congrArg CPort.tx (hports n)

theorem Touches.portUp {l : List Part} {t s : State} (h : Touches l t s) (hl : l.contains .prt = false) (n : Nat) :
    (cport t n).up = (cport s n).up := by
  obtain ⟨hports, -⟩ := (h.same hl : Part.Same t s .prt)
  simpa using congrArg CPort.up (hports n)

theorem touches_spend (key n : Nat) (s : State) : Touches [.spent] (spend key n s) s :=
  touches_overlay [.spent] (spend key n s) s (by decide) (by decide) (by decide) (by decide)

theorem creditsSpent_spend (key n : Nat) (s : State) : creditsSpent (spend key n s) key = creditsSpent s key + n :=
  mget_mput_same _ _ _ _

/-- A frame that has gone to client port n: it waits there to be sent, and its beats are spent. -/
theorem leave_client {n : Nat} (ring : Nat) {p : Packet} {s : State} (hn : n < 4) (hon : on s 18 = true)
    (hup : (cport s n).up = true) : leave (64 + n) ring p s =
      setCport n { cport s n with tx := (cport s n).tx ++ [p] } (spend (portKey (64 + n)) (beats p) s) := by
  have hdom : portDom (64 + n) = 18 := by
    unfold portDom
    rw [if_neg (by omega), if_pos (by omega)]
  have hport : 64 + n - 64 = n := by omega
  have hclient : 64 + n < 68 := by omega
  have hlink : (!(cport s n).up) = false := by rw [hup]; rfl
  simp only [leave, hdom, hon, hport, hlink, hclient, if_true, Bool.not_true, Bool.false_eq_true, if_false]
  rfl

/-- What a command leaves that sends a frame to client port n, of the port and of its credit. -/
theorem sent_client {c : Instr} {n ring : Nat} {p : Packet} {l : List Part} {u s : State}
    (hexec : exec c s = done s (leave (64 + n) ring p u)) (hn : n < 4) (hon : on s 18 = true) (hup : (cport s n).up = true)
    (hu : Touches l u s) (hl : l.contains .pwr = false ∧ l.contains .prt = false ∧ l.contains .spent = false) :
    ∃ t, exec c s = .next t ∧ Touches [.events 9, .prt, .spent] t u ∧ (cport t n).tx = (cport s n).tx ++ [p] ∧
      (∀ k, k ≠ n → (cport t k).tx = (cport s k).tx) ∧
      creditsSpent t (portKey (64 + n)) = creditsSpent s (portKey (64 + n)) + beats p := by
  obtain ⟨hpwr, hprt, hspent⟩ := hl
  rw [leave_client ring hn (by rw [hu.on_eq 18 hpwr, hon]) (by rw [hu.portUp hprt, hup])] at hexec
  obtain ⟨t, ht, htouch⟩ := next_touches hexec
  refine ⟨t, ht, (htouch.trans ((touches_prt _ _).trans (touches_spend _ _ u))).widen rfl, ?_, fun k hk => ?_, ?_⟩
  · rw [htouch.tx rfl, cport_setCport_same, hu.tx hprt]
  · rw [htouch.tx rfl, cport_setCport_of_ne hk]
    exact hu.tx hprt k
  · rw [creditsSpent, htouch.spent rfl, ← creditsSpent]
    refine (creditsSpent_spend _ _ u).trans ?_
    rw [creditsSpent, hu.spent hspent, ← creditsSpent]

section Selection
variable {s : State} {n q : Nat} {p : Packet}

/-- A client port's node judges no heads for a host group. -/
theorem exec_selection_client (hready : schedReady s = true) (hn : n < 4) :
    exec (.schedulerSelection (64 + n)) s = done s (if destOpen s (64 + n) then select (64 + n) s else s) := by
  have hrow : exec (.schedulerSelection (64 + n)) s = execSchedulerSelection (64 + n) s := rfl
  have hgroup : isGroup (64 + n) = false := by simp [isGroup]; omega
  have hjudge : judgeHeads (64 + n) s = s := by simp [judgeHeads, hgroup]
  rw [hrow, execSchedulerSelection, if_pos (by simp [hready]; omega), hjudge]

theorem selection_circuit {c : Nat} (hready : schedReady s = true) (hn : n < 4) (hopen : destOpen s (64 + n) = true)
    (hpick : circuitPick s (64 + n) = some (c, p)) (hon : on s 18 = true) (hup : (cport s n).up = true) :
    ∃ t, exec (.schedulerSelection (64 + n)) s = .next t ∧ (cport t n).tx = (cport s n).tx ++ [p] ∧
      (∀ k, k ≠ n → (cport t k).tx = (cport s k).tx) ∧ (circ t c).egressQ = (circ s c).egressQ.drop 1 ∧
      t.sch = s.sch ∧ creditsSpent t (portKey (64 + n)) = creditsSpent s (portKey (64 + n)) + beats p := by
  let u := popCircuit c s
  have hexec : exec (.schedulerSelection (64 + n)) s = done s (leave (64 + n) (circ s c).ring p u) := by
    rw [exec_selection_client hready hn, if_pos hopen, select]
    simp only [hpick]
    rfl
  have hu : Touches [.cir] u s := ((touches_cir _ _).trans (touches_setCirc c _ s)).widen rfl
  obtain ⟨t, ht, htouch, htx, hothers, hspent⟩ := sent_client hexec hn hon hup hu ⟨rfl, rfl, rfl⟩
  refine ⟨t, ht, htx, hothers, ?_, (htouch.sch rfl).trans (hu.sch rfl), hspent⟩
  rw [htouch.circ rfl]
  exact congrArg Circuit.egressQ (circ_setCirc_same c _ s)

theorem selection_timed (hready : schedReady s = true) (hn : n < 4) (hopen : destOpen s (64 + n) = true)
    (hcircuit : circuitPick s (64 + n) = none) (hpick : timedPick s (64 + n) = some (q, p)) (hgate : gateSays s (64 + n) 2 p = .go)
    (hon : on s 18 = true) (hup : (cport s n).up = true) :
    ∃ t, exec (.schedulerSelection (64 + n)) s = .next t ∧ (cport t n).tx = (cport s n).tx ++ [p] ∧
      (∀ k, k ≠ n → (cport t k).tx = (cport s k).tx) ∧ (queue t q).frames = (queue s q).frames.drop 1 ∧
      (∀ k, k ≠ q → (queue t k).frames = (queue s k).frames) ∧ t.cir = s.cir ∧
      creditsSpent t (portKey (64 + n)) = creditsSpent s (portKey (64 + n)) + beats p := by
  let g := gateHold (64 + n) 2 false s
  have hg : Touches [.adm] g s := touches_gateHold_false _ _ s
  have hframes (k : Nat) : (queue g k).frames = (queue s k).frames := by rw [queue, hg.sch rfl, ← queue]
  obtain ⟨hpop, hq, hothers⟩ := popHead_queue q g
  have hexec : exec (.schedulerSelection (64 + n)) s = done s (leave (64 + n) ((queue s q).ring.getD 0) p (popHead (.queue q) g)) := by
    rw [exec_selection_client hready hn, if_pos hopen, select]
    simp only [hcircuit, tryClasses, hpick, hgate]
    rfl
  have hu : Touches [.nodes, .sch, .dma, .adm] (popHead (.queue q) g) s := (hpop.trans hg).widen rfl
  obtain ⟨t, ht, htouch, htx, hports, hspent⟩ := sent_client hexec hn hon hup hu ⟨rfl, rfl, rfl⟩
  have hqueue (k : Nat) : queue t k = queue (popHead (.queue q) g) k := by rw [queue, htouch.sch rfl, ← queue]
  exact ⟨t, ht, htx, hports, by rw [hqueue, hq, hframes], fun k hk => by rw [hqueue, hothers k hk, hframes],
    (htouch.cir rfl).trans (hu.cir rfl), hspent⟩

theorem selection_assured {path : List Child} (hready : schedReady s = true) (hn : n < 4) (hopen : destOpen s (64 + n) = true)
    (hcircuit : circuitPick s (64 + n) = none) (htimed : timedPick s (64 + n) = none)
    (hpath : fairPath s .assured (64 + n) = .queue q :: path) (hhead : (queue s q).frames.head? = some p)
    (hgate : gateSays s (64 + n) 1 p = .go) (hon : on s 18 = true) (hup : (cport s n).up = true) :
    ∃ t, exec (.schedulerSelection (64 + n)) s = .next t ∧ (cport t n).tx = (cport s n).tx ++ [p] ∧
      (queue t q).frames = (queue s q).frames.drop 1 ∧ (∀ k, k ≠ q → (queue t k).frames = (queue s k).frames) ∧
      t.cir = s.cir ∧ creditsSpent t (portKey (64 + n)) = creditsSpent s (portKey (64 + n)) + beats p := by
  let g := gateHold (64 + n) 1 false s
  let l := acctLen g (64 + n) p
  let served := (Child.queue q :: path).foldl (serveChild .assured l) g
  let charged := chargeAll (pathOf g q) l served
  have hg : Touches [.adm] g s := touches_gateHold_false _ _ s
  have hcharged : FramesKept charged g :=
    (framesKept_chargeAll _ _ _).trans (.foldl (fun t a => framesKept_serveChild .assured l t a) _ g)
  have hframes (k : Nat) : (queue charged k).frames = (queue s k).frames := by
    rw [hcharged.frames, queue, hg.sch rfl, ← queue]
  obtain ⟨hpop, hq, hothers⟩ := popHead_queue q charged
  have hportOpen : portOpen s (64 + n) = true := by simp [portOpen]; omega
  have hexec : exec (.schedulerSelection (64 + n)) s =
      done s (leave (64 + n) ((queue g q).ring.getD 0) p (popHead (.queue q) charged)) := by
    rw [exec_selection_client hready hn, if_pos hopen, select]
    simp only [hcircuit, tryClasses, htimed, fairClasses, tryFair, hpath, pathHead, List.head?_cons, hhead, hportOpen, hgate]
    rfl
  have hu : Touches [.nodes, .sch, .dma, .events 7, .adm] (popHead (.queue q) charged) s :=
    (hpop.trans (hcharged.touches.trans hg)).widen rfl
  obtain ⟨t, ht, htouch, htx, -, hspent⟩ := sent_client hexec hn hon hup hu ⟨rfl, rfl, rfl⟩
  have hqueue (k : Nat) : queue t k = queue (popHead (.queue q) charged) k := by rw [queue, htouch.sch rfl, ← queue]
  exact ⟨t, ht, htx, by rw [hqueue, hq, hframes], fun k hk => by rw [hqueue, hothers k hk, hframes],
    (htouch.cir rfl).trans (hu.cir rfl), hspent⟩

theorem selection_nothing (hready : schedReady s = true) (hn : n < 4) (hcircuit : circuitPick s (64 + n) = none)
    (htimed : timedPick s (64 + n) = none) (hassured : fairPath s .assured (64 + n) = [])
    (hbest : fairPath s .bestEffort (64 + n) = []) : Becomes (.schedulerSelection (64 + n)) s s := by
  have hselect : select (64 + n) s = s := by
    simp only [select, hcircuit, tryClasses, htimed, fairClasses, tryFair, hassured, hbest, pathHead, List.head?_nil]
  refine becomes_self ?_
  rw [exec_selection_client hready hn, hselect, ite_self]

theorem selection_unready (h : n < 64 ∨ 85 < n ∨ schedReady s = false) : Becomes (.schedulerSelection n) s s := by
  have hrow : exec (.schedulerSelection n) s = execSchedulerSelection n s := rfl
  refine becomes_self (hrow.trans (if_neg fun hall => ?_))
  simp only [Bool.and_eq_true, decide_eq_true_eq] at hall
  obtain ⟨⟨hready, hlo⟩, hhi⟩ := hall
  obtain h | h | h := h
  · omega
  · omega
  · simp [h] at hready

theorem selection_shut (hn : n < 4) (hshut : destOpen s (64 + n) = false) : Becomes (.schedulerSelection (64 + n)) s s := by
  cases hready : schedReady s with
  | false => exact selection_unready (.inr (.inr hready))
  | true => exact becomes_self (by rw [exec_selection_client hready hn, if_neg (by simp [hshut])])

/-! ### Credit comes back (R17) -/

theorem creditReturn_returns {f : Iface} (h : f.inst < ifaceInsts f.block f.i) :
    ∃ t, exec (.creditReturn f) s = .next t ∧ Agree t { s with spent := t.spent } ∧
      creditsSpent t (ifaceKey f.block f.i f.inst) = creditsSpent s (ifaceKey f.block f.i f.inst) - 1 ∧
      ∀ k, k ≠ ifaceKey f.block f.i f.inst → creditsSpent t k = creditsSpent s k := by
  let key := ifaceKey f.block f.i f.inst
  let u : State := { s with spent := mput 0 s.spent key (creditsSpent s key - 1) }
  have hu : Touches [.spent] u s := touches_overlay [.spent] u s (by decide) (by decide) (by decide) (by decide)
  obtain ⟨t, ht, htouch⟩ := next_touches (c := .creditReturn f) (s := s) (u := u) (if_pos h)
  refine ⟨t, ht, ((htouch.trans hu).widen rfl : Touches [.events 9, .spent] t s).agree, ?_, fun k hk => ?_⟩
  · rw [creditsSpent, htouch.spent rfl]
    exact mget_mput_same _ _ _ _
  · rw [creditsSpent, htouch.spent rfl]
    exact mget_mput_of_ne _ _ _ hk

theorem creditReturn_unknown {f : Iface} (h : ifaceInsts f.block f.i ≤ f.inst) : Becomes (.creditReturn f) s s :=
  becomes_self (if_neg (Nat.not_lt.mpr h))

end Selection

/-- Settles O35. -/
theorem portSelection : Obligations.PortSelection := by
  unfold Obligations.PortSelection
  exact ⟨fun _ _ _ _ => selection_circuit, fun _ _ _ _ => selection_timed, fun _ _ _ _ _ => selection_assured,
    fun _ _ => selection_nothing, fun _ _ => selection_shut, fun _ _ => selection_unready, fun _ _ => creditReturn_returns,
    fun _ _ => creditReturn_unknown⟩

end Sys2Proof.Machine
end

section
/-! The calendar of shaped nodes (R218-R222). -/

namespace Sys2Proof.Machine

/-! ### Shapers of items -/

@[simp] theorem subNode_setSub_same (n : Nat) (x : SNode) (s : State) : subNode (setSub n x s) n = x := mget_mput_same _ _ _ _

theorem subNode_setSub_of_ne {n k : Nat} (h : k ≠ n) (x : SNode) (s : State) : subNode (setSub n x s) k = subNode s k :=
  mget_mput_of_ne _ _ _ h

@[simp] theorem svcNode_setSvc_same (n : Nat) (x : SNode) (s : State) : svcNode (setSvc n x s) n = x := mget_mput_same _ _ _ _

theorem svcNode_setSvc_of_ne {n k : Nat} (h : k ≠ n) (x : SNode) (s : State) : svcNode (setSvc n x s) k = svcNode s k :=
  mget_mput_of_ne _ _ _ h

@[simp] theorem portNode_setPort_same (n : Nat) (x : SNode) (s : State) : portNode (setPort n x s) n = x := mget_mput_same _ _ _ _

theorem portNode_setPort_of_ne {n k : Nat} (h : k ≠ n) (x : SNode) (s : State) : portNode (setPort n x s) k = portNode s k := by
  simp only [portNode, setPort, mput]
  split
  · exact mget_merase_of_ne _ _ h
  · exact mget_minsert_of_ne _ _ _ h

theorem shaperOf_shaperSet (i : Item) (sh : Shaper) (s : State) (j : Item) :
    shaperOf (shaperSet i sh s) j = if j = i then sh else shaperOf s j := by
  by_cases hj : j = i
  · rw [if_pos hj, hj]
    cases i with
    | queue q => simp [shaperOf, shaperSet]
    | sub n => simp [shaperOf, shaperSet]
    | svc n => simp [shaperOf, shaperSet]
    | port n => simp [shaperOf, shaperSet]
  · rw [if_neg hj]
    cases i with
    | queue q =>
      cases j with
      | queue k => rw [shaperOf, shaperSet, queue_setQueue_of_ne fun h => hj (by rw [h]), shaperOf]
      | sub k | svc k | port k => rfl
    | sub n =>
      cases j with
      | sub k => rw [shaperOf, shaperSet, subNode_setSub_of_ne fun h => hj (by rw [h]), shaperOf]
      | queue k | svc k | port k => rfl
    | svc n =>
      cases j with
      | svc k => rw [shaperOf, shaperSet, svcNode_setSvc_of_ne fun h => hj (by rw [h]), shaperOf]
      | queue k | sub k | port k => rfl
    | port n =>
      cases j with
      | port k => rw [shaperOf, shaperSet, portNode_setPort_of_ne fun h => hj (by rw [h]), shaperOf]
      | queue k | sub k | svc k => rfl

theorem Touches.shaperOf {l : List Part} {t s : State} (h : Touches l t s) (hl : l.contains .sch = false) (i : Item) :
    shaperOf t i = Machine.shaperOf s i := by
  cases i <;> simp only [Machine.shaperOf, queue, subNode, svcNode, portNode, h.sch hl]

theorem shaperOf_setShaper (i : Item) (sh : Shaper) (s : State) (j : Item) :
    shaperOf (setShaper i sh s) j = if j = i then sh else shaperOf s j := by
  rw [setShaper_eq, ← shaperOf_shaperSet i sh s j]
  split
  · exact (touches_ev 0x0706 _).shaperOf rfl j
  · rfl

theorem time45_setShaper (i : Item) (sh : Shaper) (s : State) : (setShaper i sh s).sch.time45 = s.sch.time45 := by
  have hset : (shaperSet i sh s).sch.time45 = s.sch.time45 := by cases i <;> rfl
  rw [setShaper_eq]
  split
  · rw [(touches_ev 0x0706 _).sch rfl, hset]
  · exact hset

/-! ### What the fair-queuing tags leave of the hierarchy -/

/-- A node without its tags. -/
def SNode.bare (x : SNode) : SNode := { x with assured := tagsReset, best := tagsReset }

theorem SNode.bare_setTags (cls : Cls) (g : Tags) (x : SNode) : (x.setTags cls g).bare = x.bare := by
  unfold SNode.setTags
  split <;> rfl

/-- Only tags differ, of queues, nodes and rings: all else of the hierarchy is the same. -/
structure TagsOnly (t s : State) : Prop where
  retagged : Retagged t s
  subs : ∀ n, (subNode t n).bare = (subNode s n).bare
  svcs : ∀ n, (svcNode t n).bare = (svcNode s n).bare
  ports : ∀ n, (portNode t n).bare = (portNode s n).bare
  shares : t.sch.shares = s.sch.shares
  time45 : t.sch.time45 = s.sch.time45

namespace TagsOnly
variable {s t u : State}

@[refl] protected theorem refl (s : State) : TagsOnly s s := ⟨.refl s, fun _ => rfl, fun _ => rfl, fun _ => rfl, rfl, rfl⟩

protected theorem trans (h : TagsOnly t u) (k : TagsOnly u s) : TagsOnly t s :=
  ⟨h.retagged.trans k.retagged, fun n => (h.subs n).trans (k.subs n), fun n => (h.svcs n).trans (k.svcs n),
    fun n => (h.ports n).trans (k.ports n), h.shares.trans k.shares, h.time45.trans k.time45⟩

theorem foldl {α : Type} {f : State → α → State} (hf : ∀ t a, TagsOnly (f t a) t) (l : List α) (s : State) : TagsOnly (l.foldl f s) s :=
  List.foldlRecOn (motive := (TagsOnly · s)) l f (.refl s) fun t ht a _ => (hf t a).trans ht

theorem shaperOf_eq (h : TagsOnly t s) (i : Item) : shaperOf t i = shaperOf s i := by
  cases i with
  | queue q => exact (congrArg Queue.shaper (h.retagged.queues q) :)
  | sub n => exact (congrArg SNode.shaper (h.subs n) :)
  | svc n => exact (congrArg SNode.shaper (h.svcs n) :)
  | port n => exact (congrArg SNode.shaper (h.ports n) :)

end TagsOnly

theorem bare_setSub (cls : Cls) (n : Nat) (g : Tags) (s : State) (k : Nat) :
    (subNode (setSub n ((subNode s n).setTags cls g) s) k).bare = (subNode s k).bare := by
  by_cases hk : k = n
  · rw [hk, subNode_setSub_same, SNode.bare_setTags]
  · rw [subNode_setSub_of_ne hk]

theorem bare_setSvc (cls : Cls) (n : Nat) (g : Tags) (s : State) (k : Nat) :
    (svcNode (setSvc n ((svcNode s n).setTags cls g) s) k).bare = (svcNode s k).bare := by
  by_cases hk : k = n
  · rw [hk, svcNode_setSvc_same, SNode.bare_setTags]
  · rw [svcNode_setSvc_of_ne hk]

theorem bare_setPort (cls : Cls) (n : Nat) (g : Tags) (s : State) (k : Nat) :
    (portNode (setPort n ((portNode s n).setTags cls g) s) k).bare = (portNode s k).bare := by
  by_cases hk : k = n
  · rw [hk, portNode_setPort_same, SNode.bare_setTags]
  · rw [portNode_setPort_of_ne hk]

theorem tagsOnly_setChildTags (cls : Cls) (c : Child) (g : Tags) (s : State) : TagsOnly (setChildTags cls c g s) s := by
  have hretagged := retagged_setChildTags cls c g s
  cases c with
  | queue q => exact ⟨hretagged, fun _ => rfl, fun _ => rfl, fun _ => rfl, rfl, rfl⟩
  | sub n => exact ⟨hretagged, bare_setSub cls n g s, fun _ => rfl, fun _ => rfl, rfl, rfl⟩
  | svc n => exact ⟨hretagged, fun _ => rfl, bare_setSvc cls n g s, fun _ => rfl, rfl, rfl⟩
  | ring n => exact ⟨hretagged, fun _ => rfl, fun _ => rfl, fun _ => rfl, rfl, rfl⟩

theorem tagsOnly_setParentTags (cls : Cls) (p : Parent) (g : Tags) (s : State) : TagsOnly (setParentTags cls p g s) s := by
  have hretagged := retagged_setParentTags cls p g s
  cases p with
  | sub n => exact ⟨hretagged, bare_setSub cls n g s, fun _ => rfl, fun _ => rfl, rfl, rfl⟩
  | svc n => exact ⟨hretagged, fun _ => rfl, bare_setSvc cls n g s, fun _ => rfl, rfl, rfl⟩
  | port n => exact ⟨hretagged, fun _ => rfl, fun _ => rfl, bare_setPort cls n g s, rfl, rfl⟩

theorem tagsOnly_restChild (cls : Cls) (s : State) (c : Child) : TagsOnly (restChild cls s c) s := by
  simp only [restChild]
  split
  · exact tagsOnly_setChildTags _ _ _ _
  · rfl

theorem tagsOnly_restParent (cls : Cls) (s : State) (c : Child) : TagsOnly (restParent cls s c) s := by
  simp only [restParent]
  split
  · rfl
  · exact tagsOnly_setParentTags _ _ _ _

theorem tagsOnly_wakeChild (cls : Cls) (s : State) (c : Child) : TagsOnly (wakeChild cls s c) s := by
  simp only [wakeChild]
  split
  · exact tagsOnly_setChildTags _ _ _ _
  · rfl

theorem tagsOnly_followClass (cls : Cls) (s : State) : TagsOnly (followClass cls s) s :=
  (TagsOnly.foldl (tagsOnly_wakeChild cls) _ _).trans
    ((TagsOnly.foldl (tagsOnly_restParent cls) _ _).trans (TagsOnly.foldl (tagsOnly_restChild cls) _ _))

theorem tagsOnly_followTags (s : State) : TagsOnly (followTags s) s :=
  (tagsOnly_followClass _ _).trans (tagsOnly_followClass _ _)

/-! ### A pass over the items -/

/-- An operation that gives an item's shaper, and no other, the shaper that `h` makes of it; scheduler time stands. -/
def Reshapes (h : Shaper → Shaper) (now : Nat) (f : State → Item → State) : Prop :=
  ∀ t i, schedNs t = now → schedNs (f t i) = now ∧ ∀ j, shaperOf (f t i) j = if j = i then h (shaperOf t i) else shaperOf t j

theorem reshapes_foldl {h : Shaper → Shaper} {now : Nat} {f : State → Item → State} (hf : Reshapes h now f)
    (hh : ∀ x, h (h x) = h x) (l : List Item) {s : State} (hs : schedNs s = now) (i : Item) :
    shaperOf (l.foldl f s) i = if i ∈ l then h (shaperOf s i) else shaperOf s i := by
  induction l generalizing s with
  | nil => rfl
  | cons a r ih =>
    obtain ⟨hnow, hshape⟩ := hf s a hs
    rw [List.foldl_cons, ih hnow, hshape]
    by_cases hi : i = a
    · by_cases hr : a ∈ r
      · simp [hi, hr, hh]
      · simp [hi, hr]
    · simp [hi]

theorem schedNs_setShaper (i : Item) (sh : Shaper) (s : State) : schedNs (setShaper i sh s) = schedNs s := by
  rw [schedNs, time45_setShaper, ← schedNs]

theorem wheelFor_ne_none (now e : Nat) : wheelFor now e ≠ .none := by
  unfold wheelFor
  split
  · simp
  · split <;> simp

/-- A node released from the fine wheel. -/
def fineReleased (now slot : Nat) (x : Shaper) : Shaper :=
  if x.cal == .fine slot && (x.eligible + 63) / 64 * 64 ≤ now then { x with cal := .none } else x

theorem fineReleased_idem (now slot : Nat) (x : Shaper) : fineReleased now slot (fineReleased now slot x) = fineReleased now slot x := by
  by_cases h : (x.cal == .fine slot && decide ((x.eligible + 63) / 64 * 64 ≤ now)) = true
  · simp only [fineReleased, if_pos h]
    rfl
  · simp only [fineReleased, if_neg h]

/-- A node of a coarse slot that begins, moved to its wheel. -/
def coarseMoved (now slot : Nat) (x : Shaper) : Shaper :=
  if x.cal = .coarse slot ∧ x.eligible < now + 262144 then { x with cal := wheelFor now x.eligible } else x

theorem wheelFor_fine {now e : Nat} (h : e < now + 262144) : wheelFor now e = .fine ((e + 63) / 64 % 4096) := if_pos h

theorem coarseMoved_idem (now slot : Nat) (x : Shaper) : coarseMoved now slot (coarseMoved now slot x) = coarseMoved now slot x := by
  by_cases h : x.cal = .coarse slot ∧ x.eligible < now + 262144
  · simp only [coarseMoved, if_pos h, wheelFor_fine h.2]
    simp
  · simp only [coarseMoved, if_neg h]

/-- A parked node with a rate, once a revolution of the coarse wheel has taken it in. -/
def revolved (now : Nat) (x : Shaper) : Shaper :=
  if x.cal = .parked ∧ shapes x then { x with cal := wheelFor now x.eligible } else x

theorem revolved_idem (now : Nat) (x : Shaper) : revolved now (revolved now x) = revolved now x := by
  by_cases h : x.cal = .parked ∧ shapes x
  · simp only [revolved, if_pos h]
    split <;> rfl
  · simp only [revolved, if_neg h]

/-- A pass that writes what it changes, and counts it or not. -/
theorem reshapes_of {now : Nat} {h : Shaper → Shaper} {f : State → Item → State}
    (hf : ∀ t i, schedNs t = now → f t i = t ∧ h (shaperOf t i) = shaperOf t i ∨
      (f t i = setShaper i (h (shaperOf t i)) t ∨ ∃ e, f t i = ev e (setShaper i (h (shaperOf t i)) t))) :
    Reshapes h now f := by
  intro t i ht
  obtain ⟨hsame, hshape⟩ | hset | ⟨e, hset⟩ := hf t i ht
  · rw [hsame]
    refine ⟨ht, fun j => ?_⟩
    split
    · next hj => rw [hj, hshape]
    · rfl
  · rw [hset]
    exact ⟨(schedNs_setShaper _ _ _).trans ht, shaperOf_setShaper i _ t⟩
  · have hev := touches_ev e (setShaper i (h (shaperOf t i)) t)
    rw [hset]
    refine ⟨?_, fun j => (hev.shaperOf (by simp) j).trans (shaperOf_setShaper i _ t j)⟩
    rw [schedNs, hev.sch (by simp), ← schedNs, schedNs_setShaper, ht]

section Calendar
variable {s : State} {slot : Nat}

/-- What a pass over every item leaves: each shaper is made of what it was, and frames stay. -/
theorem pass_shapes {h : Shaper → Shaper} {f : State → Item → State} (hf : Reshapes h (schedNs s) f) (hh : ∀ x, h (h x) = h x)
    (hframes : ∀ t i, FramesKept (f t i) t) {c : Instr} {u : State} (hexec : exec c s = done s u)
    (hu : TagsOnly u ((items s).foldl f s)) :
    ∃ t, exec c s = .next t ∧ (∀ i, i ∈ items s → shaperOf t i = h (shaperOf s i)) ∧
      (∀ q, (queue t q).frames = (queue s q).frames) ∧ Touches [.nodes, .sch, .dma, .events 7, .events 9] t s := by
  have hkept : FramesKept u s := (FramesKept.of_retagged hu.retagged).trans (.foldl hframes (items s) s)
  obtain ⟨t, ht, htouch⟩ := next_touches hexec
  refine ⟨t, ht, fun i hi => ?_, fun q => ?_, (htouch.trans hkept.touches).widen rfl⟩
  · rw [htouch.shaperOf rfl, hu.shaperOf_eq, reshapes_foldl hf hh (items s) rfl, if_pos hi]
  · rw [queue, htouch.sch rfl, ← queue, hkept.frames]

theorem calendarRelease_releases (hready : schedReady s = true) :
    ∃ t, exec (.calendarRelease slot) s = .next t ∧
      (∀ i, i ∈ items s → fineDue s slot (shaperOf s i) = true → shaperOf t i = { shaperOf s i with cal := .none }) ∧
      (∀ i, i ∈ items s → fineDue s slot (shaperOf s i) = false → shaperOf t i = shaperOf s i) ∧
      (∀ q, (queue t q).frames = (queue s q).frames) ∧ t.cir = s.cir ∧ t.prt.mode = s.prt.mode := by
  let f (t : State) (i : Item) : State :=
    if fineDue t slot (shaperOf t i) then ev 0x070A (setShaper i { shaperOf t i with cal := .none } t) else t
  have hf : Reshapes (fineReleased (schedNs s) slot) (schedNs s) f := by
    refine reshapes_of fun t i ht => ?_
    have hdue : (shaperOf t i).cal == .fine slot && decide (((shaperOf t i).eligible + 63) / 64 * 64 ≤ schedNs s)
        ↔ fineDue t slot (shaperOf t i) = true := by rw [fineDue, ht]
    by_cases h : fineDue t slot (shaperOf t i) = true
    · exact .inr (.inr ⟨0x070A, by simp only [f, if_pos h, fineReleased, if_pos (hdue.mpr h)]⟩)
    · exact .inl ⟨if_neg h, if_neg fun hd => h (hdue.mp hd)⟩
  have hkept (t : State) (i : Item) : FramesKept (f t i) t := by
    simp only [f]
    split
    · exact (framesKept_ev rfl _).trans (framesKept_setShaper _ _ _)
    · rfl
  obtain ⟨t, ht, hshape, hframes, hall⟩ := pass_shapes hf (fineReleased_idem _ _) hkept (c := .calendarRelease slot)
    (if_pos hready) (tagsOnly_followTags _)
  exact ⟨t, ht, fun i hi hdue => (hshape i hi).trans (if_pos hdue),
    fun i hi hdue => (hshape i hi).trans (if_neg (Bool.eq_false_iff.mp hdue)), hframes, hall.cir rfl,
    (hall.same rfl : Part.Same t s .prt).2.2.1⟩

theorem coarseSlotStart_moves (hready : schedReady s = true) :
    ∃ t, exec (.coarseSlotStart slot) s = .next t ∧
      (∀ i, i ∈ items s → (shaperOf s i).cal = .coarse slot → (shaperOf s i).eligible < schedNs s + 262144 →
        shaperOf t i = { shaperOf s i with cal := .fine (((shaperOf s i).eligible + 63) / 64 % 4096) }) ∧
      (∀ i, i ∈ items s → (shaperOf s i).cal ≠ .coarse slot → shaperOf t i = shaperOf s i) ∧
      (∀ q, (queue t q).frames = (queue s q).frames) := by
  let f (t : State) (i : Item) : State :=
    if (shaperOf t i).cal = .coarse slot ∧ (shaperOf t i).eligible < schedNs t + 262144 then
      setShaper i { shaperOf t i with cal := wheelFor (schedNs t) (shaperOf t i).eligible } t
    else t
  have hf : Reshapes (coarseMoved (schedNs s) slot) (schedNs s) f := by
    refine reshapes_of fun t i ht => ?_
    by_cases h : (shaperOf t i).cal = .coarse slot ∧ (shaperOf t i).eligible < schedNs s + 262144
    · exact .inr (.inl (by simp only [f, ht, if_pos h, coarseMoved]))
    · exact .inl ⟨by simp only [f, ht, if_neg h], if_neg h⟩
  have hkept (t : State) (i : Item) : FramesKept (f t i) t := by
    simp only [f]
    split
    · exact framesKept_setShaper _ _ _
    · rfl
  obtain ⟨t, ht, hshape, hframes, -⟩ := pass_shapes hf (coarseMoved_idem _ _) hkept (c := .coarseSlotStart slot)
    (if_pos hready) (.refl _)
  exact ⟨t, ht, fun i hi hcal hsoon => by rw [hshape i hi, coarseMoved, if_pos ⟨hcal, hsoon⟩, wheelFor_fine hsoon],
    fun i hi hcal => (hshape i hi).trans (if_neg fun h => hcal h.1), hframes⟩

theorem coarseRevolution_takesIn (hready : schedReady s = true) :
    ∃ t, exec .coarseRevolution s = .next t ∧
      (∀ i, i ∈ items s → (shaperOf s i).cal = .parked → shapes (shaperOf s i) = true →
        shaperOf t i = { shaperOf s i with cal := wheelFor (schedNs s) (shaperOf s i).eligible }) ∧
      (∀ i, i ∈ items s → (shaperOf s i).cal ≠ .parked → shaperOf t i = shaperOf s i) ∧
      (∀ q, (queue t q).frames = (queue s q).frames) := by
  let f (t : State) (i : Item) : State :=
    if (shaperOf t i).cal = .parked ∧ shapes (shaperOf t i) then
      setShaper i { shaperOf t i with cal := wheelFor (schedNs t) (shaperOf t i).eligible } t
    else t
  have hf : Reshapes (revolved (schedNs s)) (schedNs s) f := by
    refine reshapes_of fun t i ht => ?_
    by_cases h : (shaperOf t i).cal = .parked ∧ shapes (shaperOf t i)
    · exact .inr (.inl (by simp only [f, ht, if_pos h, revolved]))
    · exact .inl ⟨if_neg h, if_neg h⟩
  have hkept (t : State) (i : Item) : FramesKept (f t i) t := by
    simp only [f]
    split
    · exact framesKept_setShaper _ _ _
    · rfl
  obtain ⟨t, ht, hshape, hframes, -⟩ := pass_shapes hf (revolved_idem _) hkept (c := .coarseRevolution)
    (if_pos hready) (.refl _)
  exact ⟨t, ht, fun i hi hcal hrate => (hshape i hi).trans (if_pos ⟨hcal, hrate⟩),
    fun i hi hcal => (hshape i hi).trans (if_neg fun h => hcal h.1), hframes⟩

theorem calendar_unready (n : Nat) (hready : schedReady s = false) :
    Becomes (.calendarRelease n) s s ∧ Becomes (.coarseSlotStart n) s s ∧ Becomes .coarseRevolution s s := by
  have hnot : ¬ schedReady s = true := by simp [hready]
  exact ⟨becomes_self (if_neg hnot), becomes_self (if_neg hnot), becomes_self (if_neg hnot)⟩

/-! ### Levels (R219, R220) -/

theorem charge_level {l : Nat} {x : Shaper} (hrate : shapes x = true) :
    (x.charge s l).level = x.now s - ((l * 65536 : Nat) : Int) ∧ ((x.charge s l).cal = .none ↔ ((l * 65536 : Nat) : Int) ≤ x.now s) := by
  have hrates : x.rate ≠ 0 ∧ x.rate ≠ 0xFFFFFFFF := by simpa [shapes] using hrate
  have hcharge : x.charge s l = Shaper.place s { x.refill s with level := (x.refill s).level - ((l * 65536 : Nat) : Int) } := if_pos hrate
  have hlevel : (x.refill s).level = x.now s := rfl
  have hrate' : (x.refill s).rate = x.rate := rfl
  rw [hcharge, Shaper.place]
  simp only [hrate', hrates.1, hrates.2, if_false, hlevel]
  split
  · next hpos => exact ⟨rfl, iff_of_true rfl (by omega)⟩
  · next hneg => exact ⟨rfl, iff_of_false (wheelFor_ne_none _ _) (by omega)⟩

theorem now_le_burst {x : Shaper} (hrate : shapes x = true) : x.now s ≤ ((x.burst * 65536 : Nat) : Int) := by
  rw [Shaper.now, if_pos hrate]
  exact min_le_left _ _

end Calendar

/-- Settles O36. -/
theorem calendar : Obligations.Calendar := by
  unfold Obligations.Calendar
  exact ⟨fun _ _ => calendarRelease_releases, fun _ _ => coarseSlotStart_moves, fun _ => coarseRevolution_takesIn,
    fun _ => calendar_unready, fun _ _ => wheelFor_fine,
    fun _ _ hlo hhi => (if_neg (Nat.not_lt.mpr hlo)).trans (if_pos hhi),
    fun _ _ hhi => (if_neg (by omega)).trans (if_neg (by omega)), fun _ _ _ => charge_level, fun _ _ => now_le_burst⟩

end Sys2Proof.Machine
end

section
/-! The queue commands of group 0x07 (R206-R209, R211, R219, R221, R224, R225, R433). -/

namespace Sys2Proof.Machine

/-! ### Queues and nodes through operations that leave the scheduler -/

namespace Touches
variable {l : List Part} {t s : State}

theorem queue (h : Touches l t s) (hl : l.contains .sch = false) (q : Nat) : queue t q = Machine.queue s q := by
  rw [Machine.queue, h.sch hl, ← Machine.queue]

theorem subNode (h : Touches l t s) (hl : l.contains .sch = false) (n : Nat) : subNode t n = Machine.subNode s n := by
  rw [Machine.subNode, h.sch hl, ← Machine.subNode]

theorem svcNode (h : Touches l t s) (hl : l.contains .sch = false) (n : Nat) : svcNode t n = Machine.svcNode s n := by
  rw [Machine.svcNode, h.sch hl, ← Machine.svcNode]

end Touches

theorem queue_setShaper_same (q : Nat) (sh : Shaper) (s : State) :
    queue (setShaper (.queue q) sh s) q = { queue s q with shaper := sh } := by
  rw [setShaper_eq]
  split
  · rw [(touches_ev 0x0706 _).queue rfl, shaperSet, queue_setQueue_same]
  · rw [shaperSet, queue_setQueue_same]

theorem queue_setShaper_of_ne {q k : Nat} (h : k ≠ q) (sh : Shaper) (s : State) : queue (setShaper (.queue q) sh s) k = queue s k := by
  rw [setShaper_eq]
  split
  · rw [(touches_ev 0x0706 _).queue rfl, shaperSet, queue_setQueue_of_ne h]
  · rw [shaperSet, queue_setQueue_of_ne h]

theorem subNode_setShaper_same (n : Nat) (sh : Shaper) (s : State) :
    subNode (setShaper (.sub n) sh s) n = { subNode s n with shaper := sh } := by
  rw [setShaper_eq]
  split
  · rw [(touches_ev 0x0706 _).subNode rfl, shaperSet, subNode_setSub_same]
  · rw [shaperSet, subNode_setSub_same]

theorem subNode_setShaper_of_ne {n k : Nat} (h : k ≠ n) (sh : Shaper) (s : State) :
    subNode (setShaper (.sub n) sh s) k = subNode s k := by
  rw [setShaper_eq]
  split
  · rw [(touches_ev 0x0706 _).subNode rfl, shaperSet, subNode_setSub_of_ne h]
  · rw [shaperSet, subNode_setSub_of_ne h]

theorem svcNode_setShaper_same (n : Nat) (sh : Shaper) (s : State) :
    svcNode (setShaper (.svc n) sh s) n = { svcNode s n with shaper := sh } := by
  rw [setShaper_eq]
  split
  · rw [(touches_ev 0x0706 _).svcNode rfl, shaperSet, svcNode_setSvc_same]
  · rw [shaperSet, svcNode_setSvc_same]

theorem svcNode_setShaper_of_ne {n k : Nat} (h : k ≠ n) (sh : Shaper) (s : State) :
    svcNode (setShaper (.svc n) sh s) k = svcNode s k := by
  rw [setShaper_eq]
  split
  · rw [(touches_ev 0x0706 _).svcNode rfl, shaperSet, svcNode_setSvc_of_ne h]
  · rw [shaperSet, svcNode_setSvc_of_ne h]

theorem level_place (s : State) (x : Shaper) : (x.place s).level = x.level := by
  unfold Shaper.place
  split
  · rfl
  · split
    · rfl
    · split <;> rfl

theorem level_clear (s : State) (x : Shaper) : (x.clear s).level = 0 := level_place s _

/-! ### Moves (R209, R433) -/

/-- Bindings of queues may differ; nodes, shapers and frames are the same. -/
structure Unbound (t s : State) : Prop where
  kept : FramesKept t s
  subs : ∀ n, subNode t n = subNode s n
  svcs : ∀ n, svcNode t n = svcNode s n

namespace Unbound
variable {s t u : State}

@[refl] protected theorem refl (s : State) : Unbound s s := ⟨.refl s, fun _ => rfl, fun _ => rfl⟩

protected theorem trans (h : Unbound t u) (k : Unbound u s) : Unbound t s :=
  ⟨h.kept.trans k.kept, fun n => (h.subs n).trans (k.subs n), fun n => (h.svcs n).trans (k.svcs n)⟩

end Unbound

theorem unbound_unbindOut (s : State) : Unbound (unbindOut s) s := by
  have step (t : State) (q : Nat) : Unbound (setQueue q { queue t q with ring := none } t) t := by
    refine ⟨⟨(touches_queues t _).widen rfl, fun k => ?_⟩, fun _ => rfl, fun _ => rfl⟩
    by_cases hk : k = q
    · rw [hk, queue_setQueue_same]
    · rw [queue_setQueue_of_ne hk]
  refine List.foldlRecOn (motive := (Unbound · s)) _ _ (.refl s) fun t ht e _ => ?_
  split
  · exact (step t e.1).trans ht
  · exact ht

section QueueCommands
variable {s : State} {ch : Nat}

/-- A command of the group, done but for the fair-queuing tags. -/
theorem tags_follow {c : Instr} {cmd : IfCmd} {a : Ans} {u : State} (hexec : exec c s = done s (runIf cmd ch s))
    (h : Accepted cmd ch s) (heffect : cmd.effect ch (msgWords (chan s ch)) s = (followTags u, a)) :
    ∃ t, exec c s = .next t ∧ Touches (.events 9 :: .nodes :: .sch :: .dma :: mailParts) t u ∧
      (∀ q, { queue t q with tags := tagsReset } = { queue u q with tags := tagsReset }) ∧
      (∀ n, (subNode t n).bare = (subNode u n).bare) ∧ (∀ n, (svcNode t n).bare = (svcNode u n).bare) ∧
      ∀ i, shaperOf t i = shaperOf u i := by
  have htags := tagsOnly_followTags u
  obtain ⟨t, ht, htouch⟩ := accepted_touches hexec h heffect
  exact ⟨t, ht, (htouch.trans htags.retagged.touches).widen rfl, fun q => by rw [htouch.queue rfl, htags.retagged.queues],
    fun n => by rw [htouch.subNode rfl, htags.subs], fun n => by rw [htouch.svcNode rfl, htags.svcs],
    fun i => by rw [htouch.shaperOf rfl, htags.shaperOf_eq]⟩

/-- The event of a move, where there is one. -/
def countMove (b : Bool) (s : State) : State := if b then ev 0x070B s else s

theorem touches_countMove (b : Bool) (s : State) : Touches [.events 7] (countMove b s) s := by
  cases b
  · exact (Touches.refl [] s).widen rfl
  · exact touches_ev 0x070B s

theorem queueSet_sets (h : Accepted cmdQueueSet ch s) :
    let w1 := argOf s ch 1
    let w3 := argOf s ch 3
    let w4 := argOf s ch 4
    let x := queue s (fld w1 17 0)
    ∃ t, exec (.queueSet ch) s = .next t ∧
      { queue t (fld w1 17 0) with tags := tagsReset } = { x with
        enable := bit w1 18, parent := fld w1 32 19, cls := clsOf (fld w1 34 33), weight := fld w1 46 35
        limit := fld w3 17 0, yellow := fld w3 35 18, lateDrop := bit w4 0, tolerance := fld w4 12 1
        acceptReport := bit w4 13, tags := tagsReset
        ring := if bit w4 27 = true then some (fld w4 26 16)
          else if isGroup (portOfSub s (fld w1 32 19)) = true then x.ring else none
        shaper := x.shaper.reshape s (fld (argOf s ch 2) 31 0) (fld (argOf s ch 2) 55 32) } ∧
      (∀ k, k ≠ fld w1 17 0 → { queue t k with tags := tagsReset } = { queue s k with tags := tagsReset }) ∧
      t.cir = s.cir ∧ t.flw = s.flw ∧ t.pwr = s.pwr := by
  intro w1 w3 w4 x
  let q := fld w1 17 0
  let moved := x.parent != fld w1 32 19
  let y : Queue := { x with
    enable := bit w1 18, parent := fld w1 32 19, cls := clsOf (fld w1 34 33), weight := fld w1 46 35
    limit := fld w3 17 0, yellow := fld w3 35 18, lateDrop := bit w4 0, tolerance := fld w4 12 1, acceptReport := bit w4 13
    ring := if bit w4 27 = true then some (fld w4 26 16)
      else if isGroup (portOfSub s (fld w1 32 19)) = true then x.ring else none
    tags := if clsOf (fld w1 34 33) = x.cls then (if moved then x.tags.moved else x.tags) else tagsReset }
  let sh := x.shaper.reshape s (fld (argOf s ch 2) 31 0) (fld (argOf s ch 2) 55 32)
  let u := setShaper (.queue q) sh (setQueue q y s)
  obtain ⟨t, ht, htouch, hqueues, -, -⟩ := tags_follow (u := countMove moved u) (rfl : exec (.queueSet ch) s = _) h rfl
  have hmove := touches_countMove moved u
  have hall := htouch.trans (hmove.trans ((framesKept_setShaper _ _ _).touches.trans (touches_queues s _)))
  refine ⟨t, ht, ?_, fun k hk => ?_, hall.cir rfl, hall.flw rfl, hall.pwr rfl⟩
  · rw [hqueues, hmove.queue rfl, queue_setShaper_same, queue_setQueue_same]
  · rw [hqueues, hmove.queue rfl, queue_setShaper_of_ne hk, queue_setQueue_of_ne hk]

theorem subscriberSet_sets (h : Accepted cmdSubscriberSet ch s) :
    let w1 := argOf s ch 1
    ∃ t, exec (.subscriberSet ch) s = .next t ∧
      { subNode t (fld w1 13 0) with assured := tagsReset, best := tagsReset } = { subNode s (fld w1 13 0) with
        parent := fld w1 24 14, weight := fld w1 36 25, policer := fld w1 53 37, assured := tagsReset, best := tagsReset
        shaper := (subNode s (fld w1 13 0)).shaper.reshape s (fld (argOf s ch 2) 31 0) (fld (argOf s ch 2) 55 32) } ∧
      (∀ k, k ≠ fld w1 13 0 → { subNode t k with assured := tagsReset, best := tagsReset } =
        { subNode s k with assured := tagsReset, best := tagsReset }) ∧
      (∀ q, (queue t q).frames = (queue s q).frames) ∧ t.cir = s.cir ∧ t.flw = s.flw ∧ t.pwr = s.pwr := by
  intro w1
  let n := fld w1 13 0
  let x := subNode s n
  let y : SNode := { x with parent := fld w1 24 14, weight := fld w1 36 25, policer := fld w1 53 37 }
  let sh := x.shaper.reshape s (fld (argOf s ch 2) 31 0) (fld (argOf s ch 2) 55 32)
  let v := subAfter s (msgWords (chan s ch))
  let m := if x.parent != fld w1 24 14 then
    ev 0x070B (setSub n { subNode v n with assured := (subNode v n).assured.moved, best := (subNode v n).best.moved } v) else v
  have hv : subNode v n = y := subNode_setSub_same n y s
  have hm : FramesKept m s ∧ (subNode m n).bare = y.bare ∧ ∀ k, k ≠ n → subNode m k = subNode s k := by
    have hsub (t : State) (z : SNode) : FramesKept (setSub n z t) t := ⟨(touches_sch t _).widen rfl, fun _ => rfl⟩
    have hv' (k : Nat) (hk : k ≠ n) : subNode v k = subNode s k := subNode_setSub_of_ne hk y s
    simp only [m]
    split
    · refine ⟨(framesKept_ev rfl _).trans ((hsub v _).trans (hsub s y)), ?_, fun k hk => ?_⟩
      · rw [(touches_ev 0x070B _).subNode rfl, subNode_setSub_same, hv]
        rfl
      · rw [(touches_ev 0x070B _).subNode rfl, subNode_setSub_of_ne hk, hv' k hk]
    · exact ⟨hsub s y, by rw [hv], hv'⟩
  obtain ⟨hmkept, hmsame, hmother⟩ := hm
  let u := unbindOut (setShaper (.sub n) sh m)
  have hunbind := unbound_unbindOut (setShaper (.sub n) sh m)
  have hkept : FramesKept u s := hunbind.kept.trans ((framesKept_setShaper _ _ _).trans hmkept)
  obtain ⟨t, ht, htouch, hqueues, hsubs, -⟩ := tags_follow (u := u) (rfl : exec (.subscriberSet ch) s = _) h rfl
  have hall := htouch.trans hkept.touches
  refine ⟨t, ht, ?_, fun k hk => ?_, fun q => ?_, hall.cir rfl, hall.flw rfl, hall.pwr rfl⟩
  · refine (hsubs n).trans ?_
    rw [hunbind.subs, subNode_setShaper_same]
    exact congrArg (fun z : SNode => { z with shaper := sh }) hmsame
  · refine (hsubs k).trans ?_
    rw [hunbind.subs, subNode_setShaper_of_ne hk, hmother k hk]
    rfl
  · exact (congrArg Queue.frames (hqueues q) : _).trans (hkept.frames q)

theorem serviceSet_sets (h : Accepted cmdServiceSet ch s) :
    let w1 := argOf s ch 1
    ∃ t, exec (.serviceSet ch) s = .next t ∧
      { svcNode t (fld w1 10 0) with assured := tagsReset, best := tagsReset } = { svcNode s (fld w1 10 0) with
        parent := fld w1 17 11, weight := fld w1 29 18, assured := tagsReset, best := tagsReset
        shaper := (svcNode s (fld w1 10 0)).shaper.reshape s (fld (argOf s ch 2) 31 0) (fld (argOf s ch 2) 55 32) } ∧
      (∀ k, k ≠ fld w1 10 0 → { svcNode t k with assured := tagsReset, best := tagsReset } =
        { svcNode s k with assured := tagsReset, best := tagsReset }) ∧
      (∀ q, (queue t q).frames = (queue s q).frames) ∧ t.cir = s.cir ∧ t.flw = s.flw ∧ t.pwr = s.pwr := by
  intro w1
  let n := fld w1 10 0
  let x := svcNode s n
  let y : SNode := { x with parent := fld w1 17 11, weight := fld w1 29 18 }
  let sh := x.shaper.reshape s (fld (argOf s ch 2) 31 0) (fld (argOf s ch 2) 55 32)
  let v := svcAfter s (msgWords (chan s ch))
  let m := if x.parent != fld w1 17 11 then
    ev 0x070B (setSvc n { svcNode v n with assured := (svcNode v n).assured.moved, best := (svcNode v n).best.moved } v) else v
  have hv : svcNode v n = y := svcNode_setSvc_same n y s
  have hm : FramesKept m s ∧ (svcNode m n).bare = y.bare ∧ ∀ k, k ≠ n → svcNode m k = svcNode s k := by
    have hsvc (t : State) (z : SNode) : FramesKept (setSvc n z t) t := ⟨(touches_sch t _).widen rfl, fun _ => rfl⟩
    have hv' (k : Nat) (hk : k ≠ n) : svcNode v k = svcNode s k := svcNode_setSvc_of_ne hk y s
    simp only [m]
    split
    · refine ⟨(framesKept_ev rfl _).trans ((hsvc v _).trans (hsvc s y)), ?_, fun k hk => ?_⟩
      · rw [(touches_ev 0x070B _).svcNode rfl, svcNode_setSvc_same, hv]
        rfl
      · rw [(touches_ev 0x070B _).svcNode rfl, svcNode_setSvc_of_ne hk, hv' k hk]
    · exact ⟨hsvc s y, by rw [hv], hv'⟩
  obtain ⟨hmkept, hmsame, hmother⟩ := hm
  let u := unbindOut (setShaper (.svc n) sh m)
  have hunbind := unbound_unbindOut (setShaper (.svc n) sh m)
  have hkept : FramesKept u s := hunbind.kept.trans ((framesKept_setShaper _ _ _).trans hmkept)
  obtain ⟨t, ht, htouch, hqueues, -, hsvcs, -⟩ := tags_follow (u := u) (rfl : exec (.serviceSet ch) s = _) h rfl
  have hall := htouch.trans hkept.touches
  refine ⟨t, ht, ?_, fun k hk => ?_, fun q => ?_, hall.cir rfl, hall.flw rfl, hall.pwr rfl⟩
  · refine (hsvcs n).trans ?_
    rw [hunbind.svcs, svcNode_setShaper_same]
    exact congrArg (fun z : SNode => { z with shaper := sh }) hmsame
  · refine (hsvcs k).trans ?_
    rw [hunbind.svcs, svcNode_setShaper_of_ne hk, hmother k hk]
    rfl
  · exact (congrArg Queue.frames (hqueues q) : _).trans (hkept.frames q)

theorem portShaperSet_sets (h : Accepted cmdPortShaperSet ch s) :
    let n := fld (argOf s ch 1) 6 0
    ∃ t, exec (.portShaperSet ch) s = .next t ∧
      shaperOf t (.port n) = (portNode s n).shaper.reshape s (fld (argOf s ch 2) 31 0) (fld (argOf s ch 2) 55 32) ∧
      (∀ i, i ≠ .port n → shaperOf t i = shaperOf s i) ∧ (∀ q, (queue t q).frames = (queue s q).frames) ∧ t.pwr = s.pwr := by
  intro n
  let sh := (portNode s n).shaper.reshape s (fld (argOf s ch 2) 31 0) (fld (argOf s ch 2) 55 32)
  have hkept := framesKept_setShaper (.port n) sh s
  obtain ⟨t, ht, htouch, hqueues, -, -, hshapers⟩ := tags_follow (u := setShaper (.port n) sh s)
    (rfl : exec (.portShaperSet ch) s = _) h rfl
  refine ⟨t, ht, ?_, fun i hi => ?_, fun q => (congrArg Queue.frames (hqueues q) : _).trans (hkept.frames q),
    (htouch.trans hkept.touches).pwr rfl⟩
  · rw [hshapers, shaperOf_setShaper, if_pos rfl]
  · rw [hshapers, shaperOf_setShaper, if_neg hi]

/-! ### RESET (R221, R224) -/

theorem reset_policer (h : Accepted cmdReset ch s) (hkind : fld (argOf s ch 1) 2 0 = 4) :
    let i := fld (argOf s ch 1) 31 8
    Answers (.resetCmd ch) 0x0706 ch .done s (setPolicer i { policer s i with
      tc := 0, te := 0, at45 := s.sch.time45, parked := (policer s i).parked && !bit (argOf s ch 1) 3 } s) :=
  answers_of_effect rfl h (if_pos hkind)

theorem reset_effect (hkind : fld (argOf s ch 1) 2 0 ≠ 4) : cmdReset.effect ch (msgWords (chan s ch)) s =
    (followTags (resetOne (resetItem (fld (argOf s ch 1) 2 0) (fld (argOf s ch 1) 31 8)) (bit (argOf s ch 1) 3) s), .done) :=
  if_neg hkind

theorem framesKept_clearBucket (i : Item) (s : State) : FramesKept (clearBucket i s) s :=
  (framesKept_ev rfl _).trans (framesKept_setShaper _ _ _)

theorem shaperOf_clearBucket (i j : Item) (s : State) :
    shaperOf (clearBucket i s) j = if j = i then (shaperOf s i).clear s else shaperOf s j :=
  ((touches_ev 0x0707 _).shaperOf rfl j).trans (shaperOf_setShaper i _ s j)

theorem reset_bucket (h : Accepted cmdReset ch s) (hkind : fld (argOf s ch 1) 2 0 ≠ 4) (hnode : bit (argOf s ch 1) 3 = false) :
    ∃ t, exec (.resetCmd ch) s = .next t ∧
      (shaperOf t (resetItem (fld (argOf s ch 1) 2 0) (fld (argOf s ch 1) 31 8))).level = 0 ∧
      (∀ i, i ≠ resetItem (fld (argOf s ch 1) 2 0) (fld (argOf s ch 1) 31 8) → shaperOf t i = shaperOf s i) ∧
      (∀ q, (queue t q).frames = (queue s q).frames) ∧ t.flw = s.flw ∧ t.pwr = s.pwr := by
  let i := resetItem (fld (argOf s ch 1) 2 0) (fld (argOf s ch 1) 31 8)
  have hkept := framesKept_clearBucket i s
  have heffect : cmdReset.effect ch (msgWords (chan s ch)) s = (followTags (clearBucket i s), .done) := by
    rw [reset_effect hkind, hnode]
    rfl
  obtain ⟨t, ht, htouch, hqueues, -, -, hshapers⟩ := tags_follow (rfl : exec (.resetCmd ch) s = _) h heffect
  have hall := htouch.trans hkept.touches
  refine ⟨t, ht, ?_, fun j hj => ?_, fun q => (congrArg Queue.frames (hqueues q) : _).trans (hkept.frames q), hall.flw rfl,
    hall.pwr rfl⟩
  · rw [hshapers, shaperOf_clearBucket, if_pos rfl, level_clear]
  · rw [hshapers, shaperOf_clearBucket, if_neg hj]

/-- A queue whose frames a NODE reset has discarded. -/
theorem emptyQueue_spec (q : Nat) (s : State) : queue (emptyQueue q s) q = { queue s q with frames := [] } ∧
    (∀ k, k ≠ q → queue (emptyQueue q s) k = queue s k) ∧
      Touches (.sch :: .events 7 :: discardParts) (emptyQueue q s) s := by
  let u := setQueue q { queue s q with frames := [] } s
  have htouch : Touches (.events 7 :: discardParts) (emptyQueue q s) u :=
    ((touches_discardFrames _ _ _).trans (touches_count (e := 0x0708) _ u (by decide))).widen rfl
  exact ⟨by rw [htouch.queue rfl, queue_setQueue_same], fun k hk => by rw [htouch.queue rfl, queue_setQueue_of_ne hk],
    (htouch.trans (touches_queues s _)).widen rfl⟩

theorem reset_queueNode (h : Accepted cmdReset ch s) (hkind : fld (argOf s ch 1) 2 0 = 0) (hnode : bit (argOf s ch 1) 3 = true) :
    ∃ t, exec (.resetCmd ch) s = .next t ∧ (queue t (fld (argOf s ch 1) 31 8)).frames = [] ∧
      (queue t (fld (argOf s ch 1) 31 8)).parked = false ∧ (queue t (fld (argOf s ch 1) 31 8)).shaper.level = 0 ∧
      (∀ q, q ≠ fld (argOf s ch 1) 31 8 → (queue t q).frames = (queue s q).frames) ∧ t.flw = s.flw ∧ t.pwr = s.pwr := by
  let q := fld (argOf s ch 1) 31 8
  let v := clearBucket (.queue q) s
  let e := emptyQueue q v
  let u := clearTags (.queue q) e
  have hkept := framesKept_clearBucket (.queue q) s
  obtain ⟨hq, hothers, hempty⟩ := emptyQueue_spec q v
  have heffect : cmdReset.effect ch (msgWords (chan s ch)) s = (followTags u, .done) := by
    rw [reset_effect (by omega), hkind, hnode]
    rfl
  obtain ⟨t, ht, htouch, hqueues, -, -, -⟩ := tags_follow (rfl : exec (.resetCmd ch) s = _) h heffect
  have hall := htouch.trans ((touches_queues e _).trans (hempty.trans hkept.touches))
  have hsame : { queue t q with tags := tagsReset } = { queue v q with tags := tagsReset, frames := [], parked := false } := by
    rw [hqueues, show queue u q = { queue e q with tags := tagsReset, parked := false } from queue_setQueue_same q _ e, hq]
  have hlevel : (queue v q).shaper.level = 0 := by
    have hclear : (queue v q).shaper = (shaperOf s (.queue q)).clear s := (shaperOf_clearBucket (.queue q) (.queue q) s).trans (if_pos rfl)
    rw [hclear, level_clear]
  refine ⟨t, ht, (congrArg Queue.frames hsame : _), (congrArg Queue.parked hsame : _),
    (congrArg (fun x : Queue => x.shaper.level) hsame : _).trans hlevel, fun k hk => ?_, hall.flw rfl, hall.pwr rfl⟩
  have hk' : (queue t k).frames = (queue u k).frames := (congrArg Queue.frames (hqueues k) : _)
  rw [hk', show queue u k = queue e k from queue_setQueue_of_ne hk _ e, hothers k hk, hkept.frames]

end QueueCommands

/-- Settles O37, command by command. -/
theorem queueCommands : Obligations.QueueCommands := by
  unfold Obligations.QueueCommands
  exact ⟨fun _ _ => queueSet_sets, fun _ _ => subscriberSet_sets, fun _ _ => serviceSet_sets, fun _ _ => portShaperSet_sets,
    fun _ _ h => answers_of_effect rfl h rfl, fun _ _ => reset_policer, fun _ _ => reset_bucket, fun _ _ => reset_queueNode,
    fun _ _ h => answers_of_effect rfl h rfl, fun _ _ h => answers_of_effect rfl h rfl⟩

end Sys2Proof.Machine
end

section
/-! Contracts with the head end, their account, and gate lists (R234-R237, R248-R250). -/

namespace Sys2Proof.Machine

/-! ### The tables of admission -/

section Tables
variable {s t : State} {l : List Part}

@[simp] theorem gsContract_setGsContract_same (g : Nat) (x : GsContract) (s : State) : gsContract (setGsContract g x s) g = x :=
  mget_mput_same _ _ _ _

theorem gsContract_setGsContract_of_ne {g k : Nat} (h : k ≠ g) (x : GsContract) (s : State) :
    gsContract (setGsContract g x s) k = gsContract s k := mget_mput_of_ne _ _ _ h

@[simp] theorem gate_setGate_same (n : Nat) (g : Gate) (s : State) : gate (setGate n g s) n = g := mget_mput_same _ _ _ _

theorem gate_setGate_of_ne {n k : Nat} (h : k ≠ n) (g : Gate) (s : State) : gate (setGate n g s) k = gate s k :=
  mget_mput_of_ne _ _ _ h

@[simp] theorem admPort_setAdmPort_same (n : Nat) (x : AdmPort) (s : State) : admPort (setAdmPort n x s) n = x :=
  mget_mput_same _ _ _ _

theorem admPort_setAdmPort_of_ne {n k : Nat} (h : k ≠ n) (x : AdmPort) (s : State) : admPort (setAdmPort n x s) k = admPort s k :=
  mget_mput_of_ne _ _ _ h

theorem Touches.gsContract (h : Touches l t s) (hl : l.contains .adm = false) (g : Nat) :
    gsContract t g = Machine.gsContract s g := by rw [Machine.gsContract, h.adm hl, ← Machine.gsContract]

theorem Touches.gate (h : Touches l t s) (hl : l.contains .adm = false) (n : Nat) : gate t n = Machine.gate s n := by
  rw [Machine.gate, h.adm hl, ← Machine.gate]

theorem Touches.admPort (h : Touches l t s) (hl : l.contains .adm = false) (n : Nat) : admPort t n = Machine.admPort s n := by
  rw [Machine.admPort, h.adm hl, ← Machine.admPort]

theorem touches_setGsContract (g : Nat) (x : GsContract) (s : State) : Touches [.adm] (setGsContract g x s) s := touches_adm s _

theorem touches_setGate (n : Nat) (g : Gate) (s : State) : Touches [.adm] (setGate n g s) s := touches_adm s _

theorem touches_setAdmPort (n : Nat) (x : AdmPort) (s : State) : Touches [.adm] (setAdmPort n x s) s := touches_adm s _

theorem touches_sendControl (group type : Nat) (body : List Byte) (s : State) :
    Touches [.air, .up] (sendControl group type body s) s := touches_up s _

end Tables

/-! ### A curve kept across a change (R234) -/

/-- A curve that is kept changes the end of the combined curve of its port, and nothing else. -/
theorem keepCurve_cases (port : Nat) (before after : State) : keepCurve port before after = after ∨
    ∃ old n, keepCurve port before after = setAdmPort port { admPort after port with old := old, until' := n } after := by
  unfold keepCurve
  split
  · exact .inl rfl
  · split
    · exact .inl rfl
    · exact .inr ⟨_, _, rfl⟩

theorem touches_keepCurve (port : Nat) (before after : State) : Touches [.adm] (keepCurve port before after) after := by
  obtain h | ⟨_, _, h⟩ := keepCurve_cases port before after
  · rw [h]
  · exact h ▸ touches_setAdmPort _ _ _

@[simp] theorem gsContract_keepCurve (port : Nat) (before after : State) (g : Nat) :
    gsContract (keepCurve port before after) g = gsContract after g := by
  obtain h | ⟨_, _, h⟩ := keepCurve_cases port before after
  · rw [h]
  · exact h ▸ rfl

@[simp] theorem gate_keepCurve (port : Nat) (before after : State) (n : Nat) :
    gate (keepCurve port before after) n = gate after n := by
  obtain h | ⟨_, _, h⟩ := keepCurve_cases port before after
  · rw [h]
  · exact h ▸ rfl

theorem admPort_keepCurve_of_ne {port n : Nat} (hn : n ≠ port) (before after : State) :
    admPort (keepCurve port before after) n = admPort after n := by
  obtain h | ⟨_, _, h⟩ := keepCurve_cases port before after
  · rw [h]
  · rw [h, admPort_setAdmPort_of_ne hn]

theorem admPort_keepCurve (port : Nat) (before after : State) :
    { admPort (keepCurve port before after) port with old := none, until' := 0 } = { admPort after port with old := none, until' := 0 } := by
  obtain h | ⟨_, _, h⟩ := keepCurve_cases port before after
  · rw [h]
  · rw [h, admPort_setAdmPort_same]

/-! ### Contract items (R236) -/

section Contracts
variable {s : State} {item : CtrlIn}

/-- A command that ends with a report: the event is counted once, and but for mail nothing follows. -/
theorem next_report {c : Instr} {e : Nat} {data : List Word} {l : List Part} {s u : State}
    (hexec : exec c s = done s (evReport e data u)) (hu : Touches l u s) (hl : l.contains (.events (e / 256)) = false)
    (hpwr : l.contains .pwr = false) (hmail : (.events 9 :: mailParts).contains (Part.events (e / 256)) = false) :
    ∃ t, exec c s = .next t ∧ Counts e 0 1 s t ∧ Touches (.events 9 :: mailParts ++ [.events (e / 256)]) t u := by
  obtain ⟨t, ht, htouch⟩ := next_touches hexec
  have hreport : Touches (.events 9 :: mailParts) t (ev e u) := htouch.trans (touches_event e data (ev e u))
  exact ⟨t, ht, counts_of_touches hreport hu hmail hl hpwr (by decide), hreport.trans (touches_ev e u)⟩

theorem contractOffer_accepts (htakes : takesContracts s = true) (hitem : contractItem item 0x81 16 = true)
    (hrange : offerRange (be (item.drop 8) 0 1) (be (item.drop 8) 4 4) (be (item.drop 8) 8 2) (be (item.drop 8) 10 2) = true)
    (hframe : 2 ≤ framesTo s (be (item.drop 8) 12 4)) (hcur : (gsContract s (be (item.drop 8) 0 1)).cur = none) :
    ∃ t, exec (.contractOffer item) s = .next t ∧ Counts 0x0816 0 1 s t ∧
      gsContract t (be (item.drop 8) 0 1) = { gsContract s (be (item.drop 8) 0 1) with
        next := some (some { number := be (item.drop 8) 2 2, rate := be (item.drop 8) 4 4, lat := be (item.drop 8) 8 2, minBurst := be (item.drop 8) 10 2 },
          be (item.drop 8) 12 4) } ∧
      (∀ g, g ≠ be (item.drop 8) 0 1 → gsContract t g = gsContract s g) ∧
      t.up = (sendControl 2 2 (natBe 1 (be (item.drop 8) 0 1) ++ [0] ++ natBe 2 (be (item.drop 8) 2 2)) s).up ∧
      t.pf = s.pf ∧ t.sch = s.sch := by
  let b := item.drop 8
  let x : GsContract := { gsContract s (be b 0 1) with
    cur := none, next := some (some { number := be b 2 2, rate := be b 4 4, lat := be b 8 2, minBurst := be b 10 2 }, be b 12 4) }
  let u := sendControl 2 2 (natBe 1 (be b 0 1) ++ [0] ++ natBe 2 (be b 2 2)) (setGsContract (be b 0 1) x s)
  have hexec : exec (.contractOffer item) s = done s (evReport 0x0816 (bytesWords 2 b) u) := by
    have hrow : exec (.contractOffer item) s = execContractOffer item s := rfl
    rw [hrow, execContractOffer, if_neg (by simp [htakes])]
    simp only [hcur]
    exact if_pos (by simp [hitem, hrange, hframe])
  have hsend := touches_sendControl 2 2 (natBe 1 (be b 0 1) ++ [0] ++ natBe 2 (be b 2 2)) (setGsContract (be b 0 1) x s)
  obtain ⟨t, ht, hcounts, htouch⟩ := next_report hexec (hsend.trans (touches_setGsContract _ x s)) rfl rfl rfl
  have hu := htouch.trans (hsend.trans (touches_setGsContract _ x s))
  have hcontract (g : Nat) : gsContract t g = gsContract (setGsContract (be b 0 1) x s) g :=
    (htouch.gsContract rfl g).trans (hsend.gsContract rfl g)
  refine ⟨t, ht, hcounts, ?_,
    fun g hg => by rw [hcontract, gsContract_setGsContract_of_ne hg], htouch.up rfl, hu.pf rfl, hu.sch rfl⟩
  rw [hcontract, gsContract_setGsContract_same]
  simp only [x, b, hcur]

theorem contractOffer_refuses (htakes : takesContracts s = true) (hbad : contractItem item 0x81 16 = false ∨
      offerRange (be (item.drop 8) 0 1) (be (item.drop 8) 4 4) (be (item.drop 8) 8 2) (be (item.drop 8) 10 2) = false ∨
      framesTo s (be (item.drop 8) 12 4) < 2) :
    BecomesCounting (.contractOffer item) 0x0810 0 s s := by
  have hrow : exec (.contractOffer item) s = execContractOffer item s := rfl
  refine becomesCounting_ev ?_ (by decide)
  rw [hrow, execContractOffer, if_neg (by simp [htakes])]
  refine if_neg fun h => ?_
  simp only [Bool.and_eq_true, decide_eq_true_eq] at h
  obtain ⟨⟨hitem, hrange⟩, hframe⟩ := h
  obtain h | h | h := hbad
  · simp [hitem] at h
  · simp [hrange] at h
  · omega

theorem contractEnd_accepts {x : Contract} (htakes : takesContracts s = true) (hitem : contractItem item 0x82 16 = true)
    (hg : be (item.drop 8) 0 1 < 64) (hcur : (gsContract s (be (item.drop 8) 0 1)).cur = some x)
    (hnumber : x.number = be (item.drop 8) 2 2) (hframe : 2 ≤ framesTo s (be (item.drop 8) 12 4))
    (hnotice : (noticeFrames s (be (item.drop 8) 0 1) : Int) ≤ framesTo s (be (item.drop 8) 12 4)) :
    ∃ t, exec (.contractEnd item) s = .next t ∧ Counts 0x0817 0 1 s t ∧
      gsContract t (be (item.drop 8) 0 1) = { gsContract s (be (item.drop 8) 0 1) with
        next := some (none, be (item.drop 8) 12 4), short := false,
        old := some (x, max (be (item.drop 8) 12 4) (s.frm.frame.toNat + noticeFrames s (be (item.drop 8) 0 1))) } ∧
      (∀ g, g ≠ be (item.drop 8) 0 1 → gsContract t g = gsContract s g) ∧ t.pf = s.pf ∧ t.sch = s.sch := by
  let b := item.drop 8
  let g := be b 0 1
  let y : GsContract := { gsContract s g with
    old := some (x, max (be b 12 4) (s.frm.frame.toNat + noticeFrames s g)), short := false }
  let u := setGsContract g { y with next := some (none, be b 12 4) } (setGsContract g y s)
  have hreduced : takeReduction g (be b 12 4) x s = setGsContract g y s := by
    have hshort : ¬ framesTo s (be b 12 4) < (noticeFrames s g : Int) := Int.not_lt.mpr hnotice
    simp only [takeReduction, hshort, decide_false, if_false]
    rfl
  have hexec : exec (.contractEnd item) s = done s (evReport 0x0817 [word (g + at' (be b 2 2) 16 + at' (be b 12 4) 32)] u) := by
    have hrow : exec (.contractEnd item) s = execContractEnd item s := rfl
    rw [hrow, execContractEnd, if_neg (by simp [htakes])]
    simp only [hcur]
    rw [if_pos (by simp [hitem, hg, hnumber, hframe]), hreduced, gsContract_setGsContract_same]
  have hu : Touches [.adm] u s := ((touches_setGsContract _ _ _).trans (touches_setGsContract _ _ _)).widen rfl
  obtain ⟨t, ht, hcounts, htouch⟩ := next_report hexec hu rfl rfl rfl
  have hall := htouch.trans hu
  refine ⟨t, ht, hcounts, ?_, fun k hk => ?_, hall.pf rfl, hall.sch rfl⟩
  · rw [htouch.gsContract rfl, gsContract_setGsContract_same]
  · rw [htouch.gsContract rfl, gsContract_setGsContract_of_ne hk, gsContract_setGsContract_of_ne hk]

theorem contractEnd_refuses (htakes : takesContracts s = true) (hcur : (gsContract s (be (item.drop 8) 0 1)).cur = none) :
    BecomesCounting (.contractEnd item) 0x0810 0 s s := by
  have hrow : exec (.contractEnd item) s = execContractEnd item s := rfl
  refine becomesCounting_ev ?_ (by decide)
  rw [hrow, execContractEnd, if_neg (by simp [htakes])]
  simp only [hcur]

theorem contracts_untaken (htakes : takesContracts s = false) :
    Becomes (.contractOffer item) s s ∧ Becomes (.contractEnd item) s s :=
  ⟨becomes_self (if_pos (by simp [htakes])), becomes_self (if_pos (by simp [htakes]))⟩

theorem contractInForce_takes {g f : Nat} {c : Option Contract} (hg : g < 64) (hnext : (gsContract s g).next = some (c, f)) :
    ∃ t, exec (.contractInForce g f) s = .next t ∧ gsContract t g = { gsContract s g with
        cur := c, next := none, deficit := if (gsContract s g).cur = none then 0 else (gsContract s g).deficit } ∧
      (∀ k, k ≠ g → gsContract t k = gsContract s k) ∧ t.pf = s.pf ∧ t.sch = s.sch := by
  let x : GsContract := { gsContract s g with
    cur := c, next := none, deficit := if (gsContract s g).cur = none then 0 else (gsContract s g).deficit }
  let s1 := keepCurve g s (setGsContract g x s)
  obtain ⟨u, hexec, hu⟩ : ∃ u, exec (.contractInForce g f) s = done s u ∧ Touches (mailParts ++ [.events 8]) u s1 := by
    have hrow : exec (.contractInForce g f) s = execContractInForce g f s := rfl
    simp only [hrow, execContractInForce, hnext, hg, Option.isNone_iff_eq_none]
    cases c with
    | none => exact ⟨s1, rfl, (Touches.refl [] s1).widen rfl⟩
    | some k => exact ⟨_, rfl, touches_evReport 0x080E _ s1⟩
  obtain ⟨t, ht, htouch⟩ := next_touches hexec
  have hs1 := htouch.trans hu
  have hall := hs1.trans ((touches_keepCurve g s _).trans (touches_setGsContract g x s))
  refine ⟨t, ht, ?_, fun k hk => ?_, hall.pf rfl, hall.sch rfl⟩
  · rw [hs1.gsContract rfl, gsContract_keepCurve, gsContract_setGsContract_same]
  · rw [hs1.gsContract rfl, gsContract_keepCurve, gsContract_setGsContract_of_ne hk]

theorem contractInForce_idle {g f : Nat} (hnext : (gsContract s g).next = none) : Becomes (.contractInForce g f) s s := by
  have hrow : exec (.contractInForce g f) s = execContractInForce g f s := rfl
  refine becomes_self ?_
  simp only [hrow, execContractInForce, hnext]

end Contracts

/-! ### The account (R237) -/

section Account
variable {s : State} {f : Nat}

/-- An upstream frame in which a stream fell short of its contract. -/
def breachOf (s : State) (f g : Nat) (c : Contract) (d : Nat) : Bool :=
  c.rate * c.lat * 64 < d * 8000 || s.up.shortGrant.contains (grantKey f g)

/-- What a stream still lacks after an upstream frame, in 1/64 byte. -/
def lacks (s : State) (f g : Nat) (c : Contract) : Nat :=
  (gsContract s g).deficit + c.rate - mget 0 s.up.granted (grantKey f g) * 64

/-- A stream's contract with the account of an upstream frame. -/
def accounted (s : State) (f g : Nat) : GsContract :=
  match measured (gsContract s g) f with
  | none => gsContract s g
  | some c => { gsContract s g with
      deficit := lacks s f g c
      breaches := (gsContract s g).breaches + b2n (breachOf s f g c (lacks s f g c))
      old := if (gsContract s g).old.any fun o => o.2 ≤ f + 1 then none else (gsContract s g).old }

theorem accountOne_eq (s : State) (g : Nat) :
    Touches [.tin, .events 8] (accountOne f s g) (setGsContract g (accounted s f g) s) ∨
      (accountOne f s g = s ∧ accounted s f g = gsContract s g) := by
  cases hm : measured (gsContract s g) f with
  | none => exact .inr ⟨by simp only [accountOne, hm], by simp only [accounted, hm]⟩
  | some c =>
    refine .inl ?_
    simp only [accountOne, accounted, hm, breachOf, lacks]
    split
    · exact ((touches_ev 0x080D _).trans (touches_tapAdd _ _ _)).widen rfl
    · rfl

theorem touches_accountOne (s : State) (g : Nat) : Touches [.adm, .tin, .events 8] (accountOne f s g) s := by
  obtain h | ⟨h, -⟩ := accountOne_eq (f := f) s g
  · exact (h.trans (touches_setGsContract _ _ s)).widen rfl
  · rw [h]

theorem gsContract_accountOne (s : State) (g k : Nat) :
    gsContract (accountOne f s g) k = if k = g then accounted s f g else gsContract s k := by
  obtain h | ⟨h, hsame⟩ := accountOne_eq (f := f) s g
  · rw [h.gsContract rfl]
    split
    · next hk => rw [hk, gsContract_setGsContract_same]
    · next hk => rw [gsContract_setGsContract_of_ne hk]
  · rw [h, hsame]
    split
    · next hk => rw [hk]
    · rfl

theorem accounted_congr {t : State} {g : Nat} (hcontract : gsContract t g = gsContract s g) (hup : t.up = s.up) :
    accounted t f g = accounted s f g := by
  unfold accounted lacks breachOf
  rw [hcontract, hup]

theorem gsContract_accountAll (s : State) (n k : Nat) :
    gsContract ((List.range n).foldl (accountOne f) s) k = if k < n then accounted s f k else gsContract s k := by
  induction n generalizing k with
  | zero => rfl
  | succ n ih =>
    have hup : ((List.range n).foldl (accountOne f) s).up = s.up :=
      (Touches.foldl (fun t g _ => touches_accountOne (f := f) t g) s).up rfl
    have hn : gsContract ((List.range n).foldl (accountOne f) s) n = gsContract s n := by rw [ih, if_neg (Nat.lt_irrefl n)]
    rw [List.range_succ, List.foldl_append, List.foldl_cons, List.foldl_nil, gsContract_accountOne, accounted_congr hn hup, ih]
    by_cases hk : k = n
    · simp [hk]
    · simp only [if_neg hk, show (k < n + 1) = (k < n) from propext (by omega)]

theorem add_b2n_eq_succ (n : Nat) (b : Bool) : n + b2n b = n + 1 ↔ b = true := by
  cases b <;> simp [b2n]

theorem contractAccount_accounts (hon : on s 41 = true) : ∃ t, exec (.contractAccount f) s = .next t ∧
    (∀ g, 64 ≤ g → gsContract t g = gsContract s g) ∧
    (∀ g, measured (gsContract s g) f = none → gsContract t g = gsContract s g) ∧
    (∀ g c, g < 64 → measured (gsContract s g) f = some c →
      (gsContract t g).deficit = (gsContract s g).deficit + c.rate - mget 0 s.up.granted (grantKey f g) * 64 ∧
      (gsContract t g).cur = (gsContract s g).cur ∧
      ((gsContract t g).breaches = (gsContract s g).breaches + 1 ↔ (c.rate * c.lat * 64 < (gsContract t g).deficit * 8000 ∨
        grantKey f g ∈ s.up.shortGrant))) ∧ t.sch = s.sch ∧ t.pf = s.pf := by
  let s1 := (List.range 64).foldl (accountOne f) s
  have hs1 : Touches [.adm, .tin, .events 8] s1 s := Touches.foldl (fun t g _ => touches_accountOne t g) s
  obtain ⟨t, ht, htouch⟩ := next_touches (c := .contractAccount f) (s := s) (if_pos hon)
  have hup := htouch.trans (touches_up s1 _)
  have hcontract (g : Nat) : gsContract t g = if g < 64 then accounted s f g else gsContract s g := by
    rw [hup.gsContract rfl, gsContract_accountAll]
  refine ⟨t, ht, fun g hg => ?_, fun g hm => ?_, fun g c hg hm => ?_, (hup.trans hs1).sch rfl, (hup.trans hs1).pf rfl⟩
  · rw [hcontract, if_neg (by omega)]
  · rw [hcontract, accounted, hm]
    exact ite_self _
  · rw [hcontract, if_pos hg, accounted, hm]
    have hbreach : breachOf s f g c (lacks s f g c) = true ↔
        c.rate * c.lat * 64 < lacks s f g c * 8000 ∨ grantKey f g ∈ s.up.shortGrant := by simp [breachOf]
    exact ⟨rfl, rfl, (add_b2n_eq_succ _ _).trans hbreach⟩

theorem contractAccount_off (hon : on s 41 = false) : Becomes (.contractAccount f) s s :=
  becomes_self (if_neg (by simp [hon]))

end Account

/-! ### The end of a combined curve, and gate lists (R234, R248-R250) -/

section Gates
variable {s : State} {n : Nat}

theorem combinedCurveEnd_ends (hn : n < 84) (hon : on s 41 = true) (hold : (admPort s n).old ≠ none)
    (huntil : (admPort s n).until' ≤ s.tmu.ns) :
    Becomes (.combinedCurveEnd n) s (setAdmPort n { admPort s n with old := none, until' := 0 } s) :=
  becomes_of_exec_eq_done (if_pos (by simp [hn, hon, huntil, Option.isSome_iff_ne_none, hold])) (.refl _)

theorem combinedCurveEnd_early (h : 84 ≤ n ∨ (admPort s n).old = none ∨ s.tmu.ns < (admPort s n).until') :
    Becomes (.combinedCurveEnd n) s s := by
  refine becomes_self (if_neg fun hall => ?_)
  simp only [Bool.and_eq_true, decide_eq_true_eq] at hall
  obtain ⟨⟨⟨hn, -⟩, hold⟩, huntil⟩ := hall
  obtain h | h | h := h
  · omega
  · simp [h] at hold
  · omega

theorem gateIntervalEnd_frees (hn : n < 4) (hon : on s 41 = true) :
    Becomes (.gateIntervalEnd n) s (setGate n { gate s n with waiting := [] } s) :=
  becomes_of_exec_eq_done (if_pos (by simp [hn, hon])) (.refl _)

theorem gateListChanged_changes {l : GateList} {b : Nat} (hn : n < 4) (hon : on s 41 = true) (hnext : (gate s n).next = some (l, b))
    (hdue : boundaryAfter (gate s n).active b ≤ s.tmu.ns) :
    ∃ t, exec (.gateListChanged n) s = .next t ∧ Counts 0x0812 0 1 s t ∧
      gate t n = { gate s n with active := l, next := none, waiting := [] } ∧ (∀ k, k ≠ n → gate t k = gate s k) ∧
      t.sch = s.sch ∧ t.prt.mode = s.prt.mode := by
  let u := keepCurve (64 + n) s (setGate n { gate s n with active := l, next := none, waiting := [] } s)
  have hexec : exec (.gateListChanged n) s = done s (ev 0x0812 u) := by
    have hrow : exec (.gateListChanged n) s = execGateListChanged n s := rfl
    simp only [hrow, execGateListChanged, hnext]
    exact if_pos (by simp [hn, hon, hdue])
  have hu : Touches [.adm] u s := ((touches_keepCurve _ _ _).trans (touches_setGate _ _ _)).widen rfl
  obtain ⟨t, ht, htouch⟩ := next_touches hexec
  have hev := htouch.trans (touches_ev 0x0812 u)
  refine ⟨t, ht, counts_of_touches htouch hu rfl rfl rfl (by decide), ?_, fun k hk => ?_, (hev.trans hu).sch rfl, ?_⟩
  · rw [hev.gate rfl, gate_keepCurve, gate_setGate_same]
  · rw [hev.gate rfl, gate_keepCurve, gate_setGate_of_ne hk]
  · obtain ⟨-, -, hmode, -⟩ := ((hev.trans hu).same rfl : Part.Same t s .prt)
    exact hmode

theorem gateListChanged_idle (hnext : (gate s n).next = none) : Becomes (.gateListChanged n) s s := by
  have hrow : exec (.gateListChanged n) s = execGateListChanged n s := rfl
  refine becomes_self ?_
  simp only [hrow, execGateListChanged, hnext]

end Gates

/-- Settles O40. -/
theorem contractsAndGates : Obligations.ContractsAndGates := by
  unfold Obligations.ContractsAndGates
  exact ⟨fun _ _ => contractOffer_accepts, fun _ _ => contractOffer_refuses, fun _ _ _ => contractEnd_accepts,
    fun _ _ => contractEnd_refuses, fun _ _ => contracts_untaken, fun _ _ _ _ => contractInForce_takes,
    fun _ _ _ => contractInForce_idle, fun _ _ => contractAccount_accounts, fun _ _ => contractAccount_off,
    fun _ _ => combinedCurveEnd_ends, fun _ _ => combinedCurveEnd_early, fun _ _ => gateIntervalEnd_frees,
    fun _ _ _ _ => gateListChanged_changes, fun _ _ => gateListChanged_idle⟩

end Sys2Proof.Machine
end

section
/-! The admission commands of group 0x08 (R434). -/

namespace Sys2Proof.Machine

theorem rate_place (s : State) (x : Shaper) : (x.place s).rate = x.rate := by
  unfold Shaper.place
  split
  · rfl
  · split
    · rfl
    · split <;> rfl

theorem burst_place (s : State) (x : Shaper) : (x.place s).burst = x.burst := by
  unfold Shaper.place
  split
  · rfl
  · split
    · rfl
    · split <;> rfl

theorem shares_setShaper (i : Item) (sh : Shaper) (s : State) : (setShaper i sh s).sch.shares = s.sch.shares := by
  have hset : (shaperSet i sh s).sch.shares = s.sch.shares := by cases i <;> rfl
  rw [setShaper_eq]
  split
  · rw [(touches_ev 0x0706 _).sch rfl, hset]
  · exact hset

section AdmissionCommands
variable {s : State} {ch : Nat}

theorem admissionSet_sets (h : Accepted cmdAdmissionSet ch s) :
    let w := argOf s ch 1
    ∃ t, exec (.admissionSet ch) s = .next t ∧
      { admPort t (fld w 6 0) with old := none, until' := 0 } = { admPort s (fld w 6 0) with
        enable := bit w 7, maxTimed := some (fld w 22 8), maxAhead := fld w 42 23, hostLat := fld w 49 43,
        outRing := fld (argOf s ch 2) 11 0, old := none, until' := 0 } ∧
      (∀ n, n ≠ fld w 6 0 → admPort t n = admPort s n) ∧ (∀ n, gate t n = gate s n) ∧ t.sch = s.sch ∧ t.pwr = s.pwr := by
  intro w
  let n := fld w 6 0
  let x : AdmPort := { admPort s n with
    enable := bit w 7, maxTimed := some (fld w 22 8), maxAhead := fld w 42 23, hostLat := fld w 49 43
    outRing := fld (argOf s ch 2) 11 0 }
  have heffect : cmdAdmissionSet.effect ch (msgWords (chan s ch)) s = (keepCurve n s (setAdmPort n x s), .done) := rfl
  obtain ⟨t, ht, htouch⟩ := accepted_touches (rfl : exec (.admissionSet ch) s = _) h heffect
  have hall := htouch.trans ((touches_keepCurve n s _).trans (touches_setAdmPort n x s))
  refine ⟨t, ht, ?_, fun k hk => ?_, fun k => ?_, hall.sch rfl, hall.pwr rfl⟩
  · rw [htouch.admPort rfl, admPort_keepCurve, admPort_setAdmPort_same]
  · rw [htouch.admPort rfl, admPort_keepCurve_of_ne hk, admPort_setAdmPort_of_ne hk]
  · rw [htouch.gate rfl, gate_keepCurve]
    rfl

theorem contractRead_inForce (h : Accepted cmdContractRead ch s) {x : GsContract} {c : Contract}
    (hx : gsContract s (fld (argOf s ch 1) 5 0) = x) (hc : x.cur = some c) :
    Answers (.contractRead ch) 0x0805 ch (.data [word (c.number + at' 1 16), word (c.rate + at' c.lat 32 + at' c.minBurst 48),
      word (x.deficit / 64), word x.breaches]) s s := by
  have hx' : gsContract s (fld (arg (msgWords (chan s ch)) 1) 5 0) = x := hx
  have heffect : cmdContractRead.effect ch (msgWords (chan s ch)) s =
      (s, .data [word (c.number + at' 1 16), word (c.rate + at' c.lat 32 + at' c.minBurst 48),
        word (x.deficit / 64), word x.breaches]) := by
    simp only [cmdContractRead, hx', hc]
    rfl
  exact answers_of_effect (cmd := cmdContractRead) rfl h heffect

theorem gateWrite_writes (h : Accepted cmdGateWrite ch s) :
    let n := fld (argOf s ch 1) 1 0
    let first := fld (argOf s ch 1) 11 2
    let len := (msgWords (chan s ch)).length - 2
    ∃ t, exec (.gateWrite ch) s = .next t ∧ (gate t n).active = (gate s n).active ∧ (gate t n).next = none ∧
      (∀ k, k < len → mget gateEntryReset (gate t n).standby (first + k) = argOf s ch (2 + k)) ∧
      (∀ k, k < first ∨ first + len ≤ k → mget gateEntryReset (gate t n).standby k = mget gateEntryReset (gate s n).standby k) ∧
      (∀ m, m ≠ n → gate t m = gate s m) ∧ t.sch = s.sch ∧ t.pwr = s.pwr := by
  intro n first len
  let g (k : Nat) (_ : Word) : Word := argOf s ch (2 + k)
  let x : Gate := { gate s n with standby := changeRun gateEntryReset first len g (gate s n).standby, next := none }
  have heffect : cmdGateWrite.effect ch (msgWords (chan s ch)) s = (setGate n x s, .done) := rfl
  obtain ⟨t, ht, htouch⟩ := accepted_touches (rfl : exec (.gateWrite ch) s = _) h heffect
  have hx : gate t n = x := by rw [htouch.gate rfl, gate_setGate_same]
  have hall := htouch.trans (touches_setGate n x s)
  refine ⟨t, ht, by rw [hx], by rw [hx], fun k hk => ?_, fun k hk => ?_, fun k hk => ?_, hall.sch rfl, hall.pwr rfl⟩
  · rw [hx, mget_changeRun_inside _ g _ hk]
  · rw [hx, mget_changeRun_outside _ g _ hk]
  · rw [htouch.gate rfl, gate_setGate_of_ne hk]

theorem hostShare_shares (h : Accepted cmdHostShare ch s) :
    let g := fld (argOf s ch 1) 3 0
    let x := fld (argOf s ch 2) 31 0
    ∃ t, exec (.hostShare ch) s = .next t ∧ share t g = x ∧ (∀ k, k ≠ g → share t k = share s k) ∧
      (shaperOf t (.port (68 + g))).rate = x ∧ (shaperOf t (.port (68 + g))).burst = (portNode s (68 + g)).shaper.burst ∧
      (∀ i, i ≠ .port (68 + g) → shaperOf t i = shaperOf s i) ∧ (∀ q, (queue t q).frames = (queue s q).frames) ∧
      t.pwr = s.pwr ∧ t.flw = s.flw := by
  intro g x
  let s1 : State := { s with sch := { s.sch with shares := mput 12500000 s.sch.shares g x } }
  let old := (portNode s (68 + g)).shaper
  let sh := old.reshape s x old.burst
  let u := setShaper (.port (68 + g)) sh s1
  let v := keepCurve (68 + g) s u
  have hkept : FramesKept u s1 := framesKept_setShaper _ sh s1
  have hv : Touches [.adm] v u := touches_keepCurve _ s u
  have htags := tagsOnly_followTags v
  have heffect : cmdHostShare.effect ch (msgWords (chan s ch)) s = (followTags v, .done) := rfl
  obtain ⟨t, ht, htouch⟩ := accepted_touches (rfl : exec (.hostShare ch) s = _) h heffect
  have hall := htouch.trans (htags.retagged.touches.trans (hv.trans (hkept.touches.trans (touches_sch s _))))
  have hshares : t.sch.shares = s1.sch.shares := by
    rw [htouch.sch rfl, htags.shares, hv.sch rfl, shares_setShaper]
  have hshaper (i : Item) : shaperOf t i = if i = .port (68 + g) then sh else shaperOf s1 i := by
    rw [htouch.shaperOf rfl, htags.shaperOf_eq, hv.shaperOf rfl, shaperOf_setShaper]
  refine ⟨t, ht, ?_, fun k hk => ?_, ?_, ?_, fun i hi => ?_, fun q => ?_, hall.pwr rfl, hall.flw rfl⟩
  · rw [share, hshares]
    exact mget_mput_same _ _ _ _
  · rw [share, hshares]
    exact mget_mput_of_ne _ _ _ hk
  · rw [hshaper, if_pos rfl]
    exact rate_place s _
  · rw [hshaper, if_pos rfl]
    exact burst_place s _
  · rw [hshaper, if_neg hi]
    cases i <;> rfl
  · rw [htouch.queue rfl, htags.retagged.frames_eq, hv.queue rfl, hkept.frames]
    rfl

end AdmissionCommands

/-- Settles O41. -/
theorem admissionCommands : Obligations.AdmissionCommands := by
  unfold Obligations.AdmissionCommands
  exact ⟨fun _ _ => admissionSet_sets, fun _ _ h => answers_of_effect (cmd := cmdAdmissionRead) rfl h rfl,
    fun _ _ h => answers_of_effect (cmd := cmdContractRequest) rfl h rfl,
    fun _ _ h => answers_of_effect (cmd := cmdContractRelease) rfl h rfl, fun _ _ h _ _ => contractRead_inForce h,
    fun _ _ => gateWrite_writes, fun _ _ h => answers_of_effect (cmd := cmdGateCommit) rfl h rfl,
    fun _ _ => hostShare_shares⟩

end Sys2Proof.Machine
end

section
/-! Pause frames received, and the pause that a port obeys (R271-R274). -/

namespace Sys2Proof.Machine

/-! ### What leaves the ports as they are -/

theorem prt_count (e inst n : Nat) (s : State) : (count e inst n s).prt = s.prt := by
  unfold count
  split <;> rfl

theorem prt_raise (v : Nat) (s : State) : (raise v s).prt = s.prt := by
  unfold raise
  split_ifs <;> rfl

theorem prt_settle (s s' : State) : (settle s s').prt = s'.prt := by
  simp only [settle]
  split_ifs
  · rfl
  · rfl
  · exact prt_raise 0 _

theorem prt_followTags (s : State) : (followTags s).prt = s.prt :=
  (congrArg State.prt (tagsOnly_followTags s).retagged.rest :)

theorem prt_post (c : Nat) (s : State) : (post c s).prt = s.prt := by
  have hev : (ev 0x0E01 (setChan c (posted s (chan s c)) s)).prt = s.prt := prt_count _ _ _ _
  unfold post notify
  split_ifs
  · exact (prt_raise _ _).trans hev
  · exact (prt_raise _ _).trans hev
  · exact hev

theorem prt_trySend (n : Nat) (s : State) : (trySend n s).prt = s.prt := by
  unfold trySend
  split
  · split
    · rfl
    · exact prt_post _ _
  · rfl

theorem prt_discardOut (n k : Nat) (s : State) : (discardOut n k s).prt = s.prt := prt_count _ _ _ _

theorem prt_beginOverflow (n : Nat) (s : State) : (beginOverflow n s).prt = s.prt := by
  unfold beginOverflow
  split
  · rfl
  · exact (prt_raise _ _).trans (prt_count _ _ _ _)

theorem prt_enqueueOut (n : Nat) (m : OutMsg) (s : State) : (enqueueOut n m s).prt = s.prt := by
  have overflowed : (discardOut n 1 (beginOverflow n s)).prt = s.prt := (prt_discardOut _ _ _).trans (prt_beginOverflow _ _)
  simp only [enqueueOut]
  split_ifs
  · exact prt_trySend _ _
  · exact prt_trySend _ _
  · exact overflowed
  · exact prt_discardOut _ _ _
  · exact prt_trySend _ _
  · exact overflowed

theorem prt_event (num : Nat) (data : List Word) (s : State) : (event num data s).prt = s.prt := by
  unfold event
  split
  · exact prt_enqueueOut _ _ _
  · rfl

/-! ### The pause that a class has heard -/

/-- The pause of a class as received: its timer and whether it is ignored. -/
def pauseHeard (s : State) (n p : Nat) : PauseSt := { pauseReset' (cport s n) p with xoff := false }

/-- The pause state of a class is replaced. -/
def setPause (n p : Nat) (x : PauseSt) (s : State) : State :=
  setCport n { cport s n with pauses := mput pauseReset (cport s n).pauses p x } s

theorem pauseHeard_congr {s t : State} (h : t.prt = s.prt) (n p : Nat) : pauseHeard t n p = pauseHeard s n p := by
  simp only [pauseHeard, cport, h]

theorem pauseReset'_setPause (n p : Nat) (x : PauseSt) (s : State) (m k : Nat) :
    pauseReset' (cport (setPause n p x s) m) k = if m = n ∧ k = p then x else pauseReset' (cport s m) k := by
  unfold setPause
  by_cases hm : m = n
  · rw [hm, cport_setCport_same]
    by_cases hk : k = p
    · rw [if_pos ⟨rfl, hk⟩, hk, pauseReset', mget_mput_same]
    · rw [if_neg fun h => hk h.2, pauseReset', mget_mput_of_ne _ _ _ hk, ← pauseReset']
  · rw [if_neg fun h => hm h.1, cport_setCport_of_ne hm]

theorem pauseHeard_setPause_same (n p : Nat) (x : PauseSt) (s : State) : pauseHeard (setPause n p x s) n p = { x with xoff := false } := by
  rw [pauseHeard, pauseReset'_setPause, if_pos ⟨rfl, rfl⟩]

/-- The pause that a port asserts is not one that it has heard. -/
theorem pauseHeard_setXoff (n p : Nat) (b : Bool) (s : State) (m k : Nat) :
    pauseHeard (setPause n p { pauseReset' (cport s n) p with xoff := b } s) m k = pauseHeard s m k := by
  rw [pauseHeard, pauseReset'_setPause]
  split
  · next h => rw [h.1, h.2, pauseHeard]
  · rfl

theorem prt_sendPause (n p quanta : Nat) (s : State) : (sendPause n p quanta s).prt = s.prt := prt_count _ _ _ _

theorem pauseHeard_judgePause (n p : Nat) (s : State) (m k : Nat) : pauseHeard (judgePause n p s) m k = pauseHeard s m k := by
  simp only [judgePause]
  split_ifs
  · exact (pauseHeard_congr (prt_sendPause _ _ _ _) m k).trans (pauseHeard_setXoff n p true s m k)
  · exact (pauseHeard_congr (prt_sendPause _ _ _ _) m k).trans (pauseHeard_setXoff n p false s m k)
  · rfl

theorem pauseHeard_pauseFollows (s : State) (m k : Nat) : pauseHeard (pauseFollows s) m k = pauseHeard s m k := by
  unfold pauseFollows
  refine List.foldlRecOn (motive := fun t => pauseHeard t m k = pauseHeard s m k) _ _ rfl fun t ht n _ => ?_
  simp only
  split
  · exact ht
  · exact List.foldlRecOn (motive := fun u => pauseHeard u m k = pauseHeard s m k) _ _ ht fun u hu p _ =>
      (pauseHeard_judgePause n p u m k).trans hu

/-- The end of a command leaves the pause that each class has heard. -/
theorem pauseHeard_of_done {s u t : State} (h : done s u = .next t) (n p : Nat) : pauseHeard t n p = pauseHeard u n p := by
  cases h
  exact (pauseHeard_congr (prt_settle _ _) n p).trans (pauseHeard_pauseFollows u n p)

theorem touches_setCport (n : Nat) (x : CPort) (s : State) : Touches [.prt] (setCport n x s) s := touches_prt s _

theorem touches_setPause (n p : Nat) (x : PauseSt) (s : State) : Touches [.prt] (setPause n p x s) s := touches_setCport _ _ _

theorem touches_setCpEvent (n b : Nat) (s : State) : Touches [.prt] (setCpEvent n b s) s :=
  (touches_raise [] 0 _).trans (touches_setCport n _ s)

theorem cport_setCpEvent (n b : Nat) (s : State) :
    cport (setCpEvent n b s) n = { cport s n with events := (cport s n).events ||| BitVec.ofNat 64 (2 ^ b) } := by
  rw [setCpEvent, cport, prt_raise, ← cport, cport_setCport_same]

theorem pauseHeard_setCpEvent (n b : Nat) (s : State) : pauseHeard (setCpEvent n b s) n = pauseHeard s n := by
  funext p
  rw [pauseHeard, cport_setCpEvent]
  rfl

theorem Touches.portEvents {l : List Part} {t s : State} (h : Touches l t s) (hl : l.contains .prt = false) (n : Nat) :
    (cport t n).events = (cport s n).events := by
  obtain ⟨hports, -⟩ := (h.same hl : Part.Same t s .prt)
  simpa using congrArg CPort.events (hports n)

theorem Agree.setCport {t s : State} (h : Agree t s) (n : Nat) (x : CPort) : Agree (setCport n x t) (setCport n x s) := by
  have same (k : Nat) : (cport (Machine.setCport n x t) k = cport (Machine.setCport n x s) k) ∨
      (cport (Machine.setCport n x t) k = cport t k ∧ cport (Machine.setCport n x s) k = cport s k) := by
    by_cases hk : k = n
    · exact .inl (by rw [hk, cport_setCport_same, cport_setCport_same])
    · exact .inr ⟨cport_setCport_of_ne hk x t, cport_setCport_of_ne hk x s⟩
  refine { h with ports := fun k => ?_, still := fun k hflow => ?_ }
  · obtain hk | ⟨ht, hs⟩ := same k
    · rw [hk]
    · rw [ht, hs, h.ports]
  · obtain hk | ⟨ht, hs⟩ := same k
    · exact hk
    · rw [ht, hs, h.still k (hs ▸ hflow)]

/-! ### Pause and PFC frames (R271) -/

section Pauses
variable {s : State} {n : Nat}

/-- What a received pause makes of its class. -/
def pauseTaken (quanta : Nat) (x : PauseSt) : PauseSt :=
  if quanta = 0 then { x with timer := false, ignoring := false } else if x.ignoring then x else { x with timer := true }

theorem pauseClassTakes_eq (n p quanta : Nat) (s : State) :
    pauseClassTakes n p quanta s = setPause n p (pauseTaken quanta (pauseReset' (cport s n) p)) s := rfl

theorem pauseTaken_pauseHeard (quanta : Nat) (x : PauseSt) : { pauseTaken quanta x with xoff := false } = { x with
    timer := (quanta != 0 && (x.timer || !x.ignoring)), ignoring := (quanta != 0 && x.ignoring), xoff := false } := by
  unfold pauseTaken
  by_cases hq : quanta = 0
  · simp [hq]
  · obtain ⟨timer, ignoring, xoff⟩ := x
    cases ignoring
    · simp [hq]
    · simp [hq]

/-- A command that ends with an event of a port and the tags that follow. -/
theorem next_pause {c : Instr} {u : State} (hexec : exec c s = done s (followTags (count 0x090B n 1 u))) (hn : n < 4)
    (hu : Touches [.prt] u s) : ∃ t, exec c s = .next t ∧ Counts 0x090B n 1 s t ∧ (∀ p, pauseHeard t n p = pauseHeard u n p) ∧
      ∀ k, (queue t k).frames = (queue s k).frames := by
  have htags := (tagsOnly_followTags (count 0x090B n 1 u)).retagged
  obtain ⟨t, ht, -, hcount⟩ := done_spec s (followTags (count 0x090B n 1 u))
  obtain ⟨t', ht', htouch⟩ := done_touches s (followTags (count 0x090B n 1 u))
  cases ht.symm.trans ht'
  refine ⟨t, hexec.trans ht, fun hon => ?_, fun p => ?_, fun k => ?_⟩
  · rw [hcount _ _ (by decide) (by omega), htags.touches.counter rfl (by omega), counter_count_same 1 (by rw [hu.on_eq _ rfl, hon]),
      hu.counter rfl (by omega)]
  · rw [pauseHeard_of_done ht, pauseHeard_congr (prt_followTags _), pauseHeard_congr (prt_count _ _ _ _)]
  · rw [htouch.queue rfl, htags.frames_eq, ((touches_count 1 u (by omega)).trans hu).queue rfl]

theorem pauseFrame_taken {q : Nat} (hn : n < 4) (hreceives : receives s n = true) (hflow : (cport s n).flow = 1) :
    ∃ t, exec (.pauseFrameReceived n q) s = .next t ∧
      { pauseReset' (cport t n) 0 with xoff := false } = { pauseReset' (cport s n) 0 with
        timer := (q != 0 && ((pauseReset' (cport s n) 0).timer || !(pauseReset' (cport s n) 0).ignoring)),
        ignoring := (q != 0 && (pauseReset' (cport s n) 0).ignoring), xoff := false } ∧
      Counts 0x090B n 1 s t ∧ (∀ k, (queue t k).frames = (queue s k).frames) := by
  have hexec : exec (.pauseFrameReceived n q) s = done s (followTags (count 0x090B n 1 (pauseClassTakes n 0 q s))) := by
    have hrow : exec (.pauseFrameReceived n q) s = done s (takePause n q s) := rfl
    rw [hrow, takePause, if_neg (by simp [hreceives]), if_pos hflow]
  obtain ⟨t, ht, hcounts, hheard, hqueues⟩ := next_pause hexec hn (touches_setPause n 0 _ s)
  refine ⟨t, ht, ?_, hcounts, hqueues⟩
  exact (hheard 0).trans ((pauseHeard_setPause_same _ _ _ _).trans (pauseTaken_pauseHeard _ _))

theorem pauseFrame_unheard {q : Nat} (hreceives : receives s n = false) : Becomes (.pauseFrameReceived n q) s s := by
  have hrow : exec (.pauseFrameReceived n q) s = done s (takePause n q s) := rfl
  refine becomes_self ?_
  rw [hrow, takePause, if_pos (by simp [hreceives])]

/-- A MAC Control frame that is not acted on is counted, and sets RX_DISCARD (R263, R279). -/
theorem becomesCounting_controlDiscard {c : Instr} (hn : n < 4) (hexec : exec c s = done s (controlDiscard n s)) :
    BecomesCounting c 0x0909 n s (setCport n { cport s n with events := (cport s n).events ||| 0x80 } s) := by
  have hcport : cport (count 0x0909 n 1 s) n = cport s n := by rw [cport, prt_count, ← cport]
  refine becomesCounting_of_exec_eq_done hexec ?_ ?_ (by decide) (by omega)
  · rw [controlDiscard, setCpEvent, hcport]
    exact (agree_raise 0 _).trans ((agree_count 0x0909 n 1 s).setCport n _)
  · exact counts_of_touches (touches_setCpEvent n 7 _) (.refl [] s) rfl rfl rfl (by omega)

theorem pauseFrame_discarded {q : Nat} (hn : n < 4) (hreceives : receives s n = true) (hflow : (cport s n).flow ≠ 1) :
    BecomesCounting (.pauseFrameReceived n q) 0x0909 n s
      (setCport n { cport s n with events := (cport s n).events ||| 0x80 } s) := by
  have hrow : exec (.pauseFrameReceived n q) s = done s (takePause n q s) := rfl
  refine becomesCounting_controlDiscard hn ?_
  rw [hrow, takePause, if_neg (by simp [hreceives]), if_neg hflow]

theorem pfcFrame_discarded {e : BitVec 8} {q : List Nat} (hn : n < 4) (hreceives : receives s n = true) (hflow : (cport s n).flow ≠ 2) :
    BecomesCounting (.pfcFrameReceived n e q) 0x0909 n s
      (setCport n { cport s n with events := (cport s n).events ||| 0x80 } s) := by
  have hrow : exec (.pfcFrameReceived n e q) s = done s (takePfc n e q s) := rfl
  refine becomesCounting_controlDiscard hn ?_
  rw [hrow, takePfc, if_neg (by simp [hreceives]), if_neg hflow]

/-- The first `m` priorities take what a PFC frame says of them. -/
def takeClasses (n : Nat) (e : BitVec 8) (q : List Nat) (m : Nat) (s : State) : State :=
  (List.range m).foldl (fun t k => if e.getLsbD k then pauseClassTakes n k (nth q k 0) t else t) s

theorem takeClasses_succ (e : BitVec 8) (q : List Nat) (m : Nat) (s : State) : takeClasses n e q (m + 1) s =
    if e.getLsbD m then pauseClassTakes n m (nth q m 0) (takeClasses n e q m s) else takeClasses n e q m s := by
  rw [takeClasses, List.range_succ, List.foldl_append]
  rfl

theorem touches_takeClasses (e : BitVec 8) (q : List Nat) (m : Nat) (s : State) : Touches [.prt] (takeClasses n e q m s) s :=
  Touches.foldl (fun t k _ => by
    split
    · exact touches_setPause _ _ _ t
    · rfl) s

theorem pauseReset'_takeClasses (e : BitVec 8) (q : List Nat) (m : Nat) (s : State) (p : Nat) :
    pauseReset' (cport (takeClasses n e q m s) n) p = if p < m ∧ e.getLsbD p = true
      then pauseTaken (nth q p 0) (pauseReset' (cport s n) p) else pauseReset' (cport s n) p := by
  induction m with
  | zero => rfl
  | succ m ih =>
    rw [takeClasses_succ]
    by_cases hp : p = m
    · rw [hp] at ih ⊢
      rw [if_neg (by simp)] at ih
      cases he : e.getLsbD m with
      | false => simpa using ih
      | true => rw [if_pos rfl, pauseClassTakes_eq, pauseReset'_setPause, if_pos ⟨rfl, rfl⟩, ih, if_pos ⟨Nat.lt_succ_self m, rfl⟩]
    · have hlt : p < m + 1 ↔ p < m := by omega
      simp only [hlt]
      rw [← ih]
      split
      · rw [pauseClassTakes_eq, pauseReset'_setPause, if_neg fun h => hp h.2]
      · rfl

theorem pfcFrame_taken {e : BitVec 8} {q : List Nat} (hn : n < 4) (hreceives : receives s n = true) (hflow : (cport s n).flow = 2) :
    ∃ t, exec (.pfcFrameReceived n e q) s = .next t ∧ Counts 0x090B n 1 s t ∧
      (∀ p, p < 8 → { pauseReset' (cport t n) p with xoff := false } = { pauseReset' (cport s n) p with
        timer := if e.getLsbD p then (nth q p 0 != 0 && ((pauseReset' (cport s n) p).timer || !(pauseReset' (cport s n) p).ignoring))
          else (pauseReset' (cport s n) p).timer,
        ignoring := if e.getLsbD p then (nth q p 0 != 0 && (pauseReset' (cport s n) p).ignoring) else (pauseReset' (cport s n) p).ignoring,
        xoff := false }) := by
  have hexec : exec (.pfcFrameReceived n e q) s = done s (followTags (count 0x090B n 1 (takeClasses n e q 8 s))) := by
    have hrow : exec (.pfcFrameReceived n e q) s = done s (takePfc n e q s) := rfl
    rw [hrow, takePfc, if_neg (by simp [hreceives]), if_pos hflow, takeClasses]
  obtain ⟨t, ht, hcounts, hheard, -⟩ := next_pause hexec hn (touches_takeClasses e q 8 s)
  refine ⟨t, ht, hcounts, fun p hp => (hheard p).trans ?_⟩
  rw [pauseHeard, pauseReset'_takeClasses]
  cases he : e.getLsbD p with
  | true => rw [if_pos ⟨hp, rfl⟩, pauseTaken_pauseHeard, if_pos rfl, if_pos rfl]
  | false => simp

/-! ### The timer, the watchdog and its second (R271, R273) -/

theorem pauseTimerExpiry_ends (n p : Nat) (s : State) : ∃ t, exec (.pauseTimerExpiry n p) s = .next t ∧
    { pauseReset' (cport t n) p with xoff := false } = { pauseReset' (cport s n) p with timer := false, xoff := false } ∧
    (∀ k, (queue t k).frames = (queue s k).frames) := by
  let u := setPause n p { pauseReset' (cport s n) p with timer := false } s
  have htags := (tagsOnly_followTags u).retagged
  obtain ⟨t, ht, htouch⟩ := done_touches s (followTags u)
  refine ⟨t, ht, ?_, fun k => ?_⟩
  · exact (pauseHeard_of_done ht n p).trans ((pauseHeard_congr (prt_followTags u) n p).trans (pauseHeard_setPause_same n p _ s))
  · rw [htouch.queue rfl, htags.frames_eq, (touches_setPause n p _ s).queue rfl]

theorem pauseWatchdog_fires {p : Nat} (hn : n < 4) (hon : on s 18 = true) (hflow : (cport s n).flow ≠ 0)
    (htimer : (pauseReset' (cport s n) p).timer = true) (hignoring : (pauseReset' (cport s n) p).ignoring = false) :
    ∃ t, exec (.pauseWatchdog n p) s = .next t ∧ Counts 0x090D n 1 s t ∧
      { pauseReset' (cport t n) p with xoff := false } = { pauseReset' (cport s n) p with timer := false, ignoring := true, xoff := false } ∧
      (cport t n).events = (cport s n).events ||| 0x20 := by
  let s1 := setPause n p { pauseReset' (cport s n) p with timer := false, ignoring := true } s
  let s2 := setCpEvent n 5 (count 0x090D n 1 s1)
  let u := event 0x090D [word (n + at' p 8)] s2
  have hexec : exec (.pauseWatchdog n p) s = done s (followTags u) := if_pos (by simp [hon, hflow, htimer, hignoring])
  have htags := (tagsOnly_followTags u).retagged
  have hs1 : Touches [.prt] s1 s := touches_setPause n p _ s
  have hs2 : Touches (.nodes :: .sch :: .dma :: .prt :: mailParts) (followTags u) (count 0x090D n 1 s1) :=
    (htags.touches.trans ((touches_event _ _ s2).trans (touches_setCpEvent n 5 _))).widen rfl
  have hprt : (followTags u).prt = s2.prt := (prt_followTags u).trans (prt_event _ _ s2)
  obtain ⟨t, ht, -, hcount⟩ := done_spec s (followTags u)
  obtain ⟨t', ht', htouch⟩ := done_touches s (followTags u)
  cases ht.symm.trans ht'
  refine ⟨t, hexec.trans ht, fun hcounted => ?_, ?_, ?_⟩
  · rw [hcount _ _ (by decide) (by omega), hs2.counter rfl (by omega), counter_count_same 1 (by rw [hs1.on_eq _ rfl, hcounted]),
      hs1.counter rfl (by omega)]
  · have hs2pause : pauseHeard s2 n p = pauseHeard s1 n p :=
      (congrFun (pauseHeard_setCpEvent n 5 _) p).trans (pauseHeard_congr (prt_count _ _ _ _) n p)
    exact (pauseHeard_of_done ht n p).trans ((pauseHeard_congr hprt n p).trans (hs2pause.trans (pauseHeard_setPause_same n p _ s)))
  · have hevents : (cport s1 n).events = (cport s n).events := by simp only [s1, setPause, cport_setCport_same]
    have hcounted : cport (count 0x090D n 1 s1) n = cport s1 n := by rw [cport, prt_count, ← cport]
    rw [htouch.portEvents rfl, cport, hprt, ← cport, cport_setCpEvent, hcounted]
    exact congrArg (· ||| 0x20) hevents

theorem pauseWatchdog_idle {p : Nat} (htimer : (pauseReset' (cport s n) p).timer = false) : Becomes (.pauseWatchdog n p) s s :=
  becomes_self (if_neg (by simp [htimer]))

theorem watchdogEnd_obeys (n p : Nat) (s : State) : ∃ t, exec (.watchdogEnd n p) s = .next t ∧
    { pauseReset' (cport t n) p with xoff := false } = { pauseReset' (cport s n) p with ignoring := false, xoff := false } := by
  obtain ⟨t, ht, -⟩ := done_touches s (setPause n p { pauseReset' (cport s n) p with ignoring := false } s)
  exact ⟨t, ht, (pauseHeard_of_done ht n p).trans (pauseHeard_setPause_same n p _ s)⟩

/-! ### The pause that a port asserts, again (R274) -/

theorem pauseRefresh_sends {p : Nat} (hup : (cport s n).up = true) (hxoff : (pauseReset' (cport s n) p).xoff = true)
    (hcells : (cport s n).xon < pauseCells s n (cport s n) p) :
    ∃ t, exec (.pauseRefresh n p) s = .next t ∧ Agree t s ∧ .pauseFrame n ((cport s n).flow == 2)
      (if (cport s n).flow = 2 then BitVec.ofNat 8 (2 ^ p) else 0)
      (if (cport s n).flow = 2 then (List.range 8).map fun k => if k = p then 0xFFFF else 0 else [0xFFFF]) ∈ t.out := by
  have hexec : exec (.pauseRefresh n p) s = done s (sendPause n p 0xFFFF s) := if_pos (by simp [hup, hxoff, hcells])
  obtain ⟨t, ht, hagree, -⟩ := done_spec s (sendPause n p 0xFFFF s)
  refine ⟨t, hexec.trans ht, hagree.trans (agree_sendPause n p _ s), (out_suffix_of_done ht).subset ?_⟩
  rw [sendPause, out_count]
  exact List.mem_cons_self

theorem pauseRefresh_idle {p : Nat} (h : (pauseReset' (cport s n) p).xoff = false ∨ pauseCells s n (cport s n) p ≤ (cport s n).xon) :
    Becomes (.pauseRefresh n p) s s := by
  refine becomes_self (if_neg fun hall => ?_)
  simp only [Bool.and_eq_true, decide_eq_true_eq] at hall
  obtain ⟨⟨-, hxoff⟩, hcells⟩ := hall
  obtain h | h := h
  · simp [hxoff] at h
  · omega

end Pauses

end Sys2Proof.Machine
end

section
/-! The commands of group 0x09 (R260, R261, R265, R435). -/

namespace Sys2Proof.Machine

/-! ### The loss of a link (R262) -/

theorem cport_mapPackets (f : Packet → Packet) (s : State) (n : Nat) :
    cport (mapPackets f s) n = { cport s n with tx := (cport s n).tx.map f } := by
  have hmap (m : Map CPort) : mget cportReset (mapVals (fun p => { p with tx := p.tx.map f }) m) n =
      { mget cportReset m n with tx := (mget cportReset m n).tx.map f } := by
    induction m with
    | nil => rfl
    | cons e r ih =>
      by_cases h : e.1 = n
      · simp [mapVals, mget, h]
      · simpa [mapVals, mget, h] using ih
  exact hmap _

/-- The links of two states' ports, and what holds of all ports together. -/
structure SameLinks (t s : State) : Prop where
  up : ∀ n, (cport t n).up = (cport s n).up
  mode : t.prt.mode = s.prt.mode
  filters : t.prt.filters = s.prt.filters

namespace SameLinks
variable {s t u : State}

protected theorem trans (h : SameLinks t u) (k : SameLinks u s) : SameLinks t s :=
  ⟨fun n => (h.up n).trans (k.up n), h.mode.trans k.mode, h.filters.trans k.filters⟩

theorem of_prt (h : t.prt = s.prt) : SameLinks t s := ⟨fun n => by simp only [cport, h], by rw [h], by rw [h]⟩

theorem of_touches {l : List Part} (h : Touches l t s) (hl : l.contains .prt = false) : SameLinks t s := by
  obtain ⟨-, -, hmode, hfilters⟩ := (h.same hl : Part.Same t s .prt)
  exact ⟨h.portUp hl, hmode, hfilters⟩

end SameLinks

theorem sameLinks_mapPackets (f : Packet → Packet) (s : State) : SameLinks (mapPackets f s) s :=
  ⟨fun n => by rw [cport_mapPackets], rfl, rfl⟩

theorem sameLinks_setCpEvent (n b : Nat) (s : State) : SameLinks (setCpEvent n b s) s := by
  have hset : SameLinks (setCport n { cport s n with events := (cport s n).events ||| BitVec.ofNat 64 (2 ^ b) } s) s := by
    refine ⟨fun k => ?_, rfl, rfl⟩
    by_cases hk : k = n
    · rw [hk, cport_setCport_same]
    · rw [cport_setCport_of_ne hk]
  exact (SameLinks.of_prt (prt_raise 0 _)).trans hset

/-- What the loss of a link touches. -/
def downParts : List Part := .sync :: .nodes :: heldParts ++ discardParts ++ [.events 9]

theorem touches_downDiscard {n : Nat} (hn : n < 4) (s : State) : Touches [.events 9] (downDiscard n s) s := by
  have hi : n < 16 := by omega
  unfold downDiscard
  split
  · exact ((touches_count 1 (ev 0x0903 s) hi).trans (touches_ev 0x0903 s)).widen rfl
  · exact touches_count (e := 0x090F) 1 s hi

theorem touches_downAll {n : Nat} (hn : n < 4) (l : List Packet) (s : State) :
    Touches (.events 9 :: discardParts) (l.foldl (fun t p => discardLine p (downDiscard n t)) s) s :=
  Touches.foldl (fun t _ _ => ((touches_discardFrame _ _ _).trans (touches_downDiscard hn t)).widen rfl) s

theorem touches_portDown {n : Nat} (hn : n < 4) (s : State) : Touches downParts (portDown n s) s := by
  have hi : n < 16 := by omega
  simp only [portDown]
  split
  · exact ((tagsOnly_followTags _).retagged.touches.trans ((touches_downAll hn _ _).trans ((touches_mapPackets _ _).trans
      ((touches_setCpEvent n 0 _).trans ((touches_count 1 _ hi).trans (touches_setCport n _ s)))))).widen rfl
  · rfl

/-- The port's link is down after, and every other stands as it was. -/
structure LinkDown (n : Nat) (t s : State) : Prop where
  up : ∀ k, (cport t k).up = if k = n then false else (cport s k).up
  mode : t.prt.mode = s.prt.mode
  filters : t.prt.filters = s.prt.filters

theorem linkDown_portDown {n : Nat} (hn : n < 4) (s : State) : LinkDown n (portDown n s) s := by
  cases hup : (cport s n).up with
  | true =>
    let s1 := setCport n { cport s n with up := false, pauses := dropXoff (cport s n).pauses, tx := [] } s
    let s2 := setCpEvent n 0 (count 0x0905 n 1 s1)
    let s3 := markCauses (· == 64 + n) (fun x => { x with lineFault := true }) s2
    let s4 := (cport s n).tx.foldl (fun t p => discardLine p (downDiscard n t)) s3
    have hdown : portDown n s = followTags s4 := if_pos hup
    have hevent : SameLinks s2 s1 := (sameLinks_setCpEvent n 0 _).trans (.of_prt (prt_count 0x0905 n 1 s1))
    have hlinks : SameLinks (followTags s4) s1 := (SameLinks.of_prt (prt_followTags s4)).trans
      ((SameLinks.of_touches (touches_downAll hn _ s3) rfl).trans ((sameLinks_mapPackets _ s2).trans hevent))
    rw [hdown]
    refine ⟨fun k => (hlinks.up k).trans ?_, hlinks.mode, hlinks.filters⟩
    split
    · next hk => rw [hk, cport_setCport_same]
    · next hk => rw [cport_setCport_of_ne hk]
  | false =>
    have hdown : portDown n s = s := if_neg (by simp [hup])
    rw [hdown]
    refine ⟨fun k => ?_, rfl, rfl⟩
    split
    · next hk => rw [hk, hup]
    · rfl

theorem touches_allPortsDown (s : State) : Touches downParts (allPortsDown s) s :=
  Touches.foldl (fun t _ hn => touches_portDown (List.mem_range.mp hn) t) s

theorem allPortsDown_links (s : State) : (∀ n, n < 4 → (cport (allPortsDown s) n).up = false) ∧
    (allPortsDown s).prt.mode = s.prt.mode ∧ (allPortsDown s).prt.filters = s.prt.filters := by
  have hfirst (m : Nat) (hm : m ≤ 4) (t : State) (ht : t = (List.range m).foldl (fun t n => portDown n t) s) :
      (∀ n, n < m → (cport t n).up = false) ∧ t.prt.mode = s.prt.mode ∧ t.prt.filters = s.prt.filters := by
    induction m generalizing t with
    | zero => exact ⟨fun _ hn => absurd hn (Nat.not_lt_zero _), by rw [ht]; rfl, by rw [ht]; rfl⟩
    | succ m ih =>
      obtain ⟨hup, hmode, hfilters⟩ := ih (by omega) _ rfl
      rw [List.range_succ, List.foldl_append] at ht
      have hdown := linkDown_portDown (n := m) (by omega) ((List.range m).foldl (fun t n => portDown n t) s)
      rw [ht]
      refine ⟨fun n hn => (hdown.up n).trans ?_, hdown.mode.trans hmode, hdown.filters.trans hfilters⟩
      split
      · rfl
      · exact hup n (by omega)
  exact hfirst 4 le_rfl _ rfl

/-! ### Lanes -/

@[simp] theorem lane_setLane_same (n : Nat) (x : Lane) (s : State) : lane (setLane n x s) n = x := mget_mput_same _ _ _ _

theorem lane_setLane_of_ne {n k : Nat} (h : k ≠ n) (x : Lane) (s : State) : lane (setLane n x s) k = lane s k :=
  mget_mput_of_ne _ _ _ h

theorem Touches.lane {l : List Part} {t s : State} (h : Touches l t s) (hl : l.contains .line = false) (n : Nat) :
    lane t n = Machine.lane s n := by rw [Machine.lane, h.line hl, ← Machine.lane]

theorem setPrbs_lane (k : Nat) (x : Prbs) (s : State) : setPrbs (1 + k) x s = setLane k { lane s k with prbs := x } s := by
  rw [setPrbs, if_neg (by omega), Nat.add_sub_cancel_left]

theorem prbsOf_lane (k : Nat) (s : State) : prbsOf s (1 + k) = (lane s k).prbs := by
  rw [prbsOf, if_neg (by omega), Nat.add_sub_cancel_left]

theorem portOfLane_lt {s : State} {k n : Nat} (h : portOfLane s k = some n) : n < 4 :=
  List.mem_range.mp (List.mem_of_find?_eq_some h)

theorem touches_laneDown (k : Nat) (s : State) : Touches downParts (laneDown k s) s := by
  unfold laneDown
  split
  · next h => exact touches_portDown (portOfLane_lt h) s
  · rfl

theorem laneDown_down {k n : Nat} {s : State} (h : portOfLane s k = some n) : (cport (laneDown k s) n).up = false := by
  simp only [laneDown, h]
  rw [(linkDown_portDown (portOfLane_lt h) s).up, if_pos rfl]

section PortCommands
variable {s : State} {ch : Nat}

/-- An accepted command that sets a lane, and may take the link of its port down. -/
theorem laneCommand {c : Instr} {cmd : IfCmd} {a : Ans} {k : Nat} {x : Lane} {b : Bool} (hexec : exec c s = done s (runIf cmd ch s))
    (h : Accepted cmd ch s)
    (heffect : cmd.effect ch (msgWords (chan s ch)) s = (if b then setLane k x s else laneDown k (setLane k x s), a)) :
    ∃ t, exec c s = .next t ∧ lane t k = x ∧ (∀ j, j ≠ k → lane t j = lane s j) ∧
      (b = false → ∀ n, portOfLane s k = some n → (cport t n).up = false) := by
  obtain ⟨t, ht, htouch⟩ := accepted_touches hexec h heffect
  have hlane (j : Nat) : lane t j = lane (setLane k x s) j := by
    rw [htouch.lane rfl]
    split
    · rfl
    · exact (touches_laneDown k _).lane rfl j
  refine ⟨t, ht, by rw [hlane, lane_setLane_same], fun j hj => by rw [hlane, lane_setLane_of_ne hj], fun hb n hn => ?_⟩
  rw [htouch.portUp rfl, hb]
  exact laneDown_down (s := setLane k x s) hn

/-! ### Port modes and settings (R260, R261) -/

theorem portMode_sets (h : Accepted cmdPortMode ch s) : ∃ t, exec (.portMode ch) s = .next t ∧
    t.prt.mode = fld (argOf s ch 1) 1 0 ∧ t.fw.want.portMode = fld (argOf s ch 1) 1 0 ∧
    (∀ n, n < 4 → (cport t n).up = false) ∧ t.prt.filters = s.prt.filters := by
  let m := fld (argOf s ch 1) 1 0
  let s1 := allPortsDown s
  let s2 : State := { s1 with prt := { s1.prt with mode := m } }
  let u := saveStore (fun x => { x with portMode := m }) s2
  obtain ⟨hup, -, hfilters⟩ := allPortsDown_links s
  have heffect : cmdPortMode.effect ch (msgWords (chan s ch)) s = (keepCurves s1 u, .data []) := rfl
  obtain ⟨t, ht, htouch⟩ := accepted_touches (rfl : exec (.portMode ch) s = _) h heffect
  have hu : Touches [.fw] u s2 := ((touches_flushStore _).trans (touches_fw s2 _)).widen rfl
  have hkept := htouch.trans (touches_keepCurves s1 u)
  have hlinks : SameLinks t s2 := .of_touches (hkept.trans hu) rfl
  have hwant : u.fw.want.portMode = m := by
    simp only [u, saveStore, flushStore]
    split <;> rfl
  exact ⟨t, ht, hlinks.mode, by rw [hkept.fw rfl, hwant], fun n hn => (hlinks.up n).trans (hup n hn), hlinks.filters.trans hfilters⟩

theorem portMode_busy (hbusy : clientLedgerBusy s = true ∨ modeBlocked s (fld (argOf s ch 1) 1 0) = true) :
    ¬ Accepted cmdPortMode ch s := by
  intro h
  have hcheck := h.check
  simp only [cmdPortMode, ite_eq_right_iff, reduceCtorEq, imp_false, Bool.or_eq_true] at hcheck
  exact hcheck hbusy

theorem portSet_sets (h : Accepted cmdPortSet ch s) :
    let w1 := argOf s ch 1
    let w2 := argOf s ch 2
    let n := fld w1 1 0
    ∃ t, exec (.portSet ch) s = .next t ∧ { cport t n with pauses := [] } = { cport s n with
        maxFrame := fld w1 16 2, preTx := bit w1 17, preRx := bit w1 18, flow := fld w1 20 19, watchdog := fld w1 30 21,
        xoff := fld w2 17 0, xon := fld w2 35 18, noPause := BitVec.ofNat 8 (fld w2 43 36), pauses := [] } ∧
      (∀ k, k ≠ n → { cport t k with pauses := [] } = { cport s k with pauses := [] }) ∧
      (∀ k, (queue t k).frames = (queue s k).frames) ∧ t.prt.mode = s.prt.mode := by
  intro w1 w2 n
  let x : CPort := { cport s n with
    maxFrame := fld w1 16 2, preTx := bit w1 17, preRx := bit w1 18, flow := fld w1 20 19, watchdog := fld w1 30 21
    xoff := fld w2 17 0, xon := fld w2 35 18, noPause := BitVec.ofNat 8 (fld w2 43 36)
    pauses := if (cport s n).flow = fld w1 20 19 then (cport s n).pauses else [] }
  let u := setCport n x s
  have htags := (tagsOnly_followTags u).retagged
  have heffect : cmdPortSet.effect ch (msgWords (chan s ch)) s = (followTags u, .done) := rfl
  obtain ⟨t, ht, htouch⟩ := accepted_touches (rfl : exec (.portSet ch) s = _) h heffect
  obtain ⟨hports, -, hmode, -⟩ := ((htouch.trans htags.touches).same rfl : Part.Same t u .prt)
  refine ⟨t, ht, (hports n).trans ?_, fun k hk => (hports k).trans ?_, fun k => ?_, hmode⟩
  · rw [cport_setCport_same]
  · rw [cport_setCport_of_ne hk]
  · rw [htouch.queue rfl, htags.frames_eq]
    rfl

theorem pfcPriority_sets (h : Accepted cmdPfcPriority ch s) :
    let n := fld (argOf s ch 1) 10 0
    ∃ t, exec (.pfcPriority ch) s = .next t ∧ (svcNode t n).pfc = fld (argOf s ch 1) 13 11 ∧ (svcNode t n).shaper = (svcNode s n).shaper ∧
      (∀ k, k ≠ n → (svcNode t k).pfc = (svcNode s k).pfc) ∧ (∀ k, (queue t k).frames = (queue s k).frames) ∧ t.pwr = s.pwr := by
  intro n
  let u := setSvc n { svcNode s n with pfc := fld (argOf s ch 1) 13 11 } s
  have htags := tagsOnly_followTags u
  have heffect : cmdPfcPriority.effect ch (msgWords (chan s ch)) s = (followTags u, .done) := rfl
  obtain ⟨t, ht, htouch⟩ := accepted_touches (rfl : exec (.pfcPriority ch) s = _) h heffect
  have hall := htouch.trans (htags.retagged.touches.trans (touches_sch s _))
  have hbare (k : Nat) : (svcNode t k).bare = (svcNode u k).bare := by rw [htouch.svcNode rfl, htags.svcs]
  have hpfc (k : Nat) : (svcNode t k).pfc = (svcNode u k).pfc := (congrArg SNode.pfc (hbare k) :)
  have hshaper : (svcNode t n).shaper = (svcNode u n).shaper := (congrArg SNode.shaper (hbare n) :)
  refine ⟨t, ht, ?_, ?_, fun k hk => ?_, fun k => ?_, hall.pwr rfl⟩
  · rw [hpfc, svcNode_setSvc_same]
  · rw [hshaper, svcNode_setSvc_same]
  · rw [hpfc, svcNode_setSvc_of_ne hk]
  · rw [htouch.queue rfl, htags.retagged.frames_eq]
    rfl

/-! ### The equaliser table, and patterns of lanes (R57, R58, R62) -/

theorem cport_startEqRead (n : Nat) (s : State) : cport (startEqRead s) n = cport s n := rfl

theorem line_startEqRead (s : State) :
    (startEqRead s).line = { s.line with eqTries := 0, eqReading := true, eqRaw := none, eqReady := false } := rfl

theorem eqReload_starts (h : Accepted cmdEqReload ch s) : ∃ t, exec (.eqReload ch) s = .next t ∧
    (∀ n, n < 4 → (cport t n).up = false) ∧
    t.line = { s.line with eqTries := 0, eqReading := true, eqRaw := none, eqReady := false } := by
  let s1 := allPortsDown s
  have heffect : cmdEqReload.effect ch (msgWords (chan s ch)) s = (startEqRead s1, .pend .eqReload) := rfl
  obtain ⟨t, ht, htouch⟩ := accepted_touches (rfl : exec (.eqReload ch) s = _) h heffect
  obtain ⟨hup, -⟩ := allPortsDown_links s
  have hline : s1.line = s.line := (touches_allPortsDown s).line rfl
  refine ⟨t, ht, fun n hn => ?_, by rw [htouch.line rfl, line_startEqRead, hline]⟩
  rw [htouch.portUp rfl, cport_startEqRead, hup n hn]

theorem laneLoopback_ends (h : Accepted cmdLaneLoopback ch s) (hloop : fld (argOf s ch 1) 3 2 = 0) :
    let k := fld (argOf s ch 1) 1 0
    Answers (.laneLoopback ch) 0x0907 ch .done s (setLane k { lane s k with loop := 0 } s) := by
  intro k
  have hloop' : fld (arg (msgWords (chan s ch)) 1) 3 2 = 0 := hloop
  have heffect : cmdLaneLoopback.effect ch (msgWords (chan s ch)) s = (setLane k { lane s k with loop := 0 } s, .done) := by
    simp only [cmdLaneLoopback, hloop']
    rfl
  exact answers_of_effect (cmd := cmdLaneLoopback) rfl h heffect

theorem laneLoopback_starts (h : Accepted cmdLaneLoopback ch s) (hloop : fld (argOf s ch 1) 3 2 ≠ 0) :
    let k := fld (argOf s ch 1) 1 0
    ∃ t, exec (.laneLoopback ch) s = .next t ∧ lane t k = { lane s k with loop := fld (argOf s ch 1) 3 2 } ∧
      (∀ j, j ≠ k → lane t j = lane s j) ∧ (∀ n, portOfLane s k = some n → (cport t n).up = false) := by
  intro k
  have hloop' : fld (arg (msgWords (chan s ch)) 1) 3 2 ≠ 0 := hloop
  have heffect : cmdLaneLoopback.effect ch (msgWords (chan s ch)) s =
      (if false then setLane k { lane s k with loop := fld (argOf s ch 1) 3 2 } s
        else laneDown k (setLane k { lane s k with loop := fld (argOf s ch 1) 3 2 } s), .done) := by
    simp only [cmdLaneLoopback, if_neg hloop']
    rfl
  obtain ⟨t, ht, hlane, hothers, hdown⟩ := laneCommand (rfl : exec (.laneLoopback ch) s = _) h heffect
  exact ⟨t, ht, hlane, hothers, hdown rfl⟩

theorem lanePrbs_sets (h : Accepted cmdLanePrbs ch s) :
    let w := argOf s ch 1
    let k := fld w 1 0
    ∃ t, exec (.lanePrbs ch) s = .next t ∧
      lane t k = { lane s k with prbs := { (lane s k).prbs.set (fld w 7 4) (fld w 11 8) (bit w 12) (bit w 13) with
        inject := fld w 15 14, injectArg := fld w 31 16 } } ∧
      (∀ j, j ≠ k → lane t j = lane s j) ∧ (fld w 7 4 ≠ 0 → ∀ n, portOfLane s k = some n → (cport t n).up = false) := by
  intro w k
  let x : Lane := { lane s k with prbs := { (lane s k).prbs.set (fld w 7 4) (fld w 11 8) (bit w 12) (bit w 13) with
    inject := fld w 15 14, injectArg := fld w 31 16 } }
  have heffect : cmdLanePrbs.effect ch (msgWords (chan s ch)) s =
      (if decide (fld w 7 4 = 0) then setLane k x s else laneDown k (setLane k x s), .done) := by
    simp only [cmdLanePrbs, setPrbs_lane, decide_eq_true_eq]
    rfl
  obtain ⟨t, ht, hlane, hothers, hdown⟩ := laneCommand (rfl : exec (.lanePrbs ch) s = _) h heffect
  exact ⟨t, ht, hlane, hothers, fun hgen => hdown (decide_eq_false hgen)⟩

theorem lanePrbsRead_reads (h : Accepted cmdLanePrbsRead ch s) :
    let k := fld (argOf s ch 1) 1 0
    Answers (.lanePrbsRead ch) 0x0909 ch (.data (checkerWords (lane s k).prbs.checker)) s
      (if bit (argOf s ch 1) 2 then setLane k { lane s k with prbs := { (lane s k).prbs with checker :=
        { (lane s k).prbs.checker with bitErrors := 0, symErrors := 0, losses := 0 } } } s else s) := by
  intro k
  refine answers_of_effect (cmd := cmdLanePrbsRead) rfl h ?_
  simp only [cmdLanePrbsRead, clearChecker, setPrbs_lane, prbsOf_lane]
  rfl

end PortCommands

/-- Settles O43. -/
theorem pauseAndPortCommands : Obligations.PauseAndPortCommands := by
  unfold Obligations.PauseAndPortCommands
  exact ⟨fun _ _ _ => pauseFrame_taken, fun _ _ _ => pauseFrame_unheard, fun _ _ _ => pauseFrame_discarded,
    fun _ _ _ _ => pfcFrame_taken, fun _ _ _ _ => pfcFrame_discarded, fun s n p _ => pauseTimerExpiry_ends n p s,
    fun _ _ _ => pauseWatchdog_fires, fun _ _ _ => pauseWatchdog_idle, fun s n p _ => watchdogEnd_obeys n p s,
    fun _ _ _ _ => pauseRefresh_sends, fun _ _ _ => pauseRefresh_idle, fun _ _ => portMode_sets, fun _ _ => portMode_busy,
    fun _ _ => portSet_sets, fun _ _ => pfcPriority_sets, fun _ _ h => answers_of_effect (cmd := cmdFilterSet) rfl h rfl,
    fun _ _ => eqReload_starts, fun _ _ h => answers_of_effect (cmd := cmdPortInfo) rfl h rfl, fun _ _ => laneLoopback_ends,
    fun _ _ => laneLoopback_starts, fun _ _ => lanePrbs_sets, fun _ _ => lanePrbsRead_reads⟩

end Sys2Proof.Machine
end
